-- ==== Sys2Proof/Word.lean ====
section
/-! DEFINITION. The widths the manual counts in (00 R8, 02 R34): 64-bit registers, bytes, 32-bit lanes, and the
sparse table in which the model keeps anything the manual numbers and that is mostly at its reset value. -/

namespace Sys2Proof

/-- A register or a general operand: 64 bits. -/
abbrev Word := BitVec 64

/-- The smallest addressable unit of every byte memory. -/
abbrev Byte := BitVec 8

/-- A sparse table: the entries that have been written, by number. A number that is not listed holds the default
its reader names (the reset value). -/
abbrev Map (α : Type) := List (Nat × α)

end Sys2Proof
end

