-- ==== Sys2Proof/Syntax.lean ====
section
/-! DEFINITION. The commands of the block: one constructor of `Instr` per row of the operation table, with the operands
the manual gives it. A word that a thread issues carries its context `Ctx`: the site, the thread, and the form in which
the word holds the operation (03 R63, 04 R104, R105). What the outside world measures or observes (a temperature, a lane
that fails, a flit that arrives) is an operand of the command that reports it. -/

namespace Sys2Proof

/-- A site of the mesh (01 R13): column × 16 + row. -/
abbrev Site := Fin 2048

/-- A general or vector register number; a predicate number (03 R70, R77). -/
abbrev Reg := Fin 32
abbrev PReg := Fin 8

/-- Privilege level (08 R211). -/
inductive Level where
  | user | supervisor | machine
  deriving DecidableEq, Repr

/-- Integer operations on two registers (04 Table 4.11, OP 0x00 to 0x0B). -/
inductive AluOp where
  | add | sub | and | or | xor | andn | shl | shr | sar | mul | mulhs | mulhu
  deriving DecidableEq, Repr

/-- Conditions of CMP and CMPI. -/
inductive Cond where
  | eq | ne | lt | ltu | ge | geu
  deriving DecidableEq, Repr

/-- BSET, BCLR, BTGL (04 Table 4.12). -/
inductive BitOp where
  | set | clr | tgl
  deriving DecidableEq, Repr

/-- The two-input bit operations of BCOMB and of the predicate logic. -/
inductive LogicOp where
  | and | or | xor | andn
  deriving DecidableEq, Repr

/-- Vector operations that have a short form (04 Table 4.14). -/
inductive VShortOp where
  | vadd | vsub | vmul | vmin | vmax | vabs | vneg | vand | vor | vxor | vexp2 | vrcp | vrsq
  deriving DecidableEq, Repr

/-- A short operation of a pair (04 R105, Tables 4.5, 4.11 to 4.15). Immediates are the short form's own fields. -/
inductive ShortOp where
  | alu (op : AluOp) (d a b : Reg)
  | aluImm (op : AluOp) (d a : Reg) (imm : BitVec 10)
  | shiftImm (op : AluOp) (d a : Reg) (n : BitVec 6)
  | mov (d a : Reg)
  | lil (d : Reg) (imm : BitVec 10)
  | cmp (c : Cond) (pd : PReg) (a b : Reg)
  | bld (pd : PReg) (a : Reg) (u : BitVec 10)
  | bst (ps : PReg) (a : Reg) (u : BitVec 10)
  | bit (op : BitOp) (a : Reg) (u : BitVec 10)
  | btas (pd : PReg) (a : Reg) (u : BitVec 10)
  | btac (pd : PReg) (a : Reg) (u : BitVec 10)
  | bldw (d a : Reg) (u : BitVec 10)
  | bstw (d a : Reg) (u : BitVec 10)
  | plogic (op : LogicOp) (pd p q : PReg)
  | movpg (d : Reg)
  | movgp (a : Reg)
  | ld (signed : Bool) (lg : Fin 4) (d a : Reg) (disp : BitVec 6)
  | st (lg : Fin 4) (d a : Reg) (disp : BitVec 6)
  | ldl (signed : Bool) (lg : Fin 4) (d a : Reg) (disp : BitVec 6)
  | stl (lg : Fin 4) (d a : Reg) (disp : BitVec 6)
  | vec (op : VShortOp) (fmt : BitVec 4) (d a b : Reg)
  | br (disp : BitVec 14)
  | ret
  /-- a short encoding that Tables 4.11 to 4.15 do not list -/
  | reserved (bits : BitVec 31)
  deriving DecidableEq, Repr

/-- How a word holds an operation: alone in a long word with its guard (04 Table 4.1), or in one slot of a pair, whose
other slot holds `other` under guard `osg` (04 Table 4.2). In both the sender of the command has read the word. Under `fetched` the
device reads it: the 64 bits at the thread's pc are decoded (03 R63, 04 R104, R105; assumption log 8). -/
inductive Form where
  | long (neg : Bool) (gp : PReg)
  | pair (slot : Fin 2) (sg : Fin 4) (osg : Fin 4) (other : ShortOp)
  | fetched
  deriving DecidableEq, Repr

/-- The context of a word: the site, the thread, and the form. -/
structure Ctx where
  site : Site
  thr : Fin 4
  form : Form
  deriving DecidableEq, Repr

/-- Addressing modes of scalar accesses (03 R85, 04 Table 4.7). A short form has mode `base` with disp6 × size. -/
inductive AMode where
  | base (a : Reg) (disp : BitVec 24)
  | index (a b : Reg)
  | post (a : Reg) (disp : BitVec 16)
  | rel (disp : BitVec 24)
  deriving DecidableEq, Repr

/-- The format, rounding, saturation and signedness fields of a long vector word (04 Table 4.4, LV). -/
structure VFields where
  fmt : BitVec 4
  rm : BitVec 2
  sat : Bool
  sa : Bool
  sb : Bool
  fmt2 : BitVec 4
  deriving DecidableEq, Repr

/-- CSRW, CSRS, CSRC (04 R117). -/
inductive CsrOp where
  | w | s | c
  deriving DecidableEq, Repr

/-- Who waits for a reply that has not come (19 R500). -/
inductive Requester where
  | thread (site : Site) (thr : Fin 4) (req : Nat)
  | hod (site : Site) (ring : Fin 4) (tag : Nat)
  | send (site : Site) (thr : Fin 4) (seq : Nat)
  deriving DecidableEq, Repr

/-- A repair of a slice (22 Table 22.3, DETAIL): the spare MAC column in place of a column, or any other spare under its DETAIL. -/
inductive Repair where
  | column (c : BitVec 5)
  | spare (detail : BitVec 32)
  deriving DecidableEq, Repr

/-- An access that arrives from outside a core: the packet, and the flaws of local memory found on the way, each the word's number and
whether it is uncorrectable (05 R137; 19 R484). -/
structure Arrival where
  pkt : Nat
  flaws : List (Nat × Bool)
  deriving DecidableEq, Repr

/-- What a MEASR echo says: the length that its lane measured, and the wire position at which the lane was found (16 R408, R425). -/
structure Echo where
  len : BitVec 16
  pos : Fin 9
  deriving DecidableEq, Repr

/-- An attestation: where the nonce lies and the report goes, and whether an alarm arrives while it runs (20 R516, R521). -/
structure AttestRun where
  addr : BitVec 48
  alarmed : Bool
  deriving DecidableEq, Repr

/-- What a start measures and tests (11 R287, 22 R553): stacks found out of service with their REASON, stack
temperatures, and slices that fail at start with the repair that makes them pass, if any, and whether the budget was exceeded. -/
structure StartMeas where
  heights : List (Fin 24 × BitVec 8)
  temps : List (Fin 24 × BitVec 8)
  slices : List (BitVec 16 × Option Repair × Bool)
  deriving DecidableEq, Repr

/-- How the programming of a security command's fuses ends (20 R515, R521): every word verifies, word n reads back wrong, or an alarm
arrives when n words have been programmed. -/
inductive FuseEnd where
  | done
  | mismatch (n : Nat)
  | alarm (n : Nat)
  deriving DecidableEq, Repr

/-- Outcome of a slice test (22 R558). -/
inductive SliceResult where
  | pass
  | repaired (r : Repair)
  | fails (detail : BitVec 32)
  deriving DecidableEq, Repr

/-- A residue mismatch in a MAC column, or a stored code of accumulator n that fails to match its element, counted row × 64 + column
(07 R206, R207, R209). -/
inductive Mismatch where
  | column (j : Fin 32)
  | code (n : Fin 8) (elem : Fin 8192)
  deriving DecidableEq, Repr

/-- The checks of an I3C frame (23 R562, R563): its TAG, and whether its CRC and its length are right. -/
structure Frame where
  tag : BitVec 8
  crcOk : Bool
  lenOk : Bool
  deriving DecidableEq, Repr

/-- The commands, in the order of the operation table. -/
inductive Instr where
  -- INT words
  | add (c : Ctx) (d a b : Reg)
  | sub (c : Ctx) (d a b : Reg)
  | and (c : Ctx) (d a b : Reg)
  | or (c : Ctx) (d a b : Reg)
  | xor (c : Ctx) (d a b : Reg)
  | andn (c : Ctx) (d a b : Reg)
  | shl (c : Ctx) (d a b : Reg)
  | shr (c : Ctx) (d a b : Reg)
  | sar (c : Ctx) (d a b : Reg)
  | mul (c : Ctx) (d a b : Reg)
  | mulhs (c : Ctx) (d a b : Reg)
  | mulhu (c : Ctx) (d a b : Reg)
  | addi (c : Ctx) (d a : Reg) (imm : BitVec 24)
  | andi (c : Ctx) (d a : Reg) (imm : BitVec 24)
  | ori (c : Ctx) (d a : Reg) (imm : BitVec 24)
  | xori (c : Ctx) (d a : Reg) (imm : BitVec 24)
  | shli (c : Ctx) (d a : Reg) (n : BitVec 6)
  | shri (c : Ctx) (d a : Reg) (n : BitVec 6)
  | sari (c : Ctx) (d a : Reg) (n : BitVec 6)
  | mov (c : Ctx) (d a : Reg)
  | lil (c : Ctx) (d : Reg) (imm : BitVec 32)
  | lih (c : Ctx) (d : Reg) (imm : BitVec 32)
  | cmp (c : Ctx) (k : Cond) (pd : PReg) (a b : Reg)
  | cmpi (c : Ctx) (k : Cond) (pd : PReg) (a : Reg) (imm : BitVec 24)
  -- BIT words
  | bld (c : Ctx) (pd : PReg) (a : Reg) (u : BitVec 17)
  | bst (c : Ctx) (ps : PReg) (a : Reg) (u : BitVec 17)
  | bset (c : Ctx) (a : Reg) (u : BitVec 17)
  | bclr (c : Ctx) (a : Reg) (u : BitVec 17)
  | btgl (c : Ctx) (a : Reg) (u : BitVec 17)
  | btas (c : Ctx) (pd : PReg) (a : Reg) (u : BitVec 17)
  | btac (c : Ctx) (pd : PReg) (a : Reg) (u : BitVec 17)
  | bcomb (c : Ctx) (op : LogicOp) (a : Reg) (offa : BitVec 9) (b : Reg) (offb : BitVec 9) (r : Reg) (offc : BitVec 9)
  | bldw (c : Ctx) (d a : Reg) (u : BitVec 11)
  | bstw (c : Ctx) (d a : Reg) (u : BitVec 11)
  | bitscan (c : Ctx) (d a : Reg) (u : BitVec 17) (b : Reg) (v : Bool) (units : Nat)
  | pand (c : Ctx) (pd p q : PReg) (na nb : Bool)
  | por (c : Ctx) (pd p q : PReg) (na nb : Bool)
  | pxor (c : Ctx) (pd p q : PReg) (na nb : Bool)
  | pandn (c : Ctx) (pd p q : PReg) (na nb : Bool)
  | movpg (c : Ctx) (d : Reg)
  | movgp (c : Ctx) (a : Reg)
  -- MEM words
  | ld (c : Ctx) (lg : Fin 4) (d : Reg) (m : AMode)
  | ldu (c : Ctx) (lg : Fin 4) (d : Reg) (m : AMode)
  | st (c : Ctx) (lg : Fin 4) (d : Reg) (m : AMode)
  | ldl (c : Ctx) (lg : Fin 4) (d : Reg) (m : AMode)
  | ldlu (c : Ctx) (lg : Fin 4) (d : Reg) (m : AMode)
  | stl (c : Ctx) (lg : Fin 4) (d : Reg) (m : AMode)
  | ldg (c : Ctx) (lg : Fin 4) (d : Reg) (m : AMode)
  | ldgu (c : Ctx) (lg : Fin 4) (d : Reg) (m : AMode)
  | stg (c : Ctx) (lg : Fin 4) (d : Reg) (m : AMode)
  | amo (c : Ctx) (wide : Bool) (op : Fin 10) (d a : Reg) (disp : BitVec 24) (b r : Reg)
  | amog (c : Ctx) (wide : Bool) (op : Fin 10) (d a : Reg) (disp : BitVec 24) (b r : Reg)
  | fenceLd (c : Ctx)
  | fenceSt (c : Ctx)
  | fenceAll (c : Ctx)
  | cinv (c : Ctx) (a : Reg) (disp : BitVec 24)
  | cwb (c : Ctx) (a : Reg) (disp : BitVec 24)
  | cflush (c : Ctx) (a : Reg) (disp : BitVec 24)
  | cinvall (c : Ctx)
  | cflushall (c : Ctx)
  | prefetch (c : Ctx) (a : Reg) (disp : BitVec 24)
  | cwaylk (c : Ctx) (a : Reg)
  | iinv (c : Ctx) (a : Reg) (disp : BitVec 24)
  | iinvall (c : Ctx)
  | gather (c : Ctx) (lg : Fin 4) (d a b r : Reg) (units : Nat)
  | memfill (c : Ctx) (d a b : Reg) (units : Nat)
  -- VEC words
  | vadd (c : Ctx) (f : VFields) (d a b : Reg)
  | vsub (c : Ctx) (f : VFields) (d a b : Reg)
  | vmul (c : Ctx) (f : VFields) (d a b : Reg)
  | vfma (c : Ctx) (f : VFields) (d a b r : Reg)
  | vmin (c : Ctx) (f : VFields) (d a b : Reg)
  | vmax (c : Ctx) (f : VFields) (d a b : Reg)
  | vabs (c : Ctx) (f : VFields) (d a : Reg)
  | vneg (c : Ctx) (f : VFields) (d a : Reg)
  | vand (c : Ctx) (f : VFields) (d a b : Reg)
  | vor (c : Ctx) (f : VFields) (d a b : Reg)
  | vxor (c : Ctx) (f : VFields) (d a b : Reg)
  | vshl (c : Ctx) (f : VFields) (d a : Reg) (imm : BitVec 15)
  | vshr (c : Ctx) (f : VFields) (d a : Reg) (imm : BitVec 15)
  | vcmp (c : Ctx) (f : VFields) (d a b : Reg) (imm : BitVec 15)
  | vsel (c : Ctx) (f : VFields) (d a b r : Reg)
  | vcvt (c : Ctx) (f : VFields) (d a r : Reg) (imm : BitVec 15)
  | vsplit (c : Ctx) (f : VFields) (d r a : Reg) (imm : BitVec 15)
  | vexp2 (c : Ctx) (f : VFields) (d a : Reg)
  | vrcp (c : Ctx) (f : VFields) (d a : Reg)
  | vrsq (c : Ctx) (f : VFields) (d a : Reg)
  | vsmax (c : Ctx) (f : VFields) (d a b : Reg) (imm : BitVec 15)
  | vssum (c : Ctx) (f : VFields) (d a b r : Reg) (imm : BitVec 15)
  | vexpr (c : Ctx) (f : VFields) (d a b : Reg) (imm : BitVec 15)
  | vrope (c : Ctx) (f : VFields) (d r a : Reg) (imm : BitVec 15)
  | vcmask (c : Ctx) (f : VFields) (d a b : Reg) (imm : BitVec 15)
  | vpmask (c : Ctx) (f : VFields) (d a b : Reg)
  | vperm (c : Ctx) (f : VFields) (d a b : Reg)
  | vbcast (c : Ctx) (f : VFields) (d a : Reg)
  | vredsum (c : Ctx) (f : VFields) (d a : Reg)
  | vredmax (c : Ctx) (f : VFields) (d a : Reg)
  | vmovg (c : Ctx) (f : VFields) (d a : Reg) (imm : BitVec 15)
  | vins (c : Ctx) (f : VFields) (d a : Reg) (imm : BitVec 15)
  | vld (c : Ctx) (d a : Reg) (imm : BitVec 15)
  | vst (c : Ctx) (d a : Reg) (imm : BitVec 15)
  -- CTL words
  | br (c : Ctx) (disp : BitVec 26)
  | brr (c : Ctx) (a : Reg)
  | call (c : Ctx) (disp : BitVec 26)
  | callr (c : Ctx) (a : Reg)
  | ret (c : Ctx)
  | wspill (c : Ctx)
  -- TILE words and the matrix unit's own steps
  | tcfg (c : Ctx) (t : Fin 16) (a : Reg)
  | tld (c : Ctx) (t : Fin 16) (a b : Reg) (units : Nat)
  | tst (c : Ctx) (t : Fin 16) (a b : Reg) (units : Nat)
  | tlda (c : Ctx) (t : Fin 16) (a b : Reg) (fmt : BitVec 4) (units : Nat)
  | tsta (c : Ctx) (t : Fin 16) (a b : Reg) (fmt : BitVec 4) (rm : BitVec 2) (sat : Bool) (units : Nat)
  | tmma (c : Ctx) (t u w : Fin 16) (reua reub : Bool)
  | tscale (c : Ctx) (t : Fin 16) (a : Reg)
  | tzero (c : Ctx) (t : Fin 16)
  | tmova (c : Ctx) (a : Reg) (t : Fin 16) (b : Reg)
  | tmovv (c : Ctx) (t : Fin 16) (a b : Reg)
  | matrixOpBegin (site : Site)
  | tmmaCommit (site : Site)
  | residueMismatch (site : Site) (m : Mismatch)
  -- CSR moves
  | csrr (c : Ctx) (d : Reg) (csr : BitVec 12)
  | csrw (c : Ctx) (d : Reg) (csr : BitVec 12) (a : Reg)
  | csrs (c : Ctx) (d : Reg) (csr : BitVec 12) (a : Reg)
  | csrc (c : Ctx) (d : Reg) (csr : BitVec 12) (a : Reg)
  | ropedataWrite (c : Ctx) (op : CsrOp) (d a : Reg)
  | chsbdatAccess (c : Ctx) (op : Option CsrOp) (d a : Reg)
  | wmsgRead (c : Ctx) (d : Reg)
  | chwaitWrite (c : Ctx) (d a : Reg)
  | tlbinvWrite (c : Ctx) (op : CsrOp) (d a : Reg)
  | lmsliceWrite (c : Ctx) (op : CsrOp) (d a : Reg)
  | tpendWrite (c : Ctx) (op : CsrOp) (n : Fin 2) (d a : Reg)
  | ccwdKick (c : Ctx) (op : CsrOp) (d a : Reg)
  -- SYS words
  | msgw (c : Ctx) (a : Reg) (off : BitVec 24)
  | msgsendNonblocking (c : Ctx) (pd : PReg) (a : Reg) (len : Fin 16)
  | msgsendBlocking (c : Ctx) (pd : PReg) (a : Reg) (len : Fin 16)
  | lock (c : Ctx) (pd : PReg) (a : Reg)
  | unlock (c : Ctx) (a : Reg)
  | bar (c : Ctx) (d a b : Reg)
  | bara (c : Ctx) (a b : Reg)
  | watch (c : Ctx) (d a b : Reg)
  | unwatch (c : Ctx) (a : Reg)
  | syncchk (c : Ctx) (d : Reg)
  | hodpost (c : Ctx) (a : Reg)
  | hodcred (c : Ctx) (a : Reg)
  | gate (c : Ctx) (n : BitVec 12)
  | retx (c : Ctx)
  | wait (c : Ctx) (a : Reg)
  | waitPark (c : Ctx) (a : Reg)
  | brk (c : Ctx) (tag : BitVec 24)
  -- core events
  | eventInterrupt (site : Site) (thr : Fin 4)
  | impreciseFaultTaken (site : Site) (thr : Fin 4)
  | idleDeadlock (site : Site)
  | threadStart (site : Site) (thr : Fin 4)
  | remoteResultReturn (pkt : Nat)
  | storeAck (pkt : Nat)
  | icacheLineFill (pkt : Nat)
  | unreachableReply (pkt : Nat)
  | strbusyReply (pkt : Nat)
  | strbusyResend (site : Site) (pkt : Nat)
  | meshAccessArrival (arr : Arrival)
  | coreEvsetStore (site : Site) (thr : Fin 4) (lvl : Level) (bits : BitVec 32)
  -- lock, barrier and watch units
  | lockRequestArrival (pkt : Nat)
  | lockRetry (site : Site) (thr : Fin 4)
  | unlockArrival (pkt : Nat)
  | lockGrantArrival (pkt : Nat)
  | ownerResetNotice (pkt : Nat)
  | synBcfgWrite (cluster : Fin 128) (bar : Fin 64) (v : BitVec 64)
  | barrierAbort (cluster : Fin 128) (bar : Fin 64)
  | barrierArrival (pkt : Nat)
  | combinedArrival (pkt : Nat)
  | deviceArrival (pkt : Nat)
  | releaseCopyArrival (pkt : Nat)
  | releaseNotice (pkt : Nat)
  | unitLostNotice (pkt : Nat)
  | watchRegistration (pkt : Nat)
  | wordWatchMatch (pkt : Nat)
  | watchTimeout (cluster : Fin 128) (entry : Fin 256)
  | unwatchArrival (pkt : Nat)
  | watchMessageArrival (pkt : Nat)
  -- pace
  | paceTick (cluster : Fin 128)
  | paceRatioUpdate (cluster : Fin 128)
  | paceRateUpdate (h : Fin 8) (rate : BitVec 16)
  | topPaceClr (h : Fin 8)
  -- HBM
  | hbmRequest (pkt : Nat) (flaws : List (Nat × Bool))
  | hbmRetirePage (node : Fin 96) (addr : BitVec 48)
  | hbmRetirePc (node : Fin 96) (addr : BitVec 48)
  | pcMigrationEnd (node : Fin 96)
  | pcSwitch (node : Fin 96) (pc : Fin 8)
  | hbmScrubRow (node : Fin 96) (flaws : List (Nat × Bool))
  | stackTempCheck (node : Fin 96) (temp : BitVec 8)
  | hbmEccClr (node : Fin 96)
  -- gather-reduce units
  | gruPool (pkt : Nat)
  | gruScatter (pkt : Nat)
  | gruRequestDone (node : Fin 96)
  | gruCtlEn (node : Fin 96) (en : Bool)
  | gruDrainComplete (node : Fin 96)
  -- mesh
  | packetRoute (pkt : Nat) (router : Site)
  | streamDelivery (pkt : Nat)
  | streamResetNotice (pkt : Nat)
  | meshFlitCrcError (site : Site) (port : Fin 8) (replay : Bool)
  | injectionRateRecover (site : Site)
  | mshCtlEn (site : Site) (en : Bool)
  | injectionGateQuiet (site : Site)
  | mshErrClr (site : Site)
  -- hod
  | hodRctlEn (site : Site) (ring : Fin 4) (lvl : Level) (v : BitVec 64)
  | hodRingDrainComplete (site : Site) (ring : Fin 4)
  | hodDescriptorCheck (site : Site) (ring : Fin 4)
  | hodDescriptorBegin (site : Site) (ring : Fin 4)
  | hodReadData (pkt : Nat)
  | hodWriteAck (pkt : Nat)
  | hodReadback (pkt : Nat)
  | hodGruStatus (pkt : Nat)
  | hodCompletion (site : Site) (ring : Fin 4)
  -- channels
  | chnEpctlEn (site : Site) (x : Fin 16) (v : BitVec 64)
  | chnEndpointDrainComplete (site : Site) (x : Fin 16)
  | tokenCancel (site : Site) (e : Fin 8) (tok : Fin 64)
  | requestMessageArrival (pkt : Nat)
  | replyMessageArrival (pkt : Nat)
  | msgAckArrival (pkt : Nat)
  | msgNackArrival (pkt : Nat)
  | blockingSendRetry (site : Site) (thr : Fin 4)
  -- links
  | lnkCtlEn (port : Fin 16) (v : BitVec 64)
  | lnkSleepRequest (port : Fin 16) (sleep : Bool)
  | lnkFecClr (port : Fin 16)
  | lnkErrClr (port : Fin 16)
  | controlLaneLock (port : Fin 16)
  | controlLockLoss (port : Fin 16)
  | linkStateTimeout (port : Fin 16)
  | lmMeas (port : Fin 16) (pair : Fin 10) (probe : BitVec 8)
  | lmMeasr (port : Fin 16) (pair : Fin 10) (echo : Echo)
  | lmCap (port : Fin 16) (body : BitVec 384)
  | lmCapack (port : Fin 16)
  | dtrainDone (port : Fin 16) (lanes : List (Option (Fin 9)))
  | dcheckDone (port : Fin 16)
  | dataFlitArrival (port : Fin 16) (flit : BitVec 2048) (fecBad : Bool)
  | controlFlitArrival (port : Fin 16) (flit : BitVec 512)
  | linkNak (port : Fin 16) (ctrl : Bool) (last : BitVec 16)
  | replayTimeout (port : Fin 16) (ctrl : Bool)
  | recoverDiscardTimeout (port : Fin 16)
  | dataLaneFailure (port : Fin 16) (lane : Fin 8) (period : BitVec 32)
  | lmSpare (port : Fin 16) (lane : Fin 8) (period : BitVec 32)
  | lmSpareack (port : Fin 16) (period : BitVec 32)
  | lmPwr (port : Fin 16) (sleep : Bool)
  | lmPwrack (port : Fin 16) (accept : Bool)
  | lmRetrain (port : Fin 16)
  | lmDown (port : Fin 16)
  | portDrainTimeout (port : Fin 16)
  -- collectives, groups, host
  | collGo (t : Fin 4) (desc : BitVec 48)
  | collAbort (t : Fin 4)
  | collUpArrival (pkt : Nat)
  | collDownArrival (pkt : Nat)
  | collDstWriteAck (t : Fin 4) (chunk : Nat)
  | grpHctlEn (lvl : Level) (v : BitVec 64)
  | bridgeDrainComplete
  | grpHintStore (v : BitVec 64)
  | grpStatClr
  | grpHstatClr
  | hctlDbell (dev : BitVec 9) (site : BitVec 11) (thr : Fin 4) (bits : BitVec 32)
  | hctlRegrd (off : BitVec 16) (tag : BitVec 32)
  | hctlRegwr (off : BitVec 16) (tag : BitVec 32) (v : BitVec 64)
  | hctlSreset (dev : BitVec 9) (site : BitVec 11) (strm : BitVec 4)
  | errfwdArrival (record : BitVec 512)
  -- structure images
  | imgLoad
  | imgDrain
  | imgDrainComplete
  | imgDrainTimeout
  | imgApply
  | imgUndrain
  | imgRun
  | imgAbort
  | imgdata (sdev : BitVec 9) (off : BitVec 48) (data : List Byte)
  | imgcmd (sdev : BitVec 9) (cmd : BitVec 8) (serial : BitVec 64)
  -- error records and fences
  | errorRecordArrival (n : Nat)
  | healthViewCompare
  | responseTimeout (r : Requester)
  | mgtErrqEnable (v : BitVec 64)
  | mgtErrconsClr (v : BitVec 64)
  | fenceCore (site : Site)
  | fenceRouter (site : Site)
  | fenceNode (node : Fin 96)
  | fenceGru (node : Fin 96)
  | fencePort (port : Fin 16)
  | fenceSyncUnit (cluster : Fin 128)
  | fenceCollEngine (t : Fin 4)
  -- security
  | lcadv (fuses : FuseEnd)
  | genid (fuses : FuseEnd)
  | provision (addr : BitVec 48) (fuses : FuseEnd)
  | returnDev (addr : BitVec 48) (fuses : FuseEnd)
  | eol (fuses : FuseEnd)
  | advsvn (fuses : FuseEnd)
  | secAttest (run : AttestRun)
  | kill (fuses : FuseEnd)
  | dbgChallenge
  | dbgUnlock (msg : BitVec 1032)
  | alarmVolt
  | alarmTemp
  | alarmTamper
  -- reset and power
  | poweron (straps : BitVec 4)
  | inputUndervoltage
  | inputWarning
  | railUndervoltage (rail : Fin 16)
  | railWarning (rail : Fin 16)
  | railGood (rail : Fin 16) (m : StartMeas)
  | resetNLow
  | resetNGlitch
  | resetStretchEnd (m : StartMeas)
  | clockGood (group : Fin 3)
  | refclkFailure
  | startBudgetExpiry
  | swreset
  | bootok
  | mkick
  | force (bits : BitVec 2)
  | mgtWatchdogExpiry
  | ccWatchdogExpiry (cc : Fin 16)
  | thermalTrip
  | throttleStart (h : Fin 8) (tj : BitVec 8)
  | throttleTick (h : Fin 8) (tj : BitVec 8)
  | throttleEnd (h : Fin 8) (tj : BitVec 8)
  | powerWindow (draw vin : BitVec 16)
  -- kiln
  | kilnGo (issuer : Option Site) (kind : BitVec 4) (inst : BitVec 12)
  | kilnSliceDone (r : SliceResult)
  | kilnBudgetExpiry
  -- debugger
  | dbgHalt (site : Site) (mask : BitVec 4)
  | haltTaken (site : Site) (thr : Fin 4)
  | dbgResume (site : Site) (mask : BitVec 4)
  | dbgStep (site : Site) (mask : BitVec 4)
  | dbgDiscsb (site : Site) (mask : BitVec 4)
  | dbgdataAccess (site : Site) (w : Option (BitVec 64))
  -- JTAG and I3C
  | jtagIdcode
  | jtagSamplePreload (lands : BitVec 40)
  | jtagExtest (drive : BitVec 40)
  | jtagBypass
  | dbgaccRead (addr : BitVec 48)
  | dbgaccWrite (addr : BitVec 48) (v : BitVec 64)
  | dbgaccDebugReset
  | dbgaccCoreReset (addr : BitVec 48)
  | otpprog (image : BitVec 512) (key : BitVec 32)
  | scansel (chain : Fin 8)
  | i3cIdent (f : Frame)
  | i3cSensor (f : Frame) (first count : BitVec 8)
  | i3cRegrd (f : Frame) (addr : BitVec 64)
  | i3cRegwr (f : Frame) (addr : BitVec 64) (v : BitVec 64)
  | i3cAttest (f : Frame) (nonce : BitVec 256)
  | i3cStage (f : Frame) (off : BitVec 64) (data : List Byte)
  | i3cImgcmd (f : Frame) (cmd : BitVec 8) (serial : BitVec 64)
  | i3cFlashrd (f : Frame) (addr : BitVec 32) (len : BitVec 16)
  | i3cFlashwr (f : Frame) (addr : BitVec 32) (data : List Byte)
  | i3cFlasherase (f : Frame) (addr : BitVec 32)
  | i3cReset (f : Frame)
  | i3cResponseRead
  | i3cResetTimeout
  | sensorRefresh (vals : List (Nat × BitVec 32))
  | coreTrcctlEnable (site : Site) (v : BitVec 64)
  | registerWrite (addr : BitVec 48) (lvl : Level) (v : BitVec 64)
  -- further events
  | spareLaneFailure (port : Fin 16)
  | lmRequestRepeat (port : Fin 16) (n : Nat)
  | railRecovery (rail : Fin 16)
  | resetSourceEnd (code : BitVec 8)
  | coreResetEnd (site : Site)
  | mgtRestartDone
  | imgrptArrival (dev : BitVec 9) (cmd last : BitVec 8) (state : BitVec 8) (serial : BitVec 64)
  | imgackArrival (dev : BitVec 9) (status : BitVec 8)
  deriving DecidableEq, Repr

end Sys2Proof
end

