-- ==== Sys2Proof/Decode.lean ====
section
/-! DEFINITION. Words of the operation table. The table gives its rows no bits: a command is an operation of the block, not a word, and
no word spells one. (The words that threads fetch have encodings, 04; a word command carries the operation that its sender decoded.) -/

namespace Sys2Proof

/-- The command that `nbits` bits of value `w` spell by the bits of the operation table: none, for the table gives no row any. -/
def decodeTableWord (_nbits _w : Nat) : Option Instr := none

end Sys2Proof
end

