-- ==== Sys2Proof/Config.lean ====
section
/-! DEFINITION. What the device fixes and what the manual leaves open. A constant without a body is a free value: no proof can
see what it is. -/

namespace Sys2Proof.Config

/-- The n-th free value of w bits (assumption log 1): a value the manual leaves open. -/
opaque freeBits (w n : Nat) : BitVec w

/-- The entropy source of the security engine (20): the n-th draw. -/
opaque entropy (n : Nat) : BitVec 256

/-- SM3, an external standard (20; log 9). -/
opaque sm3 (data : List Byte) : BitVec 256

/-- SM2 verification of a signature on a message under a public key and an identifier (20; log 9). -/
opaque sm2Verify (key : BitVec 512) (ident msg : List Byte) (sig : BitVec 512) : Bool

/-- SM2 signature of a message with a private key, an identifier and one draw of entropy. -/
opaque sm2Sign (priv : BitVec 256) (ident msg : List Byte) (draw : BitVec 256) : BitVec 512

/-- Public key of a private key. -/
opaque sm2Public (priv : BitVec 256) : BitVec 512

/-- Hash of the ROM's vendor root key and of the structure-image root (20 R511, 18 R465): fixed in the ROM, not given. -/
opaque romVendorHash : BitVec 256

/-- OPC codes of packets for which the manual gives none, by kind of packet (12 Table 12.3). -/
opaque opcode (kind : Nat) : BitVec 8

/-- DSITE that a source puts into a packet for HBM of another device (17 R436 does not give it; log 22). -/
opaque groupSite (dev addr : Nat) : Nat

/-- What a packet from another device asks for where its operation code is the part's own (log 23): a number for the kind of packet,
then its parameters, from the OPC, ADDR and payload. -/
opaque wireDecode (opc addr : Nat) (payload : List Byte) : List Nat

/-- Byte of the payload of a packet whose layout is the part's own (log 23): from what it says, as `wireDecode` numbers it, and the byte's
place. -/
opaque wireEncode (fields : List Nat) (place : Nat) : Byte

/-- Thread ID of a thread of a site of another device (14 Table 14.7 does not say how it is known there; log 24). -/
opaque remoteThid (dev site thr : Nat) : BitVec 13

/-- Bit order of the CRC-64 of flits, which 16 R412 does not give (log 25). -/
opaque crcReflected : Bool

/-- How far a core's copy of its pace counter lags, which 15 R403 only bounds (log 26): a fixed lag for each site, used modulo 5. -/
opaque paceLag (site : Nat) : Nat

/-- Levels that the board holds at GPIO3 to GPIO0 at an always-on count (log 28): an input of the module. -/
opaque gpioLevel (aoc : Nat) : BitVec 4

/-- The sequencer's words of retained SRAM (21 R537), which hold the reset cause and FAILCNT in a layout that the manual does not give (log
29): word i. -/
opaque sequencerWord (i : Nat) (cause failcnt : Nat) : BitVec 64

/-- Always-on counts in one second at the nominal rate (00 Table 0.7). -/
def aocPerSecond : Nat := 25000000

end Sys2Proof.Config
end

