-- ==== Sys2Proof/Machine/State.lean ====
section
/-! DEFINITION. The state of the device as plain data: every register, store, queue and mode of the manual, and the queue of
commands that wait. Sparse tables are maps with rising keys (`Map`), whose unlisted entries read as the reset value of their
kind. Chapters are cited by file number, rules as R<n>. -/

namespace Sys2Proof.Machine

/-! ### Thread state (03, 05, 06, 08, 14, 15) -/

/-- The fields of cs.status (08 Table 8.3). -/
structure Status where
  df : Bool
  gs : Bool
  exl : Bool
  peie : Bool
  eie : Bool
  plvl : Level
  lvl : Level
  deriving DecidableEq, Repr

/-- What a fence stall waits for: earlier accesses (03 R95), or the acceptance that SYNCCHK awaits (15 R400). -/
inductive FenceKind where
  | ld | st | all | sync
  deriving DecidableEq, Repr

/-- What a thread in a long stall waits for (05 Table 5.1); `stallCode` gives its code. -/
inductive Wait where
  /-- 0x2: the register with this storage key awaits a result (`true`: a vector register). -/
  | result (vec : Bool) (key : Nat)
  /-- 0x2: a ninth outstanding load, AMO or AMOG. -/
  | loadPlace
  /-- 0x2: GATE's entry fetch (08 R236). -/
  | gateEntry
  /-- 0x3: sixteen stores and AMOGs not yet performed. -/
  | storePlace
  /-- 0x4: an earlier overlapping access, or an earlier register-block access, with this request number. -/
  | overlap (req : Nat)
  /-- 0x5: the instruction line at this address. -/
  | fetch (line : Nat)
  /-- 0x6: acknowledgements of earlier accesses. -/
  | fence (k : FenceKind)
  /-- 0x7: an owned endpoint in the mask holding a record; READY goes to the general register with storage key `d`, 0 for gr0
  (14 R376). -/
  | receive (mask : BitVec 16) (d : Nat)
  /-- 0x7: room for a fifth send, or a blocking send (14 R374, R375). -/
  | send
  /-- 0x8: the grant of the lock at this address; the predicate receives ORPHAN. -/
  | lock (addr : Nat) (pd : Fin 8)
  /-- 0x9: the release of a barrier of a cluster; the general register with storage key `d` (0 for gr0) receives its status. -/
  | barrier (cluster n d : Nat)
  /-- 0x9: the release of one of four BARA arrivals (15 R386). -/
  | baraRoom
  /-- 0xA: room in the hod ring for `n` descriptors under LIMIT, or for `n` credits (13 R346, R347). -/
  | hodSpace (credit : Bool) (n limit : Nat)
  /-- 0xB: an event bit of the mask. -/
  | event (mask : BitVec 32)
  deriving DecidableEq, Repr

/-- What a thread is doing (05 R125, R133). The debugger's halt is kept beside it. -/
inductive Run where
  | running
  | ready
  | stalled (w : Wait)
  | parked
  deriving DecidableEq, Repr

/-- An imprecise fault that waits for a word boundary (08 R221). -/
structure Imprecise where
  code : Nat
  sub : Nat
  eaddr : Word
  mult : Bool
  deriving DecidableEq, Repr

/-- A load, AMO or AMOG whose result has not returned, or a posted store not yet performed (05 R129, 03 R94). -/
structure Outstanding where
  /-- the number of its request -/
  req : Nat
  /-- storage key of the destination general register, for a load, AMO or AMOG -/
  dst : Option Nat
  /-- bytes read, as a power of two, and whether the result is sign-extended -/
  lg : Fin 4
  signed : Bool
  /-- device ID for a group access to another device -/
  dev : Option Nat
  addr : Nat
  bytes : Nat
  /-- effective address, for cs.eaddr -/
  ea : Word
  /-- an access to a register block (03 R94 item 3) -/
  regBlock : Bool
  /-- an AMO or AMOG (kept by FENCE.ST as well as FENCE.LD) -/
  atomic : Bool
  deriving DecidableEq, Repr

/-- One outstanding message of a thread (14 R374). -/
structure Send where
  seq : Nat
  pd : Fin 8
  dst : Word
  blocking : Bool
  /-- the reply endpoint and token that the request reserved (14 R372) -/
  tok : Option (Nat × Nat)
  deriving DecidableEq, Repr

/-- The blocking send of a thread (14 R375): its copy of the message, the attempts made, and the pace count at which
the next attempt may be made (`none`: an attempt is in flight). -/
structure BlockingSend where
  pd : Fin 8
  dst : Word
  data : List Byte
  attempts : Nat
  due : Option Nat
  /-- the answer to an attempt that came while the thread was halted (14 R380): 0 for an ACK, else the reason of the NACK -/
  answer : Option Nat := none
  deriving DecidableEq, Repr

/-- A watch slot of a thread (15 R395, R399): free, registered, or holding its message. -/
inductive WatchSlot where
  | free
  | registered (target : Word)
  | holding (order : Nat) (msg : Word)
  deriving DecidableEq, Repr

/-- The window registers (03 Tables 3.5 to 3.7), in units of 128 B. -/
structure Window where
  pos : Fin 8
  res : Nat
  wsp : BitVec 14
  base : BitVec 14
  limit : BitVec 14
  deriving DecidableEq, Repr

/-- The exception registers of a thread (08 Tables 8.2, 8.7 to 8.9, R223, R233). -/
structure ExcRegs where
  epc : Word
  ecause : Word
  eaddr : Word
  progress : Word
  event : BitVec 32
  evmask : BitVec 32
  sdeleg : Word
  svec : Word
  mvec : Word
  sstk : Word
  mstk : Word
  gtab : Word
  depc : Word
  dcause : Word
  deaddr : Word
  dfstk : Word
  deriving DecidableEq, Repr

/-- The reach registers of a thread (08 Tables 8.4, 8.5). -/
structure Reach where
  gbase : BitVec 14
  glimit : BitVec 14
  mrange : Word
  uwin : Map Word
  deriving DecidableEq, Repr

/-- The floating-point and table registers of a thread (02 Tables 2.5, 2.6; 06 Table 6.9; 07 Tables 7.6, 7.11). -/
structure FpRegs where
  /-- cs.fpcsr -/
  fpcsr : Word
  srseed : BitVec 32
  ropeidx : BitVec 8
  tsel : BitVec 4
  tpend0 : Word
  tpend1 : Word
  deriving DecidableEq, Repr

/-- The message and synchronisation state of a thread (14 Tables 14.9, 14.10, R367 to R376; 15 R386, R395 to R401). -/
structure ThreadComm where
  /-- cs.chcfg -/
  chcfg : Word
  chsbidx : BitVec 5
  /-- the 256 B send buffer, by 8 B word -/
  sendBuf : Map Word
  sends : List Send
  blocking : Option BlockingSend
  nextSeq : Nat
  syncev : Word
  watches : Map WatchSlot
  watchOrder : Nat
  /-- BARA arrivals whose release has not come, each with its cluster and barrier -/
  bara : List (Nat × Nat)
  /-- pace count at which a LOCK that drew a retry is sent again (05 R144) -/
  lockDue : Option Nat
  held : List Nat
  lovf : Bool
  /-- units that were lost with packets of the thread on their way to them, for SYNCCHK (15 R400) -/
  lostSync : List Nat
  deriving DecidableEq, Repr

/-- One hardware thread. -/
structure Thread where
  pc : Word
  run : Run
  halted : Bool
  /-- a request to run one word (23 R570), and STEPPED -/
  stepOne : Bool
  stepped : Bool
  /-- globals under keys 1 to 7, windowed physical register p under key 8 + p (03 R70) -/
  gregs : Map Word
  preds : BitVec 8
  vregs : Map (BitVec 1024)
  /-- poisoned general (by storage key) and vector registers, each with the address that cs.eaddr shows (08 R222, 19 R484) -/
  poisonG : List (Nat × Word)
  poisonV : List (Nat × Word)
  win : Window
  status : Status
  exc : ExcRegs
  reach : Reach
  fp : FpRegs
  comm : ThreadComm
  loads : List Outstanding
  stores : List Outstanding
  imprecise : Option Imprecise
  /-- a resumable instruction in progress at the pc: units completed in this run (08 R231) -/
  mid : Option Nat
  /-- long-stall code of a wait that an event has abandoned and that no exception entry has recorded yet (08 R229) -/
  abandoned : Nat
  /-- GATE's entry fetch: its request, the entry's address and its 64 B, `none` until it returns and where it failed (08 R236) -/
  gateFetch : Option (Nat × Nat × Option (BitVec 512))
  /-- address of a word whose line fill ended without the line being kept, the exception code that the fetch draws, 0 where
  the word is at hand (08 R222), and the word -/
  fetched : Option (Word × Nat × Word)
  deriving DecidableEq, Repr

/-! ### Matrix unit (07) -/

/-- An accumulator: its accepted configuration (V in bit 63, KEEP read as 0), marks and elements by row × 64 + column. -/
structure Acc where
  conf : Word
  inc : Bool
  psn : Bool
  elems : Map (BitVec 32)
  /-- the 3-bit code of each element, its pattern modulo 7 (07 R206) -/
  codes : Map (BitVec 3)
  deriving DecidableEq, Repr

/-- A matrix operation as cs.tpend records it (07 Table 7.11). -/
inductive TileOp where
  | tmma (t u w : Fin 16) (reua reub : Bool)
  | tscale (t : Fin 16) (a : Fin 32)
  | tzero (t : Fin 16)
  deriving DecidableEq, Repr

/-- An outstanding matrix operation (07 R197): its thread, and, once it has begun, the operand images it read. -/
structure MatOp where
  thr : Fin 4
  op : TileOp
  begun : Bool
  imgA : List Byte
  imgB : List Byte
  factors : List (BitVec 32)
  /-- a stored-code mismatch has already made it replay once (R209) -/
  codeRetried : Bool
  deriving DecidableEq, Repr

/-- The matrix unit of a core. -/
structure Matrix where
  slots : Map Word
  accs : Map Acc
  queue : List MatOp
  /-- slot held by the A latch and the B latch, where valid (07 R198) -/
  latchA : Option Nat
  latchB : Option Nat
  replays : BitVec 32
  fenced : Bool
  spare : Bool
  scol : BitVec 5
  cols : BitVec 64
  deriving DecidableEq, Repr

/-! ### Caches and translation (09) -/

/-- A cache line (09 R245). -/
structure CacheLine where
  line : Nat
  data : BitVec 512
  dirty : BitVec 64
  tmask : BitVec 4
  deriving DecidableEq, Repr

/-- What a line fill is for (09 R251 to R263). -/
inductive FillKind where
  | demand (policy : BitVec 3)
  | side
  deriving DecidableEq, Repr

/-- A store that a miss holds for its line (09 R257, R259): its request, its first byte in the line, its bytes, and the thread and level
that issued it, none where the bytes also go to the target. -/
structure MergedStore where
  req : Nat
  off : Nat
  bytes : List Byte
  by_ : Option (Fin 4 × Level)
  deriving DecidableEq, Repr

/-- A miss status register: the request of its fill, its line, how the fill is placed, the accesses that wait for it, and whether
the line was invalidated while the miss was outstanding (09 R259, R263). -/
structure Miss where
  req : Nat
  line : Nat
  kind : FillKind
  /-- requests of the accesses that wait, the one that took the register among them -/
  merged : List Nat
  /-- accesses merged since the register was taken, at most 8 -/
  merges : Nat
  /-- stores held, oldest first -/
  stores : List MergedStore
  killed : Bool
  deriving DecidableEq, Repr

/-- One cache: lines by set × ways + way, the pseudo-LRU bits of each set (bit k is node n(k)), the side buffer
oldest first, the misses outstanding and the locked ways. -/
structure Cache where
  lines : Map CacheLine
  plru : Map (BitVec 16)
  side : List (Nat × BitVec 512)
  misses : List Miss
  locked : BitVec 16
  deriving DecidableEq, Repr

/-- A translation held in a TLB (09 R269): a leaf of a level, or a non-leaf entry. -/
structure TlbEntry where
  vpn : Nat
  level : Nat
  asid : Nat
  pte : Word
  deriving DecidableEq, Repr

/-- The MMU of a control core. -/
structure Mmu where
  ptbr : Word
  itlb : List TlbEntry
  dtlb : List TlbEntry
  stlb : List TlbEntry
  nonleaf : List TlbEntry
  deriving DecidableEq, Repr

/-- The caches of a core (icache, rlc) or of a control core (icache is L1I, rlc is L1D, l2). -/
structure Caches where
  icache : Cache
  rlc : Cache
  l2 : Cache
  rat : Map Word
  deriving DecidableEq, Repr

/-! ### Enables, rings and endpoints (13, 14, 19 R501) -/

/-- STATE of a unit under the pending-enable rule. -/
inductive Gate where
  | off | on | draining
  deriving DecidableEq, Repr

/-- EN, PEND and STATE of a unit. -/
structure Enable where
  en : Bool
  pend : Bool
  gate : Gate
  deriving DecidableEq, Repr

/-- A descriptor of a hod ring that has been read (13 R345, R350): its bytes, the status its checks gave it, and how far
its transfer has come. -/
structure HodDesc where
  seq : BitVec 32
  bytes : List Byte
  /-- status so far (0x00 while no error has been met) and first failing address -/
  status : Nat
  sub : Nat
  eaddr : Word
  moved : Nat
  begun : Bool
  /-- the next piece (row, first byte) to send, `none` once every packet has been sent -/
  cursor : Option (Nat × Nat)
  /-- requests not yet answered: packet tag, transfer position -/
  waiting : List (Nat × Nat)
  /-- the read-back of R356: not made, awaited, made -/
  readback : Nat
  done : Bool
  deriving DecidableEq, Repr

/-- One hod ring (13 Tables 13.2 to 13.5). -/
structure HodRing where
  ctl : Enable
  hdr : BitVec 15
  lvl : Level
  err : BitVec 8
  perr : Bool
  cred : Nat
  out : Nat
  take : BitVec 32
  next : BitVec 32
  /-- the header latched when the enable took effect -/
  rbase : Nat
  rlog : Nat
  evb : Nat
  cqbase : Nat
  seq0 : BitVec 32
  /-- descriptors read and not yet recorded, oldest first -/
  active : List HodDesc
  /-- window number and count of each destination's stream (12 R327) -/
  streams : List (Nat × BitVec 16 × Nat)
  deriving DecidableEq, Repr

/-- One channel endpoint (14 Tables 14.2 to 14.5). -/
structure Endpoint where
  ctl : Enable
  hdr : BitVec 15
  minlvl : BitVec 2
  ownt : BitVec 2
  even : Bool
  evb : BitVec 5
  err : BitVec 4
  rbase : Nat
  rlog : Nat
  prod : BitVec 32
  cons : BitVec 32
  nacks : BitVec 16
  resv : Nat
  /-- live reply tokens with the 16 B units each reserves -/
  tokens : Map Nat
  /-- record writes begun and not complete -/
  writing : Nat
  deriving DecidableEq, Repr

/-- A word-watch comparator of a core (15 R396): its word, condition and the watch it serves. -/
structure Comparator where
  word : Nat
  cond : Word
  cluster : Nat
  entry : Nat
  deriving DecidableEq, Repr

/-- Debug, trace and performance registers of a core (23). -/
structure CoreDebug where
  dbgsel : Word
  trcctl : Word
  trclost : BitVec 32
  trcprod : BitVec 32
  pmsel : Word
  pmcnt : Map Word
  /-- halts requested and not yet taken, by thread (23 Table 23.6) -/
  pendHalt : BitVec 4
  err : BitVec 8
  deriving DecidableEq, Repr

/-- Whether a core runs. -/
inductive Power where
  /-- not enabled by the image, fused off, or disabled at start: held powered down -/
  | absent
  /-- held in reset -/
  | reset
  | on
  | fenced
  /-- isolated for a kiln test -/
  | isolated
  deriving DecidableEq, Repr

/-- One core or control core. -/
structure Core where
  power : Power
  /-- thread that last held the issue slot (05 R127) -/
  lastSlot : Fin 4
  thr0 : Thread
  thr1 : Thread
  thr2 : Thread
  thr3 : Thread
  lm : List Host.Cell
  /-- 8 B local-memory words that read as uncorrectable (19 R484) -/
  lmBad : List Nat
  /-- bit-variable store by 64-bit word -/
  bits : Map Word
  rope : Map Word
  lmslice : BitVec 4
  idleEn : Bool
  idleDelay : BitVec 16
  /-- pace count at which the core became idle-stuck -/
  idleSince : Option Nat
  mx : Matrix
  caches : Caches
  mmu : Mmu
  hod : Map HodRing
  /-- ring that the hod served last (13 R355) -/
  hodTurn : Fin 4
  ends : Map Endpoint
  comparators : List Comparator
  dbg : CoreDebug
  ccwdEn : Bool
  ccwdPeriod : BitVec 16
  /-- always-on count at which the control-core watchdog was last restarted -/
  ccwdSince : Nat
  /-- synchronisation units this core knows to be lost (19 Table 19.10) -/
  lostUnits : List Nat
  /-- always-on counts of recent lock-ups (19 R492) -/
  lockups : List Nat
  /-- flagged-packet windows of the channel streams: thread, destination, window, count (12 R327) -/
  streams : List (Nat × Nat × BitVec 16 × Nat)
  /-- always-on count at which a core reset's stretch ends (21 R524) -/
  resetEnds : Option Nat
  deriving DecidableEq, Repr

/-! ### Synchronisation units (05, 15) -/

/-- A lock (05 R143, Table 5.8). -/
structure Lock where
  owner : Option Nat
  waiters : List Nat
  orphan : Bool
  err : Bool
  gseq : BitVec 32
  deriving DecidableEq, Repr

/-- A barrier of a unit (15 Tables 15.6 to 15.8). -/
structure Barrier where
  gen : BitVec 16
  lcount : Nat
  gcount : Nat
  count : Nat
  err : Bool
  fwd : Bool
  arrived : BitVec 64
  waiting : BitVec 64
  /-- arrivals whose core has been reset since: they stay counted, and draw no notice (R394) -/
  departed : BitVec 64
  scope : BitVec 2
  lexp : BitVec 7
  total : BitVec 13
  gdev : BitVec 9
  maskLo : Word
  maskHi : Word
  deriving DecidableEq, Repr

/-- A watch entry of a unit (15 R395, R396). -/
structure Watch where
  site : Nat
  thr : Fin 4
  handle : Nat
  target : Nat
  cond : Word
  /-- pace count at which LIMIT ends it -/
  due : Option Nat
  deriving DecidableEq, Repr

/-- One synchronisation unit. -/
structure SyncUnit where
  inService : Bool
  epoch : BitVec 8
  pace : Word
  ratio : BitVec 16
  /-- the pace count at the start of the RATIO window (R402) -/
  paceMark : Word
  locks : Map Lock
  bars : Map Barrier
  watches : Map Watch
  noslot : BitVec 32
  /-- the designated unit has been lost (R590) -/
  desigLost : Bool
  /-- the manager's designated unit has been lost (R590) -/
  groupLost : Bool
  deriving DecidableEq, Repr

/-! ### Memory attach nodes and gather-reduce units (11) -/

/-- A request that a gather-reduce unit has accepted (11 R307): its requester, the tag that its status returns, its level, whether it
came marked CE, and its status so far. -/
structure GruRequest where
  dev : Nat
  site : Nat
  ring : Fin 4
  tag : Nat
  strm : Nat
  lvl : Level
  ce : Bool
  status : Nat
  deriving DecidableEq, Repr

/-- One memory attach node. -/
structure HbmNode where
  fenced : Bool
  temp : BitVec 8
  reason : BitVec 8
  height : BitVec 4
  dens : BitVec 8
  inService : Bool
  /-- PCp, 7 where unlisted -/
  pc : Map (BitVec 4)
  /-- spare rows used in each pseudo-channel -/
  sparesUsed : Map Nat
  ue : BitVec 16
  ce : BitVec 32
  errV : Bool
  errAddr : Nat
  period : BitVec 16
  /-- sectors with corrected errors since start, and rows redirected to a spare, by device address -/
  corrected : List Nat
  redirected : List (Nat × Nat)
  /-- the pseudo-channel a migration copies from and its copy point -/
  migrating : Option (Nat × Nat)
  /-- which pseudo-channel's place the reserve has taken -/
  reserveFor : Option Nat
  /-- the pseudo-channel whose place a switch gave to the reserve, and the sectors rewritten since (11 R297) -/
  switched : Option Nat
  fresh : List Nat
  scrubRow : Nat
  refresh2 : Bool
  halfRate : Bool
  gruFused : Bool
  gruFenced : Bool
  /-- isolated by kiln (22 R551) -/
  gruIsolated : Bool
  gru : Enable
  /-- accepted requests, oldest first -/
  gruQueue : List GruRequest
  deriving DecidableEq, Repr

/-! ### Routers and packets (12) -/

/-- What a load, store, AMO or line transfer asks for. -/
inductive MemOp where
  | load (bytes : Nat)
  | store (data : List Byte)
  | amo (op : Fin 10) (bytes : Nat) (b c : Word)
  /-- a line write-back: the line's bytes and its byte enables -/
  | writeBack (data : BitVec 512) (enables : BitVec 64)
  /-- a 64 B line fill for the instruction cache (`true`) or a data cache -/
  | fill (instr : Bool)
  deriving DecidableEq, Repr

/-- How a request ended. -/
inductive MemResult where
  /-- the bytes read or the old value -/
  | data (v : Word)
  /-- a line, with a mask of its bytes in uncorrectable units -/
  | line (v : BitVec 512) (bad : BitVec 64)
  /-- bytes for a hod, with the addresses of those in uncorrectable units -/
  | bytes (v : List Byte) (bad : List Nat)
  | done
  /-- the bytes read, with an uncorrectable error at this address (08 R222) -/
  | poisoned (v : Word) (at_ : Nat)
  /-- an exception code of Table 8.6 raised by the target -/
  | fault (code : Nat) (at_ : Nat)
  deriving DecidableEq, Repr

/-- What a packet carries. The requester of a memory access is a thread of a site; requests from links carry their
device. -/
inductive Body where
  | memReq (req : Nat) (thr : Fin 4) (op : MemOp)
  | memReply (req : Nat) (thr : Fin 4) (res : MemResult)
  | lockReq (lock : Nat) (thid : Nat) (thr : Fin 4)
  | unlock (lock : Nat) (thid : Nat) (thr : Fin 4)
  | grant (lock cluster : Nat) (orphan : Bool) (thid : Nat) (gseq : BitVec 32) (thr : Fin 4)
  | ownerReset (site : Nat)
  | streamReset (site : Nat)
  | unitLost (cluster : Nat)
  | arrive (bar : Nat) (gen : BitVec 16) (any wait : Bool) (thr : Fin 4)
  | combined (bar cluster n : Nat)
  | deviceArrival (bar : Nat) (dev : Nat)
  | release (bar : Nat) (gen : BitVec 16)
  /-- a group release on its way to a device's designated unit -/
  | groupRelease (bar : Nat) (gen : BitVec 16)
  /-- a device-mask multicast on its way to a port (17 R444) -/
  | devMulti (mask : BitVec 512) (inner : Body)
  | notice (cluster bar : Nat) (gen : BitVec 16) (status : Nat) (waiters barA : BitVec 4)
  | watchReg (handle target : Nat) (cond : Word) (thr : Fin 4)
  | unwatch (target : Nat) (thr : Fin 4)
  | watchMsg (status : Nat) (value : BitVec 32) (handle : Nat) (thr : Fin 4)
  | wordMatch (entry : Nat) (value : BitVec 32)
  | chanReq (endp seq : Nat) (thr : Fin 4) (thid : Nat) (data : List Byte) (tok : Option (Nat × Nat))
  | chanReply (endp tok seq : Nat) (thr : Fin 4) (thid : Nat) (data : List Byte)
  /-- the answers to a message: its number at the sender, and the TAG copied from it (14 Table 14.10) -/
  | chanAck (seq tag : Nat) (thr : Fin 4)
  | chanNack (seq tag : Nat) (thr : Fin 4) (reason : Nat)
  | hodRead (ring : Fin 4) (tag bytes : Nat)
  | hodData (ring : Fin 4) (tag : Nat) (res : MemResult)
  | hodWrite (ring : Fin 4) (tag : Nat) (data : List Byte)
  | hodAck (ring : Fin 4) (tag : Nat) (res : MemResult)
  /-- part of a gather-reduce request: the offset of its bytes in the request, and the request's length -/
  | gruReq (ring : Fin 4) (tag off total : Nat) (data : List Byte)
  | gruStatus (ring : Fin 4) (tag : Nat) (status : Nat)
  /-- UNREACHABLE (12 R331), for the request it answers -/
  | unreachable (orig : Body)
  /-- STRBUSY (12 R329), for the packet with this number, with the TAG copied from it -/
  | strbusy (of tag : Nat)
  | eventSet (thr : Fin 4) (bits : BitVec 32)
  /-- a collective chunk: upward or downward, errored, its CSEQ and number -/
  | coll (up err : Bool) (cseq : BitVec 16) (chunk : Nat) (data : List Byte)
  | errRec (rec_ : List Word)
  | hostMsg (opc : Nat) (data : List Byte)
  | imgPacket (opc : Nat) (data : List Byte)
  | other (opc : Nat) (data : List Byte)
  deriving DecidableEq, Repr

/-- A packet in a device's mesh (12 Table 12.3): its header fields, its body, and the router that holds it. -/
structure Packet where
  id : Nat
  cls : Nat
  mc : Option (BitVec 128)
  ord : Bool
  ce : Bool
  ece : Bool
  lvl : Level
  ddev : Nat
  dsite : Nat
  sdev : Nat
  ssite : Nat
  strm : Nat
  seq : BitVec 16
  addr : Nat
  cnt : Nat
  esc : Bool
  hops : Nat
  body : Body
  /-- the site of the router that holds it -/
  at_ : Nat
  /-- the port of Table 12.1 by which it came into that router -/
  inPort : Nat := 0
  /-- handed to the attachment (for a stream packet, after R328) -/
  delivered : Bool
  /-- the header that came over a link breaks 12 R315: a reserved class, a zero field that is set, or a wrong LEN -/
  hdrBad : Bool := false
  /-- header word 3 of a request translated for the host (17 R455); 0 in the mesh -/
  haddr : Nat := 0
  deriving DecidableEq, Repr

/-- The stream counter key of 12 R328: SDEV, SSITE, STRM, SEQ. -/
abbrev StreamKey := Nat × Nat × Nat × BitVec 16

/-- One router. -/
structure Router where
  inService : Bool
  gate : Enable
  /-- LNKp of port p: 0 absent, 1 up, 2 replaying, 3 down -/
  link : Map (BitVec 2)
  hmax : BitVec 7
  mark : BitVec 4
  adapt : BitVec 4
  rate : Nat
  minrate : BitVec 8
  recov : BitVec 16
  tbl : BitVec 2
  idx : BitVec 11
  siteTable : Map (BitVec 16)
  devTable : Map (BitVec 16)
  mcTable : Map (BitVec 16)
  counters : List (StreamKey × Nat)
  /-- flagged packets waiting in fence slots, by packet number -/
  slots : List Nat
  busy : BitVec 32
  crcerr : BitVec 32
  downs : BitVec 16
  /-- failed replays in a row on each port -/
  replays : Map Nat
  /-- flits sent in a row at an output while a REQ, FWD or MGMT flit waited for it, by port × 8 + class (12 R319) -/
  waited : Map Nat
  /-- stream packets of this site that a router refused, kept for resending: the pace count from which STRBUSY lets them be sent
  again, once it has arrived (12 R329) -/
  resend : List (Packet × Option Nat)
  deriving DecidableEq, Repr

/-! ### Gofin ports (16) -/

/-- LNK_STAT.STATE (16 Table 16.6). -/
inductive LinkState where
  | off | detect | ctlup | measure | exchange | dtrain | dcheck | active | sleep | recover | draining | mismatch | failed
  deriving DecidableEq, Repr

/-- A flit of a link before its CRC (16 R412, R415): header words, the second 0 on the control link, and body. -/
structure Flit where
  w0 : Word
  w1 : Word
  body : List Byte
  deriving DecidableEq, Repr

/-- A sequenced flit in the replay buffer (16 R419), and the packet whose bytes it carries, none for host control. -/
structure SentFlit where
  seq : BitVec 16
  flit : Flit
  pkt : Option Packet
  deriving DecidableEq, Repr

/-- A packet that waits at a port, and how many of its flits have been sent. -/
structure Queued where
  pkt : Packet
  sent : Nat
  deriving DecidableEq, Repr

/-- What has come of a packet that is not complete (16 R413, R414, R417): its bytes, the credit pools of the flits that hold them, and DDEV
of the flit in which it began. -/
structure Partial where
  bytes : List Byte
  pools : List Nat
  ddev : Nat
  deriving DecidableEq, Repr

/-- The sequence state of one link of a port (16 R419 to R421). -/
structure LinkSeq where
  /-- number of the next sequenced flit to send -/
  sendNext : BitVec 16
  /-- last number the partner acknowledged, once it has acknowledged one -/
  acked : Option (BitVec 16)
  /-- last number accepted from the partner -/
  accepted : Option (BitVec 16)
  nakSent : Bool
  /-- consecutive replays with no advance -/
  replays : Nat
  /-- credits held, by credit class -/
  credits : Map Nat
  /-- credits to return to the partner, by credit class -/
  owed : Map Nat
  /-- packets received and not complete, by credit class, under class + 16 where a device mask leads them -/
  partials : Map Partial
  deriving DecidableEq, Repr

/-- A link-management request awaiting its answer (16 Table 16.7). -/
inductive LmRequest where
  | cap
  | spare (lane : Nat) (period : BitVec 32)
  | pwr (sleep : Bool)
  | meas (pair n : Nat)
  deriving DecidableEq, Repr

/-- One Gofin port. -/
structure Port where
  present : Bool
  fenced : Bool
  isolated : Bool
  ctl : Enable
  serthr : BitVec 16
  sleepReq : Bool
  state : LinkState
  lastFail : BitVec 4
  attempts : Nat
  spTx : BitVec 4
  spRx : BitVec 4
  spBad : Bool
  shared : BitVec 16
  rt : BitVec 12
  partner : Map Word
  len : Map (BitVec 16)
  /-- sums of the lengths measured so far in 0.1 m units, and their number, by lane pair -/
  samples : Map (Nat × Nat)
  corr : BitVec 32
  uncorr : BitVec 31
  crcErr : BitVec 24
  replays : BitVec 16
  spares : BitVec 8
  retrains : BitVec 8
  downs : BitVec 7
  data : LinkSeq
  ctrl : LinkSeq
  /-- packets waiting to be sent, oldest first, and the replay buffers of the data and the control link -/
  queue : List Queued
  sent : List SentFlit
  ctrlSent : List SentFlit
  /-- host-control messages waiting to be sent, oldest first -/
  hctl : List (List Byte)
  /-- flits sent on the data and the control link, newest first -/
  dataOut : List Flit
  ctrlOut : List Flit
  /-- data flits through which a class has waited at the output, by credit class (12 R319, 16 R422) -/
  waited : Map Nat
  /-- lane heard at each receive position from 13 on, by position (16 R408, R425) -/
  order : Map Nat
  /-- always-on count of the DCHECK that synchronised the codeword counters (16 R409) -/
  cwSince : Option Nat
  lm : List LmRequest
  /-- LM messages sent, newest first (code and body) -/
  lmOut : List (Nat × List Byte)
  /-- RECOVER or a wake has finished its DTRAIN -/
  recTrained : Bool
  /-- DTRAIN and DCHECK are those of a wake (16 R432) -/
  waking : Bool
  /-- the replay buffer was emptied during RECOVER (19 R501) -/
  recDiscarded : Bool
  capSeen : Bool
  capAcked : Bool
  /-- CTLUP and later: the control lane is locked -/
  ctlLock : Bool
  bind : Nat
  bindDev : Nat
  bindPort : Nat
  bindEn : Bool
  deriving DecidableEq, Repr

/-! ### Device blocks (10, 17 to 23) -/

/-- TOP_PACEn (01 Table 1.3). -/
structure Pace where
  max : BitVec 16
  min : BitVec 16
  rate : BitVec 16
  upd : BitVec 8
  deriving DecidableEq, Repr

/-- The topology block (10) and the feature fields (00 Table 0.3). -/
structure Top where
  part : BitVec 8
  stepping : BitVec 8
  cores : BitVec 11
  mgr : Bool
  hbridge : Bool
  hbm : BitVec 5
  ports : BitVec 5
  ctrlc : BitVec 5
  gru : BitVec 7
  role : BitVec 2
  devid : BitVec 9
  gen : BitVec 32
  stackMap : BitVec 24
  ccMap : BitVec 16
  portMap : BitVec 16
  gruMap : BitVec 96
  siteMap : Map (BitVec 2)
  /-- the site tables from which the controller last computed the distance tables, by router (10 R282, R283) -/
  distTables : Map (Map (BitVec 16))
  l2s : Map (BitVec 16)
  s2l : Map (BitVec 16)
  pace : Map Pace
  deriving DecidableEq, Repr

/-- A collective descriptor in force (17 Table 17.2). -/
structure CollDesc where
  src : Nat
  dst : Nat
  count : Nat
  op : Nat
  fmt : Nat
  evb : BitVec 5
  cseq : BitVec 16
  evthid : Nat
  deriving DecidableEq, Repr

/-- One collective engine (17 R447 to R452). -/
structure Engine where
  state : BitVec 2
  status : BitVec 8
  cseq : BitVec 16
  chunks : Nat
  desc : Option CollDesc
  /-- UP chunks held: child device, CSEQ, chunk, values, error -/
  ups : List (Nat × BitVec 16 × Nat × List (BitVec 32) × Bool)
  /-- chunks sent UP, or emitted DOWN by the root -/
  sentUp : Nat
  /-- DST chunks written and not acknowledged -/
  dstWait : List Nat
  errored : Bool
  fenced : Bool
  isolated : Bool
  deriving DecidableEq, Repr

/-- The GRP_ block (17 Tables 17.5 to 17.18). -/
structure Grp where
  gid : BitVec 32
  ndev : BitVec 9
  inlvl : Level
  inref : BitVec 32
  spoof : BitVec 16
  ureach : Map Word
  inacc : Map Word
  peer : Map Word
  gmct : Map Word
  tree : Map Word
  children : Map (List Nat)
  bdmask : Map Word
  hctl : Enable
  hlvl : Level
  refin : BitVec 16
  refout : BitVec 16
  dbdrop : BitVec 16
  hreach : Map Word
  hwin : Map Word
  haddr : Map Word
  /-- requests through the bridge that await their reply: requester's device, site, STRM and TAG -/
  bridge : List (Nat × Nat × Nat × Nat)
  /-- HCTL messages sent to the host, newest first -/
  hctlOut : List (List Byte)
  engines : Map Engine
  deriving DecidableEq, Repr

/-- IMG_STAT.STATE. -/
inductive ImgState where
  | idle | awaiting | loading | staged | draining | drained | applying | applied | undraining
  deriving DecidableEq, Repr

/-- A unit that the loader drains (18 Table 18.7). -/
inductive Drained where
  | gate (site : Nat)
  | gru (node : Nat)
  | port (n : Nat)
  deriving DecidableEq, Repr

/-- The image loader (18) and the parts of the running image that are not tables of another unit. -/
structure Img where
  state : ImgState
  last : BitVec 8
  sect : BitVec 8
  enign : Bool
  owner : Bool
  src : Nat
  lim : BitVec 16
  serial : Word
  meas : BitVec 256
  staging : List Host.Cell
  /-- bytes staged from the start of the staging memory -/
  stagedLen : Nat
  held : List Drained
  drainSince : Nat
  /-- RUN is in progress -/
  run : Bool
  /-- a structure image runs -/
  present : Bool
  enable : BitVec 2048
  express : BitVec 1920
  bondE : BitVec 2048
  bondS : BitVec 2048
  desig : Nat
  /-- COLL tree ports of each router: site × 8 + byte (18 TREES) -/
  trees : Map Byte
  ring : Map Byte
  ilv : Map Word
  /-- NBASE of node k and region r under 32k + r -/
  nbase : Map (BitVec 32)
  reserve : Map Byte
  /-- LNK_CTL.EN of each bound port (18 PORTS byte 5) -/
  portEn : BitVec 16
  /-- reports of workers, newest first: device, CMD, LAST, STATE, SERIAL; and their acknowledgements: device, status -/
  reports : List (Nat × BitVec 8 × BitVec 8 × BitVec 8 × Word)
  acks : List (Nat × BitVec 8)
  deriving DecidableEq, Repr

/-- What the management controller has put off during a restart (19 R497). -/
inductive Deferred where
  | fence (kind unit : Nat) (detail : Nat)
  | record (r : List Word)
  | forwarded (r : BitVec 512)
  deriving DecidableEq, Repr

/-- The management controller (19, 24 Table 24.5). -/
structure Mgt where
  rlog : BitVec 4
  base : Nat
  en : Bool
  qerr : Bool
  dropped : BitVec 32
  prod : BitVec 32
  cons : BitVec 32
  fwd : BitVec 6
  noteThid : BitVec 13
  tmo : BitVec 17
  oe : BitVec 4
  out : BitVec 4
  pinmap : BitVec 8
  modid : BitVec 4
  fmode : Bool
  /-- error records raised and not yet appended (source kind, class, code, site, unit, count, address, detail) -/
  raised : List (List Nat)
  /-- class-0 rate limits: code, site, unit, count at which the period began, occurrences held -/
  limited : List (List Nat)
  restarting : Bool
  /-- always-on count at which the restart under way began (21 R524) -/
  restartAt : Nat
  deferred : List Deferred
  /-- always-on counts at which links of a router were marked down -/
  linkDowns : List (Nat × Nat)
  mwdSince : Nat
  /-- ERR bits to be set when a core leaves reset -/
  errAfterReset : List Nat
  /-- units the health view holds out of service: kind and instance of MGT_FENCE -/
  fenced : List (Nat × Nat)
  ccFail : List (Nat × Nat)
  /-- stacks above 95 °C, of which the controller has been alerted (11 Table 11.2) -/
  hotStacks : List Nat
  deriving DecidableEq, Repr

/-- Security fuses and the SEC_ block (20). -/
structure Sec where
  lc : BitVec 4
  svn : BitVec 64
  ownkh : BitVec 256
  ownreq : Bool
  dbgen : Bool
  idpriv : BitVec 256
  idgen : Bool
  revoke : Bool
  kill : Bool
  /-- SEC_LC.STATE: the state in which the device started -/
  state : BitVec 4
  svnr : BitVec 8
  owncs : Bool
  idblk : Bool
  dbg : BitVec 2
  busy : Bool
  result : BitVec 8
  cmd : BitVec 4
  fails : BitVec 4
  count : BitVec 8
  src : BitVec 5
  fwmeas : BitVec 256
  /-- FUSEMEAS, formed at start (20 R512, R519) -/
  fuseMeas : BitVec 256
  idpub : BitVec 512
  challenge : Option (BitVec 256)
  ownerKeys : Map (BitVec 256)
  unlockSeen : Bool
  alarmSeen : Bool
  deriving DecidableEq, Repr

/-- How far a start has come (21 R529). -/
inductive StartPhase where
  | off
  /-- held in a device reset or its stretch -/
  | reset
  /-- the stretch is over; rails or clock-good detectors are awaited -/
  | waiting
  | running
  deriving DecidableEq, Repr

/-- The reset sequencer (21). -/
structure Rst where
  src : BitVec 8
  also : BitVec 16
  detail : BitVec 8
  failcnt : BitVec 4
  recovery : Bool
  bootdone : Bool
  opterr : Bool
  optsrc : BitVec 2
  /-- island groups released under FORCE (R531) -/
  forceHbm : Bool
  forceSds : Bool
  cghbm : Bool
  cgsds : Bool
  cgmgt : Bool
  opt : Map Byte
  otp : Map Byte
  bkp : Map (BitVec 32)
  sram : List Host.Cell
  /-- the boot flash, by complemented bytes: a byte that nothing has programmed is 0xFF -/
  flash : List Host.Cell
  phase : StartPhase
  /-- reset sources in progress, and the always-on count at which the stretch ends -/
  sources : List Nat
  stretchEnd : Option Nat
  /-- always-on count from which "since start" counts -/
  startMark : Nat
  /-- counts of the start budget used, and the count from which it runs (`none`: suspended or over) -/
  budgetUsed : Nat
  budgetSince : Option Nat
  /-- a refused firmware image makes the next start a recovery start -/
  recoverNext : Bool
  /-- MACH load address of the running firmware -/
  entry : Word
  /-- the firmware memory of the management island -/
  fw : List Host.Cell
  fwLen : Nat
  /-- rails that have become good in the order of the ramp (R529) -/
  railsUp : Nat
  powerGood : Bool
  /-- count at which RESET_N was last released -/
  releasedAt : Nat
  thermTrip : Bool
  /-- islands held in reset after a reference-clock failure -/
  islandsHeld : Bool
  /-- records to append at the next start -/
  pendingCause : Option (BitVec 8)
  /-- what stack measurement and kiln found at this start -/
  meas : StartMeas
  deriving DecidableEq, Repr

/-- One half-domain's power state (21 Table 21.12). -/
structure Rail where
  tj : BitVec 8
  duty : BitVec 8
  vset : BitVec 16
  vmeas : BitVec 16
  /-- powered off by a partial image -/
  off : Bool
  /-- the warning limit holds -/
  limited : Bool
  deriving DecidableEq, Repr

/-- The power controller (21). -/
structure Pwr where
  plim : BitVec 16
  slew : BitVec 16
  throt : BitVec 8
  wevb : BitVec 3
  thr : BitVec 8
  hwarn : BitVec 8
  swarn : Bool
  bwarn : Bool
  mwarn : Bool
  iwarn : Bool
  draw : BitVec 16
  ballast : BitVec 16
  vin : BitVec 16
  /-- management, HBM and SerDes rails in mV -/
  islandRails : Map (BitVec 16)
  inputLimited : Bool
  /-- rails of Table 21.4 below the level at which their warning clears -/
  low : List Nat
  rails : Map Rail
  deriving DecidableEq, Repr

/-- Kiln (22). -/
structure Kln where
  state : BitVec 2
  last : BitVec 8
  slice : BitVec 16
  lost : BitVec 16
  disabled : BitVec 16
  /-- log entries, first to last: SLICE, RESULT, PHASE, DETAIL, AOC -/
  log : List (Nat × Nat × Nat × Nat × Nat)
  /-- always-on count at which the slice under test was isolated -/
  since : Nat
  /-- fused repairs: slice, repair -/
  fuses : List (Nat × Repair)
  soft : List (Nat × Repair)
  /-- slices disabled at the last start -/
  off : List Nat
  deriving DecidableEq, Repr

/-- The I3C target, the TAP and the boundary lands (23, 24). -/
structure Io where
  /-- response frame that waits to be read -/
  response : Option (List Byte)
  /-- a register access that waits for an accumulator (R571): the command's TAG, address, value -/
  running : Option (Nat × Nat × Option Word)
  resetPending : Bool
  ibi : Option Byte
  sensors : Map (BitVec 32 × Nat)
  ir : BitVec 8
  /-- what IDCODE shifts out -/
  captured : BitVec 32
  accStatus : BitVec 4
  accData : Word
  accHeld : Option (Nat × Option Word)
  scanSel : Option Nat
  boundary : BitVec 40
  tamperLow : Bool
  resetLow : Bool
  deriving DecidableEq, Repr

/-- The whole device, the commands that wait for it, and the model's own free-value counter. -/
structure State where
  /-- commands waiting, first in first out -/
  pending : List Instr
  /-- the model's own: how many free values have been drawn -/
  freeCtr : Nat
  /-- always-on counts since start (00 Table 0.7) -/
  aoc : Nat
  cores : Map Core
  units : Map SyncUnit
  nodes : Map HbmNode
  routers : Map Router
  ports : Map Port
  hbm : List Host.Cell
  /-- HBM sectors (by device address / 32) that read as uncorrectable -/
  hbmBad : List Nat
  packets : List Packet
  nextPkt : Nat
  /-- next request number -/
  nextReq : Nat
  top : Top
  grp : Grp
  img : Img
  mgt : Mgt
  sec : Sec
  rst : Rst
  pwr : Pwr
  kln : Kln
  io : Io
  deriving DecidableEq, Repr

/-! ### How a run can stop -/

/-- The stops of the model. -/
inductive Fault where
  /-- Raised by every command that names a site, a unit or a thread which the device does not have there by its fixed
  geometry (01 Table 1.2): a word of a site that holds no core, a control-core event of a core. SAFE: the device has no
  such unit, so no behaviour of it is left out. -/
  | noAgent
  deriving DecidableEq, Repr

/-- What the model turns away. -/
inductive Refusal where
  /-- Raised only by an arm of `exec` whose command has no meaning yet, under the command's mnemonic. SAFE. -/
  | notModelled (mnemonic : String)
  deriving DecidableEq, Repr

/-! ### Reset values -/

def Status.reset : Status := ⟨false, false, false, false, false, .machine, .machine⟩

/-- Start of thread `t`'s private slice at the reset slice size, in 128 B units (05 R134, Table 5.5). -/
def sliceStart (size : BitVec 4) (t : Nat) : BitVec 14 := BitVec.ofNat 14 (t * size.toNat * 256)

def Window.reset (t : Fin 4) : Window := ⟨0, 0, sliceStart 8 t, sliceStart 8 t, sliceStart 8 t⟩

def ExcRegs.reset : ExcRegs :=
  { epc := 0, ecause := 0, eaddr := 0, progress := 0, event := 0, evmask := 0, sdeleg := 0, svec := 0, mvec := 0,
    sstk := 0, mstk := 0, gtab := 0, depc := 0, dcause := 0, deaddr := 0, dfstk := 0 }

/-- A window register with LSZ 12 and everything else 0 (08 Table 8.5). -/
def windowRegReset : Word := 12#64 <<< 50

def Reach.reset (t : Fin 4) : Reach :=
  { gbase := sliceStart 8 t, glimit := sliceStart 8 t, mrange := windowRegReset, uwin := [] }

def FpRegs.reset : FpRegs :=
  { fpcsr := 0, srseed := 1, ropeidx := 0, tsel := 0, tpend0 := 0, tpend1 := 0 }

/-- cs.chcfg at reset (14 Table 14.9): RETRY 16, NEVB 16, RUNITS 15. -/
def chcfgReset : Word := (16#64 <<< 32) ||| (16#64 <<< 24) ||| 15#64

def ThreadComm.reset : ThreadComm :=
  { chcfg := chcfgReset, chsbidx := 0, sendBuf := [], sends := [], blocking := none, nextSeq := 0, syncev := 16,
    watches := [], watchOrder := 0, bara := [], lockDue := none, held := [], lovf := false, lostSync := [] }

/-- Thread `t` of a core after core reset (05 R131): thread 0 holds the slot at the reset entry, the others are parked. -/
def Thread.reset (entry : Word) (t : Fin 4) : Thread :=
  { pc := entry, run := if t = 0 then .running else .parked, halted := false, stepOne := false, stepped := false,
    gregs := [], preds := 1, vregs := [], poisonG := [], poisonV := [], win := Window.reset t, status := Status.reset,
    exc := ExcRegs.reset, reach := Reach.reset t, fp := FpRegs.reset, comm := ThreadComm.reset, loads := [],
    stores := [], imprecise := none, mid := none, abandoned := 0, gateFetch := none, fetched := none }

def Acc.reset : Acc := ⟨0, false, false, [], []⟩

def Matrix.reset : Matrix :=
  { slots := [], accs := [], queue := [], latchA := none, latchB := none, replays := 0, fenced := false, spare := false,
    scol := 0, cols := 0 }

def Cache.reset : Cache := ⟨[], [], [], [], 0⟩
def Mmu.reset : Mmu := ⟨0, [], [], [], []⟩
def Caches.reset : Caches := ⟨Cache.reset, Cache.reset, Cache.reset, []⟩
def Enable.off : Enable := ⟨false, false, .off⟩

def HodRing.reset : HodRing :=
  { ctl := Enable.off, hdr := 0, lvl := .user, err := 0, perr := false, cred := 0, out := 0, take := 0, next := 0,
    rbase := 0, rlog := 0, evb := 0, cqbase := 0, seq0 := 0, active := [], streams := [] }

def Endpoint.reset : Endpoint :=
  { ctl := Enable.off, hdr := 0, minlvl := 0, ownt := 0, even := false, evb := 8, err := 0, rbase := 0, rlog := 0,
    prod := 0, cons := 0, nacks := 0, resv := 0, tokens := [], writing := 0 }

def CoreDebug.reset : CoreDebug :=
  { dbgsel := 0, trcctl := (4#64 <<< 44) ||| 0x100000#64, trclost := 0, trcprod := 0, pmsel := 0, pmcnt := [], pendHalt := 0,
    err := 0 }

/-- A core after core reset (05 R139), released at `entry`; its power state is the caller's. -/
def Core.reset (power : Power) (entry : Word) : Core :=
  { power := power, lastSlot := 0, thr0 := Thread.reset entry 0, thr1 := Thread.reset entry 1,
    thr2 := Thread.reset entry 2, thr3 := Thread.reset entry 3, lm := [], lmBad := [], bits := [], rope := [],
    lmslice := 8, idleEn := true, idleDelay := 0x40, idleSince := none, mx := Matrix.reset, caches := Caches.reset,
    mmu := Mmu.reset, hod := [], hodTurn := 3, ends := [], comparators := [], dbg := CoreDebug.reset, ccwdEn := false,
    ccwdPeriod := 0x100, ccwdSince := 0, lostUnits := [], lockups := [], streams := [], resetEnds := none }

def Lock.reset : Lock := ⟨none, [], false, false, 0⟩

def Barrier.reset : Barrier :=
  { gen := 0, lcount := 0, gcount := 0, count := 0, err := false, fwd := false, arrived := 0, waiting := 0, departed := 0, scope := 0,
    lexp := 0, total := 1, gdev := 1, maskLo := 0, maskHi := 0 }

def SyncUnit.reset : SyncUnit :=
  { inService := true, epoch := 0, pace := 0, ratio := 0, paceMark := 0, locks := [], bars := [], watches := [],
    noslot := 0, desigLost := false, groupLost := false }

def HbmNode.reset : HbmNode :=
  { fenced := false, temp := 0, reason := 0, height := 0, dens := 0, inService := false, pc := [], sparesUsed := [],
    ue := 0, ce := 0, errV := false, errAddr := 0, period := 0x64, corrected := [], redirected := [], migrating := none,
    reserveFor := none, switched := none, fresh := [], scrubRow := 0, refresh2 := false, halfRate := false, gruFused := true,
    gruFenced := false, gruIsolated := false, gru := ⟨true, false, .on⟩, gruQueue := [] }

def Router.reset : Router :=
  { inService := false, gate := ⟨true, false, .on⟩, link := [], hmax := 96, mark := 6, adapt := 4, rate := 256,
    minrate := 16, recov := 1024, tbl := 0, idx := 0, siteTable := [], devTable := [], mcTable := [], counters := [],
    slots := [], busy := 0, crcerr := 0, downs := 0, replays := [], waited := [], resend := [] }

def LinkSeq.reset : LinkSeq :=
  { sendNext := 0, acked := none, accepted := none, nakSent := false, replays := 0, credits := [], owed := [],
    partials := [] }

def Port.reset : Port :=
  { present := true, fenced := false, isolated := false, ctl := Enable.off, serthr := 0x400, sleepReq := false,
    state := .off, lastFail := 0, attempts := 0, spTx := 0xF, spRx := 0xF, spBad := false, shared := 0, rt := 0,
    partner := [], len := [], samples := [], corr := 0, uncorr := 0, crcErr := 0, replays := 0, spares := 0,
    retrains := 0, downs := 0, data := LinkSeq.reset, ctrl := LinkSeq.reset, queue := [], sent := [], ctrlSent := [],
    hctl := [], dataOut := [], ctrlOut := [], waited := [], order := [], cwSince := none, lm := [], lmOut := [], recTrained := false, waking := false, recDiscarded := false, capSeen := false, capAcked := false, ctlLock := false, bind := 0,
    bindDev := 0, bindPort := 0, bindEn := false }

def Pace.reset : Pace := ⟨0, 0, 0, 0⟩

def Top.reset : Top :=
  { part := 1, stepping := 0, cores := 0, mgr := true, hbridge := true, hbm := 0, ports := 0, ctrlc := 0, gru := 0,
    role := 0, devid := 0, gen := 0, stackMap := 0, ccMap := 0, portMap := 0, gruMap := 0, siteMap := [], distTables := [], l2s := [],
    s2l := [], pace := [] }

def Engine.reset : Engine :=
  { state := 0, status := 0, cseq := 0, chunks := 0, desc := none, ups := [], sentUp := 0, dstWait := [],
    errored := false, fenced := false, isolated := false }

def Grp.reset : Grp :=
  { gid := 0, ndev := 0, inlvl := .supervisor, inref := 0, spoof := 0, ureach := [], inacc := [], peer := [], gmct := [],
    tree := [], children := [], bdmask := [], hctl := Enable.off, hlvl := .supervisor, refin := 0, refout := 0, dbdrop := 0,
    hreach := [], hwin := [], haddr := [], bridge := [], hctlOut := [], engines := [] }

def Img.reset : Img :=
  { state := .idle, last := 0, sect := 0xFF, enign := false, owner := false, src := 0, lim := 0xFA, serial := 0,
    meas := 0, staging := [], stagedLen := 0, held := [], drainSince := 0, run := false, present := false, enable := 0,
    express := 0, bondE := 0, bondS := 0, desig := 0, trees := [], ring := [], ilv := [], nbase := [], reserve := [], portEn := 0,
    reports := [], acks := [] }

def Mgt.reset : Mgt :=
  { rlog := 0, base := 0, en := false, qerr := false, dropped := 0, prod := 0, cons := 0, fwd := 0x3E, noteThid := 7168,
    tmo := 65536, oe := 0, out := 0, pinmap := 0, modid := 0, fmode := false, raised := [], limited := [],
    restarting := false, restartAt := 0, deferred := [], linkDowns := [], mwdSince := 0, errAfterReset := [], fenced := [],
    ccFail := [], hotStacks := [] }

def Sec.reset : Sec :=
  { lc := 0, svn := 0, ownkh := 0, ownreq := false, dbgen := false, idpriv := 0, idgen := false, revoke := false,
    kill := false, state := 0, svnr := 0, owncs := false, idblk := false, dbg := 0, busy := false,
    result := 0, cmd := 0, fails := 0, count := 0, src := 0, fwmeas := 0, fuseMeas := 0, idpub := 0, challenge := none, ownerKeys := [],
    unlockSeen := false, alarmSeen := false }

def Rst.reset : Rst :=
  { src := 0, also := 0, detail := 0, failcnt := 0, recovery := false, bootdone := false, opterr := false, optsrc := 0,
    forceHbm := false, forceSds := false, cghbm := false, cgsds := false, cgmgt := false, opt := [], otp := [], bkp := [], sram := [],
    flash := [], phase := .off, sources := [], stretchEnd := none, startMark := 0, budgetUsed := 0, budgetSince := none,
    recoverNext := false, entry := 0, fw := [], fwLen := 0, railsUp := 0, powerGood := false, releasedAt := 0, thermTrip := false,
    islandsHeld := false, pendingCause := none, meas := ⟨[], [], []⟩ }

def Rail.reset : Rail := ⟨0, 128, 0, 0, false, false⟩

def Pwr.reset : Pwr :=
  { plim := 4200, slew := 500, throt := 100, wevb := 2, thr := 0, hwarn := 0, swarn := false, bwarn := false,
    mwarn := false, iwarn := false, draw := 0, ballast := 0, vin := 0, islandRails := [], inputLimited := false,
    low := [], rails := [] }

def Kln.reset : Kln :=
  { state := 1, last := 0, slice := 0, lost := 0, disabled := 0, log := [], since := 0, fuses := [], soft := [],
    off := [] }

def Io.reset : Io :=
  { response := none, running := none, resetPending := false, ibi := none, sensors := [], ir := 0xFF, captured := 0, accStatus := 0,
    accData := 0, accHeld := none, scanSel := none, boundary := 0, tamperLow := false, resetLow := false }

/-- The device before power arrives: every register at its reset value (00 R9 to R11), nothing in flight, no command waiting.
The values that the manual does not give are named in the assumption log (rows 1 to 7, 31 and 76). -/
def State.reset : State :=
  { pending := [], freeCtr := 0, aoc := 0, cores := [], units := [], nodes := [], routers := [], ports := [], hbm := [],
    hbmBad := [], packets := [], nextPkt := 0, nextReq := 0, top := Top.reset, grp := Grp.reset, img := Img.reset,
    mgt := Mgt.reset, sec := Sec.reset, rst := Rst.reset, pwr := Pwr.reset, kln := Kln.reset, io := Io.reset }

end Sys2Proof.Machine
end

