-- ==== Sys2Proof/Machine/Ops.lean ====
section
/-! DEFINITION. The named operations on plain data: bit fields, maps, byte memories, and the accessors of the units of the
device. -/

namespace Sys2Proof.Machine

open Sys2Proof

/-! ### Bit fields -/

/-- Field [hi:lo] of a word, as a number. -/
def fld (w : Word) (hi lo : Nat) : Nat := w.toNat / 2 ^ lo % 2 ^ (hi - lo + 1)

/-- Bit n of a word. -/
def bit (w : Word) (n : Nat) : Bool := w.getLsbD n

/-- A word holding `v` modulo the field's size in field [hi:lo] and 0 elsewhere. -/
def mk (hi lo v : Nat) : Word := BitVec.ofNat 64 (v % 2 ^ (hi - lo + 1) * 2 ^ lo)

/-- A word with one bit. -/
def bitAt (n : Nat) (b : Bool) : Word := if b then BitVec.ofNat 64 (2 ^ n) else 0

/-- Bit n of a number. -/
def boolBit (b : Bool) (n : Nat) : Nat := if b then 2 ^ n else 0

/-- The mask of field [hi:lo]. -/
def maskOf (hi lo : Nat) : Word := mk hi lo (2 ^ (hi - lo + 1) - 1)

/-- `w` with field [hi:lo] replaced by `v`. -/
def setFld (w : Word) (hi lo v : Nat) : Word := (w &&& ~~~ (maskOf hi lo)) ||| mk hi lo v

/-- `n` kept within a range (00 R11, clamp to nearest). -/
def clampNat (lo hi n : Nat) : Nat := if n < lo then lo else if hi < n then hi else n

/-- A number as a signed value of w bits. -/
def toSigned (w n : Nat) : Int := if n % 2 ^ w < 2 ^ (w - 1) then (n % 2 ^ w : Nat) else (n % 2 ^ w : Nat) - (2 ^ w : Nat)

/-- An immediate sign-extended to a word (04 R109). -/
def sext {w : Nat} (v : BitVec w) : Word := v.signExtend 64

/-- An immediate zero-extended to a word. -/
def zext {w : Nat} (v : BitVec w) : Word := v.setWidth 64

/-- Comparison of serial numbers of w bits (15 R405): a is before b, and exactly half the range counts as before. -/
def serialBefore (w a b : Nat) : Bool := let d := (b + 2 ^ w - a % 2 ^ w) % 2 ^ w; decide (0 < d) && decide (d ≤ 2 ^ (w - 1))

/-! ### Maps -/

/-- The entry of a number, or the default. -/
def mget {α : Type} : Map α → Nat → α → α
  | [], _, d => d
  | (j, v) :: r, k, d => if j = k then v else mget r k d

/-- The entry of a number, if listed. -/
def mfind {α : Type} : Map α → Nat → Option α
  | [], _ => none
  | (j, v) :: r, k => if j = k then some v else mfind r k

/-- The map with the entry of a number replaced; keys stay rising. -/
def mset {α : Type} : Map α → Nat → α → Map α
  | [], k, v => [(k, v)]
  | (j, w) :: r, k, v => if k < j then (k, v) :: (j, w) :: r else if j = k then (k, v) :: r else (j, w) :: mset r k v

/-- The map without a number. -/
def mdel {α : Type} (m : Map α) (k : Nat) : Map α := m.filter (fun e => e.1 != k)

/-! ### Byte memories: canonical lists of cells, an unlisted byte reads 0 (05 R139, 11 R287) -/

/-- What a byte that nothing has written reads as. -/
def Memory.unlisted : Byte := 0

/-- The canonical form: addresses strictly rising and no entry equal to what an unlisted address reads as. -/
def Memory.wf : List Host.Cell → Bool
  | [] => true
  | [c] => c.2 != Memory.unlisted
  | c :: d :: r => c.2 != Memory.unlisted && decide (c.1 < d.1) && Memory.wf (d :: r)

/-- One byte of a memory. -/
def Memory.read (m : List Host.Cell) (a : Nat) : Byte := mget m a Memory.unlisted

/-- A memory with one byte written. -/
def Memory.write (m : List Host.Cell) (a : Nat) (v : Byte) : List Host.Cell :=
  if v = Memory.unlisted then mdel m a else mset m a v

/-- `n` bytes from address `a`. -/
def Memory.readN (m : List Host.Cell) : Nat → Nat → List Byte
  | _, 0 => []
  | a, n + 1 => Memory.read m a :: Memory.readN m (a + 1) n

/-- The bytes written from address `a`. -/
def Memory.writeN (m : List Host.Cell) : Nat → List Byte → List Host.Cell
  | _, [] => m
  | a, b :: r => Memory.writeN (Memory.write m a b) (a + 1) r

/-- Little-endian value of bytes (02 R34). -/
def leNat : List Byte → Nat
  | [] => 0
  | b :: r => b.toNat + 256 * leNat r

/-- `n` little-endian bytes of a value. -/
def leBytes : Nat → Nat → List Byte
  | 0, _ => []
  | n + 1, v => BitVec.ofNat 8 v :: leBytes n (v / 256)

/-- Bytes `off` to `off + n - 1` of a list, as a number. -/
def leAt (bs : List Byte) (off n : Nat) : Nat := leNat ((bs.drop off).take n)

/-- A list with the bytes from `off` on replaced. -/
def patch (bs : List Byte) (off : Nat) (new : List Byte) : List Byte :=
  bs.take off ++ new ++ bs.drop (off + new.length)

/-! ### Units of the device -/

def getCore (s : State) (site : Nat) : Core := mget s.cores site (Core.reset .absent 0)
def setCore (s : State) (site : Nat) (c : Core) : State := { s with cores := mset s.cores site c }
def modCore (site : Nat) (f : Core → Core) (s : State) : State := setCore s site (f (getCore s site))

/-- One of the four threads of a core. -/
def coreThr (c : Core) (t : Fin 4) : Thread :=
  if t = 0 then c.thr0 else if t = 1 then c.thr1 else if t = 2 then c.thr2 else c.thr3

def coreSetThr (c : Core) (t : Fin 4) (th : Thread) : Core :=
  if t = 0 then { c with thr0 := th } else if t = 1 then { c with thr1 := th }
  else if t = 2 then { c with thr2 := th } else { c with thr3 := th }

def getThr (s : State) (site : Nat) (t : Fin 4) : Thread := coreThr (getCore s site) t
def modThr (site : Nat) (t : Fin 4) (f : Thread → Thread) (s : State) : State :=
  modCore site (fun c => coreSetThr c t (f (coreThr c t))) s

def getUnit (s : State) (k : Nat) : SyncUnit := mget s.units k SyncUnit.reset
def modUnit (k : Nat) (f : SyncUnit → SyncUnit) (s : State) : State := { s with units := mset s.units k (f (getUnit s k)) }
def getNode (s : State) (k : Nat) : HbmNode := mget s.nodes k HbmNode.reset
def modNode (k : Nat) (f : HbmNode → HbmNode) (s : State) : State := { s with nodes := mset s.nodes k (f (getNode s k)) }
def getRouter (s : State) (k : Nat) : Router := mget s.routers k Router.reset
def modRouter (k : Nat) (f : Router → Router) (s : State) : State :=
  { s with routers := mset s.routers k (f (getRouter s k)) }
def getPort (s : State) (k : Nat) : Port := mget s.ports k Port.reset
def modPort (k : Nat) (f : Port → Port) (s : State) : State := { s with ports := mset s.ports k (f (getPort s k)) }
def getEngine (s : State) (k : Nat) : Engine := mget s.grp.engines k Engine.reset
def modEngine (k : Nat) (f : Engine → Engine) (s : State) : State :=
  { s with grp := { s.grp with engines := mset s.grp.engines k (f (getEngine s k)) } }
def getPace (s : State) (h : Nat) : Pace := mget s.top.pace h Pace.reset
def modPace (h : Nat) (f : Pace → Pace) (s : State) : State :=
  { s with top := { s.top with pace := mset s.top.pace h (f (getPace s h)) } }
def getRail (s : State) (h : Nat) : Rail := mget s.pwr.rails h Rail.reset
def modRail (h : Nat) (f : Rail → Rail) (s : State) : State :=
  { s with pwr := { s.pwr with rails := mset s.pwr.rails h (f (getRail s h)) } }
def getRing (s : State) (site : Nat) (r : Fin 4) : HodRing := mget (getCore s site).hod r HodRing.reset
def modRing (site : Nat) (r : Fin 4) (f : HodRing → HodRing) (s : State) : State :=
  modCore site (fun c => { c with hod := mset c.hod r (f (mget c.hod r HodRing.reset)) }) s
def getEnd (s : State) (site x : Nat) : Endpoint := mget (getCore s site).ends x Endpoint.reset
def modEnd (site x : Nat) (f : Endpoint → Endpoint) (s : State) : State :=
  modCore site (fun c => { c with ends := mset c.ends x (f (mget c.ends x Endpoint.reset)) }) s

/-- A free value of w bits and the state that has used it (assumption log 1). -/
def drawFree (w : Nat) (s : State) : BitVec w × State := (Config.freeBits w s.freeCtr, { s with freeCtr := s.freeCtr + 1 })

/-- A level as cs.status codes it (08 R211). -/
def levelCode : Level → Nat
  | .user => 0
  | .supervisor => 1
  | .machine => 2

def levelOf (n : Nat) : Level := if n = 0 then .user else if n = 1 then .supervisor else .machine

/-- STATE code of an enable (19 R504). -/
def gateCode : Gate → Nat
  | .off => 0
  | .on => 1
  | .draining => 2

/-- The number of listed bits that are set. -/
def countBits (n : Nat) (f : Nat → Bool) : Nat := ((List.range n).filter f).length

/-- The first number below n that satisfies f. -/
def firstBit (n : Nat) (f : Nat → Bool) : Option Nat := (List.range n).find? f

/-- Fold over the numbers below n. -/
def foldN {α : Type} (n : Nat) (f : Nat → α → α) (a : α) : α := (List.range n).foldl (fun x i => f i x) a

end Sys2Proof.Machine
end

