-- ==== Sys2Proof/Machine/Encoding.lean ====
section
/-! DEFINITION. The words that threads fetch, read from their 64 bits (03 R63; 04 R104 to R119, Tables 4.1 to 4.17): the long word, the two
slots of a pair, their operand fields and every bit that must be zero. What the fields of a long word leave to its operation (which
registers must differ, which formats it accepts) its meaning checks. -/

namespace Sys2Proof.Machine

open Sys2Proof

/-! ### Fields of a long word (04 R107 to R109, Table 4.4) -/

def regAt (w : Word) (lo : Nat) : Reg := Fin.ofNat 32 (fld w (lo + 4) lo)
def dOf (w : Word) : Reg := regAt w 43
def aOf (w : Word) : Reg := regAt w 38
def bOf (w : Word) : Reg := regAt w 33
def cOf (w : Word) : Reg := regAt w 28
def slotAt (w : Word) (lo : Nat) : Fin 16 := Fin.ofNat 16 (fld w (lo + 3) lo)
def lgField (w : Word) : Fin 4 := Fin.ofNat 4 (fld w 53 52)
def imm24Of (w : Word) : BitVec 24 := w.setWidth 24
def imm32Of (w : Word) : BitVec 32 := w.setWidth 32

/-- A predicate field: the number in its low 3 bits, none where its upper 2 bits are not 0 (04 R107). -/
def predAt (w : Word) (lo : Nat) : Option PReg := if fld w (lo + 4) (lo + 3) = 0 then some (Fin.ofNat 8 (fld w (lo + 2) lo)) else none

/-- An operation whose other bits `hi` to `lo` must be 0 (04 R108). -/
def zeroed (w : Word) (hi lo : Nat) (i : Instr) : Option Instr := if fld w hi lo = 0 then some i else none

/-- The same, where the operation itself has been read with checks of its own. -/
def zeroAnd (w : Word) (hi lo : Nat) (i : Option Instr) : Option Instr := if fld w hi lo = 0 then i else none

/-- Formats LA and LI, with the fields that an operation has. -/
def la3 (w : Word) (k : Reg → Reg → Reg → Instr) : Option Instr := zeroed w 32 0 (k (dOf w) (aOf w) (bOf w))
def la2 (w : Word) (k : Reg → Reg → Instr) : Option Instr := zeroed w 37 0 (k (dOf w) (aOf w))
def laD (w : Word) (k : Reg → Instr) : Option Instr := zeroed w 42 0 (k (dOf w))
def laA (w : Word) (k : Reg → Instr) : Option Instr := zeroAnd w 47 43 (zeroed w 37 0 (k (aOf w)))
def laAB (w : Word) (k : Reg → Reg → Instr) : Option Instr := zeroAnd w 47 43 (zeroed w 32 0 (k (aOf w) (bOf w)))
def laPd (w : Word) (k : PReg → Reg → Reg → Instr) : Option Instr := (predAt w 43).bind (fun p => zeroed w 32 0 (k p (aOf w) (bOf w)))
def none0 (w : Word) (i : Instr) : Option Instr := zeroed w 47 0 i
def li (w : Word) (k : Reg → Reg → BitVec 24 → Instr) : Option Instr := zeroed w 37 24 (k (dOf w) (aOf w) (imm24Of w))
def liA (w : Word) (k : Reg → BitVec 24 → Instr) : Option Instr := zeroAnd w 47 43 (zeroed w 37 24 (k (aOf w) (imm24Of w)))

/-- An immediate shift count: bits [5:0], the others 0 (04 R109). -/
def liShift (w : Word) (k : Reg → Reg → BitVec 6 → Instr) : Option Instr := zeroed w 37 6 (k (dOf w) (aOf w) (w.setWidth 6))

/-! ### Addressing modes and vector fields (04 R110 to R114, Table 4.7) -/

/-- Format LM, by MODE. -/
def lm (w : Word) (k : AMode → Instr) : Option Instr :=
  zeroAnd w 32 26 (match fld w 25 24 with
    | 0 => zeroed w 37 33 (k (.base (aOf w) (imm24Of w)))
    | 1 => zeroed w 23 0 (k (.index (aOf w) (bOf w)))
    | 2 => zeroAnd w 37 33 (zeroed w 23 16 (k (.post (aOf w) (w.setWidth 16))))
    | _ => zeroed w 42 33 (k (.rel (imm24Of w))))

/-- Format LX: an AOP of Table 4.8. -/
def lx (w : Word) (k : Fin 10 → Reg → Reg → BitVec 24 → Reg → Reg → Instr) : Option Instr :=
  if h : fld w 27 24 < 10 then some (k ⟨fld w 27 24, h⟩ (dOf w) (aOf w) (imm24Of w) (bOf w) (cOf w)) else none

def vfOf (w : Word) : VFields :=
  { fmt := BitVec.ofNat 4 (fld w 27 24), rm := BitVec.ofNat 2 (fld w 23 22), sat := bit w 21, sa := bit w 20, sb := bit w 19,
    fmt2 := BitVec.ofNat 4 (fld w 18 15) }
def imm15Of (w : Word) : BitVec 15 := w.setWidth 15

/-- Format LV: operations without imm15, by the registers that they name. -/
def lv4 (w : Word) (k : VFields → Reg → Reg → Reg → Reg → Instr) : Option Instr := zeroed w 14 0 (k (vfOf w) (dOf w) (aOf w) (bOf w) (cOf w))
def lv3 (w : Word) (k : VFields → Reg → Reg → Reg → Instr) : Option Instr := zeroAnd w 32 28 (zeroed w 14 0 (k (vfOf w) (dOf w) (aOf w) (bOf w)))
def lv2 (w : Word) (k : VFields → Reg → Reg → Instr) : Option Instr := zeroAnd w 37 28 (zeroed w 14 0 (k (vfOf w) (dOf w) (aOf w)))

/-- Format LV with imm15. -/
def lv3i (w : Word) (k : VFields → Reg → Reg → Reg → BitVec 15 → Instr) : Option Instr :=
  zeroed w 32 28 (k (vfOf w) (dOf w) (aOf w) (bOf w) (imm15Of w))
def lv2i (w : Word) (k : VFields → Reg → Reg → BitVec 15 → Instr) : Option Instr := zeroed w 37 28 (k (vfOf w) (dOf w) (aOf w) (imm15Of w))
/-- d, a and c with imm15: b is unused. -/
def lvC (w : Word) (k : VFields → Reg → Reg → Reg → BitVec 15 → Instr) : Option Instr :=
  zeroed w 37 33 (k (vfOf w) (dOf w) (aOf w) (cOf w) (imm15Of w))
/-- VLD and VST: FMT, RM, SAT, SA, SB and FMT2 are 0 (06 R158; 04 R111, R112). -/
def lvMove (w : Word) (k : Reg → Reg → BitVec 15 → Instr) : Option Instr := zeroed w 37 15 (k (dOf w) (aOf w) (imm15Of w))

/-! ### The class tables (04 Tables 4.11 to 4.17) -/

def condOf : Nat → Cond
  | 0 => .eq | 1 => .ne | 2 => .lt | 3 => .ltu | 4 => .ge | _ => .geu

def decodeInt (c : Ctx) (w : Word) (op : Nat) : Option Instr :=
  match op with
  | 0x00 => la3 w (.add c) | 0x01 => la3 w (.sub c) | 0x02 => la3 w (.and c) | 0x03 => la3 w (.or c)
  | 0x04 => la3 w (.xor c) | 0x05 => la3 w (.andn c) | 0x06 => la3 w (.shl c) | 0x07 => la3 w (.shr c)
  | 0x08 => la3 w (.sar c) | 0x09 => la3 w (.mul c) | 0x0A => la3 w (.mulhs c) | 0x0B => la3 w (.mulhu c)
  | 0x10 => li w (.addi c) | 0x11 => li w (.andi c) | 0x12 => li w (.ori c) | 0x13 => li w (.xori c)
  | 0x14 => liShift w (.shli c) | 0x15 => liShift w (.shri c) | 0x16 => liShift w (.sari c)
  | 0x18 => la2 w (.mov c)
  | 0x19 => zeroed w 42 32 (.lil c (dOf w) (imm32Of w))
  | 0x1A => zeroed w 42 32 (.lih c (dOf w) (imm32Of w))
  | _ =>
    if 0x20 ≤ op && op ≤ 0x25 then laPd w (.cmp c (condOf (op - 0x20)))
    else if 0x28 ≤ op && op ≤ 0x2D then
      (predAt w 43).bind (fun p => zeroed w 37 24 (.cmpi c (condOf (op - 0x28)) p (aOf w) (imm24Of w)))
    else none

/-- Format LI with a bit-address offset of 17 bits: a predicate in d, or no d. -/
def bitPred (w : Word) (k : PReg → Reg → BitVec 17 → Instr) : Option Instr :=
  (predAt w 43).bind (fun p => zeroed w 37 17 (k p (aOf w) (w.setWidth 17)))
def bitOnly (w : Word) (k : Reg → BitVec 17 → Instr) : Option Instr := zeroAnd w 47 43 (zeroed w 37 17 (k (aOf w) (w.setWidth 17)))

def logicOf : Nat → LogicOp
  | 0 => .and | 1 => .or | 2 => .xor | _ => .andn

/-- Format LP. -/
def lp (w : Word) (k : PReg → PReg → PReg → Bool → Bool → Instr) : Option Instr :=
  (predAt w 43).bind (fun p => (predAt w 38).bind (fun q => (predAt w 33).bind (fun r =>
    zeroed w 30 0 (k p q r (bit w 32) (bit w 31)))))

def decodeBit (c : Ctx) (w : Word) (op : Nat) : Option Instr :=
  match op with
  | 0x00 => bitPred w (.bld c) | 0x01 => bitPred w (.bst c) | 0x02 => bitOnly w (.bset c) | 0x03 => bitOnly w (.bclr c)
  | 0x04 => bitOnly w (.btgl c) | 0x05 => bitPred w (.btas c) | 0x06 => bitPred w (.btac c)
  | 0x07 => zeroed w 3 0 (.bcomb c (logicOf (fld w 47 46)) (regAt w 41) (BitVec.ofNat 9 (fld w 40 32)) (regAt w 27)
      (BitVec.ofNat 9 (fld w 26 18)) (regAt w 13) (BitVec.ofNat 9 (fld w 12 4)))
  | 0x08 => zeroed w 37 11 (.bldw c (dOf w) (aOf w) (w.setWidth 11))
  | 0x09 => zeroed w 37 11 (.bstw c (dOf w) (aOf w) (w.setWidth 11))
  | 0x0A => zeroed w 31 17 (.bitscan c (dOf w) (aOf w) (w.setWidth 17) (bOf w) (bit w 32) 0)
  | 0x10 => lp w (.pand c) | 0x11 => lp w (.por c) | 0x12 => lp w (.pxor c) | 0x13 => lp w (.pandn c)
  | 0x18 => laD w (.movpg c) | 0x19 => laA w (.movgp c)
  | _ => none

def decodeMem (c : Ctx) (w : Word) (op : Nat) : Option Instr :=
  let lg := lgField w
  let d := dOf w
  match op with
  | 0x00 | 0x01 | 0x02 | 0x03 => lm w (.ld c lg d)
  | 0x04 | 0x05 | 0x06 | 0x07 => lm w (.ldu c lg d)
  | 0x08 | 0x09 | 0x0A | 0x0B => lm w (.st c lg d)
  | 0x10 | 0x11 | 0x12 | 0x13 => lm w (.ldl c lg d)
  | 0x14 | 0x15 | 0x16 | 0x17 => lm w (.ldlu c lg d)
  | 0x18 | 0x19 | 0x1A | 0x1B => lm w (.stl c lg d)
  | 0x20 | 0x21 | 0x22 | 0x23 => lm w (.ldg c lg d)
  | 0x24 | 0x25 | 0x26 | 0x27 => lm w (.ldgu c lg d)
  | 0x28 | 0x29 | 0x2A | 0x2B => lm w (.stg c lg d)
  | 0x2E => lx w (.amo c false) | 0x2F => lx w (.amo c true)
  | 0x32 => lx w (.amog c false) | 0x33 => lx w (.amog c true)
  | 0x38 => none0 w (.fenceLd c) | 0x39 => none0 w (.fenceSt c) | 0x3A => none0 w (.fenceAll c)
  | 0x40 => liA w (.cinv c) | 0x41 => liA w (.cwb c) | 0x42 => liA w (.cflush c)
  | 0x44 => none0 w (.cinvall c) | 0x45 => none0 w (.cflushall c)
  | 0x46 => liA w (.prefetch c) | 0x47 => laA w (.cwaylk c)
  | 0x48 => liA w (.iinv c) | 0x49 => none0 w (.iinvall c)
  | 0x50 | 0x51 | 0x52 | 0x53 => zeroed w 27 0 (.gather c lg d (aOf w) (bOf w) (cOf w) 0)
  | 0x58 => la3 w (fun d a b => .memfill c d a b 0)
  | _ => none

def decodeVec (c : Ctx) (w : Word) (op : Nat) : Option Instr :=
  match op with
  | 0x00 => lv3 w (.vadd c) | 0x01 => lv3 w (.vsub c) | 0x02 => lv3 w (.vmul c) | 0x03 => lv4 w (.vfma c)
  | 0x04 => lv3 w (.vmin c) | 0x05 => lv3 w (.vmax c) | 0x06 => lv2 w (.vabs c) | 0x07 => lv2 w (.vneg c)
  | 0x08 => lv3 w (.vand c) | 0x09 => lv3 w (.vor c) | 0x0A => lv3 w (.vxor c)
  | 0x0B => lv2i w (.vshl c) | 0x0C => lv2i w (.vshr c)
  | 0x10 => lv3i w (.vcmp c) | 0x11 => lv4 w (.vsel c)
  | 0x18 => lvC w (.vcvt c)
  | 0x19 => lvC w (fun f d a r => .vsplit c f d r a)
  | 0x20 => lv2 w (.vexp2 c) | 0x21 => lv2 w (.vrcp c) | 0x22 => lv2 w (.vrsq c)
  | 0x28 => lv3i w (.vsmax c)
  | 0x29 => some (.vssum c (vfOf w) (dOf w) (aOf w) (bOf w) (cOf w) (imm15Of w))
  | 0x2A => lv3i w (.vexpr c)
  | 0x30 => lvC w (fun f d a r => .vrope c f d r a)
  | 0x31 => lv3i w (.vcmask c) | 0x32 => lv3 w (.vpmask c)
  | 0x38 => lv3 w (.vperm c) | 0x39 => lv2 w (.vbcast c)
  | 0x3A => lv2 w (.vredsum c) | 0x3B => lv2 w (.vredmax c)
  | 0x3C => lv2i w (.vmovg c) | 0x3D => lv2i w (.vins c)
  | 0x40 => lvMove w (.vld c) | 0x41 => lvMove w (.vst c)
  | _ => none

def decodeCtl (c : Ctx) (w : Word) (op : Nat) : Option Instr :=
  match op with
  | 0x00 => zeroed w 47 26 (.br c (w.setWidth 26))
  | 0x01 => laA w (.brr c)
  | 0x02 => zeroed w 47 26 (.call c (w.setWidth 26))
  | 0x03 => laA w (.callr c)
  | 0x04 => none0 w (.ret c)
  | 0x05 => none0 w (.wspill c)
  | _ => none

/-- Format LT: t, with u and w, REUA and REUB, a, b, RM and SAT, FMT where the operation has them (04 R110 to R112, R115). -/
def decodeTile (c : Ctx) (w : Word) (op : Nat) : Option Instr :=
  let t := slotAt w 44
  let a := regAt w 29
  let b := regAt w 24
  -- u, w, REUA and REUB unused, and bits [16:0]
  let plain := fun (i : Option Instr) => zeroAnd w 43 34 (zeroAnd w 16 0 i)
  match op with
  | 0x00 => plain (zeroed w 28 17 (.tcfg c t a))
  | 0x08 => plain (zeroed w 23 17 (.tld c t a b 0))
  | 0x09 => plain (zeroed w 23 17 (.tst c t a b 0))
  | 0x0A => plain (zeroed w 23 21 (.tlda c t a b (BitVec.ofNat 4 (fld w 20 17)) 0))
  | 0x0B => plain (some (.tsta c t a b (BitVec.ofNat 4 (fld w 20 17)) (BitVec.ofNat 2 (fld w 23 22)) (bit w 21) 0))
  | 0x10 => zeroed w 33 0 (.tmma c t (slotAt w 40) (slotAt w 36) (bit w 35) (bit w 34))
  | 0x11 => plain (zeroed w 28 17 (.tscale c t a))
  | 0x18 => plain (zeroed w 33 17 (.tzero c t))
  | 0x19 => plain (zeroed w 23 17 (.tmova c a t b))
  | 0x1A => plain (zeroed w 23 17 (.tmovv c t a b))
  | _ => none

def decodeSys (c : Ctx) (w : Word) (op : Nat) : Option Instr :=
  let csr := BitVec.ofNat 12 (fld w 11 0)
  match op with
  | 0x00 => zeroed w 42 12 (.csrr c (dOf w) csr)
  | 0x01 => zeroed w 37 12 (.csrw c (dOf w) csr (aOf w))
  | 0x02 => zeroed w 37 12 (.csrs c (dOf w) csr (aOf w))
  | 0x03 => zeroed w 37 12 (.csrc c (dOf w) csr (aOf w))
  | 0x08 => liA w (.msgw c)
  | 0x09 => (predAt w 43).bind (fun p => zeroed w 37 5 (if bit w 4 then .msgsendBlocking c p (aOf w) (Fin.ofNat 16 (fld w 3 0))
      else .msgsendNonblocking c p (aOf w) (Fin.ofNat 16 (fld w 3 0))))
  | 0x10 => (predAt w 43).bind (fun p => zeroed w 37 0 (.lock c p (aOf w)))
  | 0x11 => laA w (.unlock c)
  | 0x18 => la3 w (.bar c) | 0x19 => laAB w (.bara c)
  | 0x1A => la3 w (.watch c) | 0x1B => laA w (.unwatch c)
  | 0x1C => laD w (.syncchk c)
  | 0x20 => laA w (.hodpost c) | 0x21 => laA w (.hodcred c)
  | 0x28 => zeroed w 47 12 (.gate c csr)
  | 0x29 => none0 w (.retx c)
  | 0x30 => laA w (.wait c)
  | 0x31 => zeroed w 47 24 (.brk c (imm24Of w))
  | _ => none

/-- The operation of a long word, none where its encoding is reserved or a bit that must be 0 is not (04 R104, R106, R108, R119). -/
def decodeLong (c : Ctx) (w : Word) : Option Instr :=
  let op := fld w 58 52
  match fld w 62 59 with
  | 0 => decodeInt c w op
  | 1 => decodeBit c w op
  | 2 => decodeMem c w op
  | 3 => decodeVec c w op
  | 4 => decodeCtl c w op
  | 5 => decodeTile c w op
  | 6 => decodeSys c w op
  | _ => none

/-! ### Short operations (04 R105, Tables 4.2, 4.5) -/

def sReg (s : Word) (lo : Nat) : Reg := Fin.ofNat 32 (fld s (lo + 4) lo)
def sD (s : Word) : Reg := sReg s 15
def sA (s : Word) : Reg := sReg s 10
def sB (s : Word) : Reg := sReg s 5
def sImm (s : Word) : BitVec 10 := s.setWidth 10
def sZero (s : Word) (hi lo : Nat) (o : ShortOp) : Option ShortOp := if fld s hi lo = 0 then some o else none
def sPred (s : Word) (lo : Nat) (k : PReg → Option ShortOp) : Option ShortOp := (predAt s lo).bind k

def aluOf : Nat → AluOp
  | 0 => .add | 1 => .sub | 2 => .and | 3 => .or | 4 => .xor | 5 => .andn | 6 => .shl | 7 => .shr | 8 => .sar | _ => .mul

def vshortOf : Nat → Option VShortOp
  | 0x00 => some .vadd | 0x01 => some .vsub | 0x02 => some .vmul | 0x04 => some .vmin | 0x05 => some .vmax | 0x06 => some .vabs
  | 0x07 => some .vneg | 0x08 => some .vand | 0x09 => some .vor | 0x0A => some .vxor | 0x20 => some .vexp2 | 0x21 => some .vrcp
  | 0x22 => some .vrsq | _ => none

/-- A short operation of the INT class. -/
def shortInt (s : Word) (op : Nat) : Option ShortOp :=
  if op ≤ 9 then sZero s 4 0 (.alu (aluOf op) (sD s) (sA s) (sB s))
  else match op with
  | 0x10 => some (.aluImm .add (sD s) (sA s) (sImm s)) | 0x11 => some (.aluImm .and (sD s) (sA s) (sImm s))
  | 0x12 => some (.aluImm .or (sD s) (sA s) (sImm s)) | 0x13 => some (.aluImm .xor (sD s) (sA s) (sImm s))
  | 0x14 => sZero s 9 6 (.shiftImm .shl (sD s) (sA s) (s.setWidth 6)) | 0x15 => sZero s 9 6 (.shiftImm .shr (sD s) (sA s) (s.setWidth 6))
  | 0x16 => sZero s 9 6 (.shiftImm .sar (sD s) (sA s) (s.setWidth 6))
  | 0x18 => sZero s 9 0 (.mov (sD s) (sA s))
  | 0x19 => sZero s 14 10 (.lil (sD s) (sImm s))
  | _ => if 0x20 ≤ op && op ≤ 0x25 then sPred s 15 (fun p => sZero s 4 0 (.cmp (condOf (op - 0x20)) p (sA s) (sB s))) else none

/-- A short operation of the BIT class. -/
def shortBit (s : Word) (op : Nat) : Option ShortOp :=
  match op with
  | 0x00 => sPred s 15 (fun p => some (.bld p (sA s) (sImm s))) | 0x01 => sPred s 15 (fun p => some (.bst p (sA s) (sImm s)))
  | 0x02 => sZero s 19 15 (.bit .set (sA s) (sImm s)) | 0x03 => sZero s 19 15 (.bit .clr (sA s) (sImm s))
  | 0x04 => sZero s 19 15 (.bit .tgl (sA s) (sImm s))
  | 0x05 => sPred s 15 (fun p => some (.btas p (sA s) (sImm s))) | 0x06 => sPred s 15 (fun p => some (.btac p (sA s) (sImm s)))
  | 0x08 => some (.bldw (sD s) (sA s) (sImm s)) | 0x09 => some (.bstw (sD s) (sA s) (sImm s))
  | 0x10 | 0x11 | 0x12 | 0x13 =>
    sPred s 15 (fun p => sPred s 10 (fun q => sPred s 5 (fun r => sZero s 4 0 (.plogic (logicOf (op - 0x10)) p q r))))
  | 0x18 => sZero s 14 0 (.movpg (sD s))
  | 0x19 => if fld s 19 15 = 0 then sZero s 9 0 (.movgp (sA s)) else none
  | _ => none

/-- A short load or store. -/
def shortMem (s : Word) (op : Nat) : Option ShortOp :=
  let lg : Fin 4 := Fin.ofNat 4 (op % 4)
  let disp : BitVec 6 := BitVec.ofNat 6 (fld s 9 4)
  match op / 4 with
  | 0 => sZero s 3 0 (.ld true lg (sD s) (sA s) disp)
  | 1 => sZero s 3 0 (.ld false lg (sD s) (sA s) disp)
  | 2 => sZero s 3 0 (.st lg (sD s) (sA s) disp)
  | 4 => sZero s 3 0 (.ldl true lg (sD s) (sA s) disp)
  | 5 => sZero s 3 0 (.ldl false lg (sD s) (sA s) disp)
  | 6 => sZero s 3 0 (.stl lg (sD s) (sA s) disp)
  | _ => none

/-- The short operation in bits [30:0], `reserved` where the tables list none or a bit that must be 0 is not (04 R106, R108, R119). -/
def decodeShort (s : Word) : ShortOp :=
  let op := fld s 25 20
  (match fld s 30 28 with
   | 0 => shortInt s op
   | 1 => shortBit s op
   | 2 => shortMem s op
   | 3 => (vshortOf op).bind (fun v => sZero s 0 0 (.vec v (BitVec.ofNat 4 (fld s 4 1)) (sD s) (sA s) (sB s)))
   | 4 => match op with
     | 0 => sZero s 19 14 (.br (s.setWidth 14))
     | 4 => sZero s 19 0 .ret
     | _ => none
   | _ => none).getD (.reserved (s.setWidth 31))

/-- Its guard. -/
def shortGuard (s : Word) : Fin 4 := Fin.ofNat 4 (fld s 27 26)

/-- The word in the form that issue takes it (03 R63): a long operation with its guard, a pair, or one with bit 31 set. -/
inductive Decoded where
  | long (neg : Bool) (gp : PReg)
  | pair (sg0 : Fin 4) (op0 : ShortOp) (sg1 : Fin 4) (op1 : ShortOp)
  | badPair
  deriving DecidableEq, Repr

def decodeForm (w : Word) : Decoded :=
  if !bit w 63 then .long (bit w 51) (Fin.ofNat 8 (fld w 50 48))
  else if bit w 31 then .badPair
  else .pair (shortGuard (w >>> 32)) (decodeShort (w >>> 32)) (shortGuard w) (decodeShort w)

/-- A displacement of a short access, in bytes (04 Table 4.13). -/
def shortDisp (lg : Fin 4) (disp : BitVec 6) : BitVec 24 := BitVec.ofNat 24 (disp.toNat * 2 ^ lg.val)

/-- The fields that a short vector word stands for: rounding by cs.fpcsr, INT8 signed, saturation by cs.fpcsr (04 R111, R112). -/
def shortFields (rounds : Bool) (fmt : BitVec 4) : VFields :=
  let i8 := fmt == 1
  { fmt := fmt, rm := if rounds && (fmt == 5 || fmt == 6 || fmt == 7) then 3 else 0, sat := false, sa := i8, sb := i8, fmt2 := 0 }

def shortRounds : VShortOp → Bool
  | .vadd | .vsub | .vmul => true
  | _ => false

def aluInstr (c : Ctx) (op : AluOp) (d a b : Reg) : Instr :=
  match op with
  | .add => .add c d a b | .sub => .sub c d a b | .and => .and c d a b | .or => .or c d a b | .xor => .xor c d a b
  | .andn => .andn c d a b | .shl => .shl c d a b | .shr => .shr c d a b | .sar => .sar c d a b | .mul => .mul c d a b
  | .mulhs => .mulhs c d a b | .mulhu => .mulhu c d a b

/-- The command that a short operation is, none for a reserved one. -/
def shortInstr (c : Ctx) (o : ShortOp) : Option Instr :=
  match o with
  | .alu op d a b => some (aluInstr c op d a b)
  | .aluImm op d a imm =>
    let v := imm.signExtend 24
    match op with
    | .add => some (.addi c d a v) | .and => some (.andi c d a v) | .or => some (.ori c d a v) | .xor => some (.xori c d a v)
    | _ => none
  | .shiftImm op d a n =>
    match op with
    | .shl => some (.shli c d a n) | .shr => some (.shri c d a n) | .sar => some (.sari c d a n)
    | _ => none
  | .mov d a => some (.mov c d a)
  | .lil d imm => some (.lil c d (imm.signExtend 32))
  | .cmp k p a b => some (.cmp c k p a b)
  | .bld p a u => some (.bld c p a (u.setWidth 17))
  | .bst p a u => some (.bst c p a (u.setWidth 17))
  | .bit op a u =>
    some (match op with
      | .set => .bset c a (u.setWidth 17) | .clr => .bclr c a (u.setWidth 17) | .tgl => .btgl c a (u.setWidth 17))
  | .btas p a u => some (.btas c p a (u.setWidth 17))
  | .btac p a u => some (.btac c p a (u.setWidth 17))
  | .bldw d a u => some (.bldw c d a (u.setWidth 11))
  | .bstw d a u => some (.bstw c d a (u.setWidth 11))
  | .plogic op p q r =>
    some (match op with
      | .and => .pand c p q r false false | .or => .por c p q r false false | .xor => .pxor c p q r false false
      | .andn => .pandn c p q r false false)
  | .movpg d => some (.movpg c d)
  | .movgp a => some (.movgp c a)
  | .ld signed lg d a disp => some (if signed then .ld c lg d (.base a (shortDisp lg disp)) else .ldu c lg d (.base a (shortDisp lg disp)))
  | .st lg d a disp => some (.st c lg d (.base a (shortDisp lg disp)))
  | .ldl signed lg d a disp => some (if signed then .ldl c lg d (.base a (shortDisp lg disp)) else .ldlu c lg d (.base a (shortDisp lg disp)))
  | .stl lg d a disp => some (.stl c lg d (.base a (shortDisp lg disp)))
  | .vec op fmt d a b =>
    let f := shortFields (shortRounds op) fmt
    some (match op with
      | .vadd => .vadd c f d a b | .vsub => .vsub c f d a b | .vmul => .vmul c f d a b | .vmin => .vmin c f d a b
      | .vmax => .vmax c f d a b | .vabs => .vabs c f d a | .vneg => .vneg c f d a | .vand => .vand c f d a b
      | .vor => .vor c f d a b | .vxor => .vxor c f d a b | .vexp2 => .vexp2 c f d a | .vrcp => .vrcp c f d a | .vrsq => .vrsq c f d a)
  | .br disp => some (.br c (disp.signExtend 26))
  | .ret => some (.ret c)
  | .reserved _ => none

end Sys2Proof.Machine
end

