-- ==== Sys2Proof/Machine/Flags.lean ====
section
/-! DEFINITION. Number formats, rounding and the floating-point flags (02 R34 to R52), and the functions that the vector unit
evaluates exactly before it rounds (06 R171, R178). A flag set is a number: NV 8, OF 4, UF 2, NX 1 (Table 2.6). -/

namespace Sys2Proof.Machine

open Sys2Proof

def flagNV : Nat := 8
def flagOF : Nat := 4
def flagUF : Nat := 2
def flagNX : Nat := 1

/-! ### Formats (04 Table 4.6, 02 Table 2.1) -/

/-- Bits of a format by its code. -/
def fmtWidth (f : Nat) : Nat :=
  if f = 0 || f = 2 then 4 else if f = 1 || f = 3 || f = 4 || f = 9 then 8 else if f = 5 || f = 6 then 16 else 32

/-- INT4, INT8, INT32. -/
def isIntFmt (f : Nat) : Bool := f = 0 || f = 1 || f = 8

/-- Exponent and significand bits of a floating-point format. -/
def expBits (f : Nat) : Nat := if f = 2 then 2 else if f = 3 then 4 else if f = 4 || f = 6 then 5 else 8
def sigBits (f : Nat) : Nat :=
  if f = 2 then 1 else if f = 3 then 3 else if f = 4 then 2 else if f = 5 then 7 else if f = 6 then 10 else 23
def expBias (f : Nat) : Int := (2 ^ (expBits f - 1) : Nat) - 1

/-- Sign bit, infinity, largest finite value and canonical NaN (02 Tables 2.1, 2.2); FP4 has neither infinity nor NaN. -/
def signBit (f : Nat) : Nat := 2 ^ (fmtWidth f - 1)
def infCode (f : Nat) : Nat := (2 ^ expBits f - 1) * 2 ^ sigBits f
def maxCode (f : Nat) : Nat := if f = 2 then 7 else if f = 3 then 0x7E else infCode f - 1
def nanCode (f : Nat) : Nat := if f = 3 then 0x7F else infCode f + 2 ^ (sigBits f - 1)

/-- A number of a floating-point format: NaN, an infinity, or (−1)^neg × m × 2^e. -/
inductive Num where
  | nan
  | inf (neg : Bool)
  | fin (neg : Bool) (m : Nat) (e : Int)
  deriving DecidableEq, Repr

/-- The number that a floating-point encoding holds (02 R34, R36). -/
def decodeFloat (f : Nat) (b : Nat) : Num :=
  let neg := b / signBit f % 2 == 1
  let mb := sigBits f
  let ex := b / 2 ^ mb % 2 ^ expBits f
  let mant := b % 2 ^ mb
  if f = 3 && b % 128 = 0x7F then .nan
  else if f ≠ 2 && f ≠ 3 && ex = 2 ^ expBits f - 1 then (if mant = 0 then .inf neg else .nan)
  else if ex = 0 then .fin neg mant (1 - expBias f - mb)
  else .fin neg (2 ^ mb + mant) (ex - expBias f - mb)

/-- An integer as a number. -/
def intNum (i : Int) : Num := .fin (decide (i < 0)) i.natAbs 0

/-- The number that a lane of a format holds; `signed` counts for INT4 and INT8 only. -/
def laneNum (f : Nat) (signed : Bool) (b : Nat) : Num :=
  if isIntFmt f then intNum (if signed || f = 8 then toSigned (fmtWidth f) b else (b : Int)) else decodeFloat f b

/-! ### Exact operations -/

/-- 2^k × m as a natural number. -/
def shl (m : Nat) (k : Int) : Nat := m * 2 ^ k.toNat

def signedOf (neg : Bool) (m : Nat) : Int := if neg then - (m : Int) else m

/-- Exact sum. A zero sum is −0 only where both terms are −0 (R56). -/
def numAdd : Num → Num → Num
  | .nan, _ => .nan
  | _, .nan => .nan
  | .inf a, .inf b => if a = b then .inf a else .nan
  | .inf a, .fin _ _ _ => .inf a
  | .fin _ _ _, .inf b => .inf b
  | .fin na ma ea, .fin nb mb eb =>
    let e := min ea eb
    let s := signedOf na (shl ma (ea - e)) + signedOf nb (shl mb (eb - e))
    .fin (if s = 0 then na && nb else decide (s < 0)) s.natAbs e

/-- Exact product; 0 × ∞ is NaN. -/
def numMul : Num → Num → Num
  | .nan, _ => .nan
  | _, .nan => .nan
  | .inf a, .inf b => .inf (a != b)
  | .inf a, .fin nb mb _ => if mb = 0 then .nan else .inf (a != nb)
  | .fin na ma _, .inf b => if ma = 0 then .nan else .inf (na != b)
  | .fin na ma ea, .fin nb mb eb => .fin (na != nb) (ma * mb) (ea + eb)

def numNeg : Num → Num
  | .nan => .nan
  | .inf a => .inf (!a)
  | .fin n m e => .fin (!n) m e

/-- Value as an integer over a common exponent. -/
def cmpKey : Num → Int → Int
  | .fin n m e, c => signedOf n (shl m (e - c))
  | _, _ => 0

/-- a < b as numbers; −0 and +0 are equal, NaN is never less (06 R163). -/
def numLt : Num → Num → Bool
  | .nan, _ => false
  | _, .nan => false
  | .inf a, .inf b => a && !b
  | .inf a, .fin _ _ _ => a
  | .fin _ _ _, .inf b => !b
  | .fin na ma ea, .fin nb mb eb =>
    let c := min ea eb
    decide (cmpKey (.fin na ma ea) c < cmpKey (.fin nb mb eb) c)

def isNan : Num → Bool
  | .nan => true
  | _ => false

def isNegative : Num → Bool
  | .inf n => n
  | .fin n _ _ => n
  | .nan => false

def numEq (a b : Num) : Bool := !isNan a && !isNan b && !numLt a b && !numLt b a

/-- The order of R162, in which −0 lies below +0. -/
def ordLt (a b : Num) : Bool := numLt a b || (numEq a b && isNegative a && !isNegative b)

/-! ### Rounding (02 R43 to R46) -/

/-- One draw of the stochastic generator (R46). -/
def srDraw (x : BitVec 32) : BitVec 32 :=
  let a := x ^^^ (x <<< 13)
  let b := a ^^^ (a >>> 17)
  b ^^^ (b <<< 5)

/-- m × 2^(−sh) rounded to an integer by a mode (0 RNE, 1 RTZ, 2 SR with draw `r`), and whether that was inexact. -/
def quantize (mode r m : Nat) (sh : Int) : Nat × Bool :=
  if sh ≤ 0 then (shl m (-sh), false)
  else
    let d := 2 ^ sh.toNat
    let n := m / d
    let rem := m % d
    let up := if mode = 0 then decide (d < 2 * rem) || (2 * rem == d && n % 2 == 1)
              else if mode = 1 then false
              else decide (r < rem * 2 ^ 32 / d)
    (if up then n + 1 else n, rem != 0)

/-- Exponent of the leading bit of m × 2^e. -/
def leadExp (m : Nat) (e : Int) : Int := (m.log2 : Int) + e

/-- Magnitude code of a rounded m × 2^e with an unbounded exponent, whether it is inexact, and whether it is tiny (R44, R50). -/
def roundMag (f mode r m : Nat) (e : Int) : Nat × Bool × Bool :=
  let mb := sigBits f
  let lead := leadExp m e
  let emin := 1 - expBias f
  let q := max lead emin - mb
  let n := quantize mode r m (q - e)
  let code := if n.1 < 2 ^ mb then n.1
    else if n.1 = 2 ^ (mb + 1) then (q + 1 + mb + expBias f).toNat * 2 ^ mb
    else (q + mb + expBias f).toNat * 2 ^ mb + (n.1 - 2 ^ mb)
  let free := quantize mode r m (lead - mb - e)
  let tiny := decide (lead < emin) && !(free.1 == 2 ^ (mb + 1) && lead + 1 == emin)
  (code, n.2, tiny)

/-- What an overflow of a finite result gives (02 Table 2.7): bits and flags. FP4 always takes its largest value (R42). -/
def overflowResult (f mode : Nat) (sat neg : Bool) : Nat × Nat :=
  let s := if neg then signBit f else 0
  if sat || mode = 1 || f = 2 then (s + maxCode f, flagOF + flagNX)
  else if f = 3 then (nanCode 3, flagOF + flagNV)
  else (s + infCode f, flagOF + flagNX)

/-- A finite exact value rounded to a floating-point format: bits and flags. -/
def roundFin (f mode : Nat) (sat : Bool) (r : Nat) (neg : Bool) (m : Nat) (e : Int) : Nat × Nat :=
  let s := if neg then signBit f else 0
  if m = 0 then (s, 0)
  else
    let x := roundMag f mode r m e
    if maxCode f < x.1 then overflowResult f mode sat neg
    else (s + x.1, if x.2.1 then (if x.2.2 then flagUF + flagNX else flagNX) else 0)

/-- The result of a vector operation in a format; a NaN result sets NV (R37, R50). -/
def roundNum (f mode : Nat) (sat : Bool) (r : Nat) : Num → Nat × Nat
  | .nan => (nanCode f, flagNV)
  | .inf neg => ((if neg then signBit f else 0) + infCode f, 0)
  | .fin neg m e => roundFin f mode sat r neg m e

/-! ### Conversions (02 R51, Table 2.7) -/

/-- Bounds of an integer format. -/
def intBounds (f : Nat) (signed : Bool) : Int × Int :=
  let w := fmtWidth f
  if signed || f = 8 then (- (2 ^ (w - 1) : Nat), (2 ^ (w - 1) : Nat) - 1) else (0, (2 ^ w : Nat) - 1)

/-- An integer as a pattern of w bits. -/
def intCode (w : Nat) (i : Int) : Nat := (i % (2 ^ w : Nat)).toNat

/-- Out of range, or NaN, to an integer format: for INT4 and INT8 the value of Table 2.7; that table has no row for INT32, whose result
is the free value handed in (assumption log 18). NV in every case (R50). -/
def intSpecial (f : Nat) (free : BitVec 32) (v : Int) : Nat × Nat :=
  (if f = 8 then free.toNat else intCode (fmtWidth f) v, flagNV)

/-- A number converted to an integer format. -/
def toIntFmt (f mode : Nat) (signed : Bool) (r : Nat) (free : BitVec 32) : Num → Nat × Nat
  | .nan => intSpecial f free 0
  | .inf neg => intSpecial f free (if neg then (intBounds f signed).1 else (intBounds f signed).2)
  | .fin neg m e =>
    let n := quantize mode r m (-e)
    let v := signedOf neg n.1
    let b := intBounds f signed
    if v < b.1 then intSpecial f free b.1
    else if b.2 < v then intSpecial f free b.2
    else (intCode (fmtWidth f) v, if n.2 then flagNX else 0)

/-- A number converted to a floating-point format. -/
def toFloatFmt (f mode : Nat) (sat : Bool) (r : Nat) : Num → Nat × Nat
  | .nan => (nanCode f, flagNV)
  | .inf neg =>
    let s := if neg then signBit f else 0
    if f = 3 then (if sat then (s + maxCode 3, flagNX) else (nanCode 3, flagNV)) else (s + infCode f, 0)
  | .fin neg m e => roundFin f mode sat r neg m e

/-- A number converted to a format. -/
def convertTo (f mode : Nat) (sat signed : Bool) (r : Nat) (free : BitVec 32) (x : Num) : Nat × Nat :=
  if isIntFmt f then toIntFmt f mode signed r free x else toFloatFmt f mode sat r x

/-! ### MXFP4 blocks (02 R41, R42) -/

/-- Value of an FP4 element under an E8M0 scale. -/
def mxNum (scale e : Nat) : Num :=
  if scale = 0xFF then .nan
  else match decodeFloat 2 e with
    | .fin n m x => .fin n m (x + (scale - 127))
    | y => y

def notFinite : Num → Bool
  | .fin _ _ _ => false
  | _ => true

/-- Scale of a block of 32 finite values: from the largest leading exponent; none where every value is zero. -/
def mxScale (xs : List Num) : Nat :=
  let lead := xs.foldl (fun (a : Option Int) x => match x with
    | .fin _ m e => if m = 0 then a else (match a with | some b => some (max b (leadExp m e)) | none => some (leadExp m e))
    | _ => a) none
  match lead with
  | none => 0
  | some l => (max 0 (min 254 (l - 2 + 127))).toNat

/-- One element of a block: bits and flags. -/
def mxElem (scale mode r : Nat) : Num → Nat × Nat
  | .fin neg m e => roundFin 2 mode true r neg m (e - (scale - 127))
  | _ => (0, flagNV)

/-! ### Exact functions -/

/-- Integer square root by fuel (twice as many bits as fuel). -/
def isqrt : Nat → Nat → Nat
  | 0, _ => 0
  | k + 1, n =>
    if n = 0 then 0
    else
      let r := 2 * isqrt k (n / 4)
      if (r + 1) * (r + 1) ≤ n then r + 1 else r

/-- A positive value known as a truncated number of units 2^e, with a sticky bit below it. -/
def sticky (neg : Bool) (q : Nat) (inexact : Bool) (e : Int) : Num := .fin neg (2 * q + (if inexact then 1 else 0)) (e - 1)

/-- Quotient of two positive integers to 96 bits or more below its leading bit. -/
def quotient (neg : Bool) (a b : Nat) (e : Int) : Num :=
  let k := 96 + b.log2
  let n := a * 2 ^ k
  sticky neg (n / b) (n % b != 0) (e - k)

/-- Reciprocal of a number (06 Table 6.7), zero apart. -/
def numRcp : Num → Num
  | .nan => .nan
  | .inf n => .fin n 0 0
  | .fin n m e => if m = 0 then .inf n else quotient n 1 m (-e)

/-- Reciprocal square root. -/
def numRsq : Num → Num
  | .nan => .nan
  | .inf n => if n then .nan else .fin false 0 0
  | .fin n m e =>
    if m = 0 then .inf n
    else if n then .nan
    else
      -- 1 / sqrt (m × 2^e) with e made even
      let m2 := if e % 2 = 0 then m else 2 * m
      let e2 := if e % 2 = 0 then e else e - 1
      let k := 96 + m2.log2
      let t := 2 ^ (2 * k) / m2
      let s := isqrt (k + 2) t
      sticky false s (s * s * m2 != 2 ^ (2 * k)) (-(e2 / 2) - k)

/-- Fraction bits of the fixed-point evaluation of the transcendental functions (assumption log 19). -/
def fixBits : Nat := 400
def fixOne : Nat := 2 ^ 400

/-- ln 2 = 2 Σ 1 / ((2k + 1) 3^(2k + 1)), in fixed point. -/
def fixLn2 : Nat := 2 * ((List.range 130).foldl (fun a k => a + fixOne / ((2 * k + 1) * 3 ^ (2 * k + 1))) 0)

/-- arctan (1/n) in fixed point. -/
def fixAtanInv (n terms : Nat) : Nat :=
  let t : Nat → Nat := fun k => fixOne / ((2 * k + 1) * n ^ (2 * k + 1))
  ((List.range terms).foldl (fun (a : Int) k => if k % 2 = 0 then a + (t k : Int) else a - (t k : Int)) 0).toNat

/-- π by Machin's formula, in fixed point. -/
def fixPi : Nat := 16 * fixAtanInv 5 90 - 4 * fixAtanInv 239 30

/-- Σ y^k / k! in fixed point. -/
def fixExp (y : Nat) : Nat :=
  ((List.range 100).foldl (fun (st : Nat × Nat) k => (st.1 + st.2, st.2 * y / fixOne / (k + 1))) (0, fixOne)).1

/-- cos y and sin y in fixed point, 0 ≤ y < 2. -/
def fixCosSin (y : Nat) : Nat × Nat :=
  let st := (List.range 100).foldl (fun (st : Int × Int × Nat) k =>
    let t : Int := st.2.2
    let next := st.2.2 * y / fixOne / (k + 1)
    if k % 4 = 0 then (st.1 + t, st.2.1, next)
    else if k % 4 = 1 then (st.1, st.2.1 + t, next)
    else if k % 4 = 2 then (st.1 - t, st.2.1, next)
    else (st.1, st.2.1 - t, next)) (0, 0, fixOne)
  (st.1.toNat, st.2.1.toNat)

/-- 2^x (06 R171). A value beyond ±4,096 is replaced by one that every format rounds alike. -/
def numExp2 : Num → Num
  | .nan => .nan
  | .inf n => if n then .fin false 0 0 else .inf false
  | .fin n m e =>
    if m = 0 then .fin false 1 0
    else if 12 ≤ leadExp m e then (if n then .fin false 1 (-4096) else .fin false 1 4096)
    else
      -- x in units of 2^−200
      let unit : Int := signedOf n (quantize 1 0 m (-200 - e)).1
      let lost := (quantize 1 0 m (-200 - e)).2
      let ip := unit / (2 ^ 200 : Nat)
      let fp := (unit % (2 ^ 200 : Nat)).toNat
      if fp = 0 && !lost then .fin false 1 ip
      else sticky false (fixExp (fp * 2 ^ 200 * fixLn2 / fixOne)) true (ip - 400)

/-- A fixed-point magnitude as a number, never exact. -/
def fixNum (neg : Bool) (v : Nat) : Num := sticky neg v true (-400)

/-- cos and sin of X / 2⁶⁴ turn (06 R178). -/
def turnCosSin (x : Nat) : Num × Num :=
  let quad := x / 2 ^ 62 % 4
  let y := x % 2 ^ 62
  let one := fun neg => Num.fin neg 1 0
  let zero := Num.fin false 0 0
  let cs : (Bool → Num) × (Bool → Num) :=
    if y = 0 then (one, fun _ => zero)
    else
      let v := fixCosSin (2 * fixPi * y / 2 ^ 64)
      (fun neg => fixNum neg v.1, fun neg => fixNum neg v.2)
  if quad = 0 then (cs.1 false, cs.2 false)
  else if quad = 1 then (cs.2 true, cs.1 false)
  else if quad = 2 then (cs.1 true, cs.2 true)
  else (cs.2 false, cs.1 true)

end Sys2Proof.Machine
end

