-- ==== Sys2Proof/Machine/Geometry.lean ====
section
/-! DEFINITION. The fixed geometry of the device (01 R13 to R16, R20; 10 Tables 10.1 to 10.3; 12 R310, R311). -/

namespace Sys2Proof.Machine

open Sys2Proof

/-- Local columns of memory attach nodes (01 Table 1.2). -/
def nodeColumns : List Nat := [1, 3, 5, 7, 12, 14, 17, 19, 24, 26, 28, 30]

def siteCol (site : Nat) : Nat := site / 16
def siteRow (site : Nat) : Nat := site % 16
def siteDie (site : Nat) : Nat := site / 512
def siteLocal (site : Nat) : Nat := site / 16 % 32

/-- Position of an element in a list, if it is there. -/
def indexOf {α : Type} [DecidableEq α] (x : α) : List α → Option Nat
  | [] => none
  | y :: r => if x = y then some 0 else (indexOf x r).map (· + 1)

/-- What a site carries (01 Table 1.2), with the number of its kind. -/
inductive Attach where
  | core
  | node (k : Nat)
  | port (p : Nat)
  | cc (c : Nat)
  | island
  deriving DecidableEq, Repr

/-- The attachment of a site (01 R14, R15). -/
def attachOf (site : Nat) : Attach :=
  let d := siteDie site
  let lc := siteLocal site
  let r := siteRow site
  match indexOf lc nodeColumns with
  | some j =>
    if r = 0 then .node (4 * (6 * d + j / 4) + j % 4)
    else if r = 15 then .node (4 * (6 * d + 3 + j / 4) + j % 4) else .core
  | none =>
    match indexOf (lc, r) [(10, 5), (10, 10), (21, 5), (21, 10)] with
    | some j => .port (4 * d + j)
    | none =>
      match indexOf (lc, r) [(11, 6), (11, 9), (20, 6), (20, 9)] with
      | some j => .cc (4 * d + j)
      | none => if d = 0 && lc < 2 && (r = 7 || r = 8) then .island else .core

def isCoreSite (site : Nat) : Bool := attachOf site = .core
def isCcSite (site : Nat) : Bool := match attachOf site with | .cc _ => true | _ => false

/-- A core or control core stands at the site. -/
def hasThreads (site : Nat) : Bool := isCoreSite site || isCcSite site

/-- A thread of the device: control cores have thread 0 only (09 R241). -/
def hasThread (site : Nat) (t : Fin 4) : Bool := isCoreSite site || (isCcSite site && t = 0)

/-- Site of memory attach node k. -/
def nodeSite (k : Nat) : Nat :=
  let st := k / 4
  let d := st / 6
  let e := st % 6
  (32 * d + nodeColumns.getD (e % 3 * 4 + k % 4) 0) * 16 + (if e < 3 then 0 else 15)

/-- Site of port p. -/
def portSite (p : Nat) : Nat :=
  let j := p % 4
  (32 * (p / 4) + (if j < 2 then 10 else 21)) * 16 + (if j % 2 = 0 then 5 else 10)

/-- Site of control core c. -/
def ccSite (c : Nat) : Nat :=
  let j := c % 4
  (32 * (c / 4) + (if j < 2 then 11 else 20)) * 16 + (if j % 2 = 0 then 6 else 9)

def nodeOf (site : Nat) : Option Nat := match attachOf site with | .node k => some k | _ => none
def portOf (site : Nat) : Option Nat := match attachOf site with | .port p => some p | _ => none
def ccOf (site : Nat) : Option Nat := match attachOf site with | .cc c => some c | _ => none

/-- Cluster of a site (01 R13). -/
def clusterOf (site : Nat) : Nat := site / 16 / 4 * 4 + site % 16 / 4

/-- Anchor site of a cluster (12 R311). -/
def anchorOf (c : Nat) : Nat := 64 * (c / 4) + 4 * (c % 4)

/-- Half-domain of a site (01 R16). -/
def halfOf (site : Nat) : Nat := 2 * siteDie site + siteLocal site / 16

/-- Port of a router that leads to a neighbour, and the neighbour (12 Table 12.1). -/
def neighbour (site p : Nat) : Option Nat :=
  let c := siteCol site
  let r := siteRow site
  if p = 1 then (if r = 0 then none else some (site - 1))
  else if p = 2 then (if r = 15 then none else some (site + 1))
  else if p = 3 then (if c = 127 then none else some (site + 16))
  else if p = 4 then (if c = 0 then none else some (site - 16))
  else if p = 5 then (if c + 8 < 128 then some (site + 128) else none)
  else if p = 6 then (if c < 8 then none else some (site - 128))
  else none

/-- The port at the other end of a link. -/
def oppositePort (p : Nat) : Nat :=
  if p = 1 then 2 else if p = 2 then 1 else if p = 3 then 4 else if p = 4 then 3 else if p = 5 then 6
  else if p = 6 then 5 else p

/-- Sites of a cluster. -/
def clusterSites (c : Nat) : List Nat :=
  (List.range 16).map (fun i => anchorOf c + i / 4 * 16 + i % 4)

/-- Units that the IZ-4816 lacks (01 R20). -/
def partLacksStack (part : BitVec 8) (st : Nat) : Bool := part = 2 && st % 3 = 1
def partLacksPort (part : BitVec 8) (p : Nat) : Bool := part = 2 && p % 4 = 3
def partLacksCc (part : BitVec 8) (c : Nat) : Bool := part = 2 && c % 4 = 3

/-- HBM capacity of a part in bytes (10 R271). -/
def hbmCapacity (part : BitVec 8) : Nat := if part = 2 then 1280 * 2 ^ 30 else 1920 * 2 ^ 30

/-- Bytes of local memory (05 R139). -/
def lmBytes : Nat := 0x180000

def windowBase : Nat := 0x400000000000
def siteRegBase : Nat := 0x600000000000
def deviceRegBase : Nat := 0x700000000000

/-- Device address of byte `off` of a site's local memory window (10 R272). -/
def windowAddr (site off : Nat) : Nat := windowBase + site * 0x200000 + off

/-- What a device address names (10 Table 10.1). -/
inductive Region where
  | hbm
  | window (site off : Nat)
  | siteReg (site off : Nat)
  | deviceReg (off : Nat)
  | hole
  deriving DecidableEq, Repr

def regionOf (a : Nat) : Region :=
  if a < 0x01E000000000 then .hbm
  else if windowBase ≤ a && a < 0x400100000000 then .window ((a - windowBase) / 0x200000) ((a - windowBase) % 0x200000)
  else if siteRegBase ≤ a && a < 0x600008000000 then .siteReg ((a - siteRegBase) / 0x10000) ((a - siteRegBase) % 0x10000)
  else if deviceRegBase ≤ a && a < 0x700001800000 then .deviceReg (a - deviceRegBase)
  else .hole

/-- Cluster and offset of a SYN_ address (10 Table 10.3). -/
def synOf (a : Nat) : Option (Nat × Nat) :=
  if 0x700001000000 ≤ a && a < 0x700001800000 then
    some ((a - 0x700001000000) / 0x10000, (a - 0x700001000000) % 0x10000)
  else none

/-- Site that serves a device register block (10 R589). -/
def servingSite (off : Nat) : Nat :=
  if off < 0x100000 then 7
  else if off < 0x200000 then 8
  else if off < 0x600000 then 23
  else if off < 0x1000000 then 24
  else anchorOf ((off - 0x1000000) / 0x10000)

end Sys2Proof.Machine
end

