-- ==== Sys2Proof/Machine/Fabric.lean ====
section
/-! DEFINITION. What units use to reach one another: packets in the mesh (12 Table 12.3), error records on their way to the
management island (19 R485 to R487), and the identities that both carry. -/

namespace Sys2Proof.Machine

open Sys2Proof

def ownDev (s : State) : Nat := s.top.devid.toNat

/-- A slice that kiln disabled at start: its unit is out of service until the next start (22 R554, 00 R6). -/
def sliceOff (s : State) (kind inst : Nat) : Bool := s.kln.off.contains (4096 * kind + inst)

/-- The half-domain of a site has its rail: no partial image has powered it off (12 R333, 21 R541). -/
def halfOn (s : State) (site : Nat) : Bool := !(getRail s (halfOf site)).off

/-- A half-domain is powered: its rail has been set and is not off. -/
def railOn (s : State) (h : Nat) : Bool := !(getRail s h).off && (getRail s h).vset != 0

/-- The loader alone sets EN of the units it holds (18 R477). -/
def loaderHolds (s : State) (d : Drained) : Bool := s.img.held.contains d

/-- A store to a held EN bit is ignored and noted. -/
def noteIgnored (s : State) : State := { s with img := { s.img with enign := true } }

/-- Thread ID of a thread of a site (01 R18, 09 R241). -/
def thidOf (s : State) (site : Nat) (t : Fin 4) : Nat :=
  match ccOf site with
  | some c => 7168 + c
  | none => (mget s.top.s2l site 0xFFFF).toNat * 4 + t

/-- Site and thread of a thread ID, where it names one. -/
def siteOfThid (s : State) (thid : Nat) : Option (Nat × Fin 4) :=
  if 7168 ≤ thid then (if thid < 7184 then some (ccSite (thid - 7168), 0) else none)
  else if thid / 4 < s.top.cores.toNat then some ((mget s.top.l2s (thid / 4) 0xFFFF).toNat, Fin.ofNat 4 thid) else none

/-! ### Packets -/

/-- A packet that site `src` sends to site `dst` of the own device, not yet numbered (12 Table 12.3). -/
def mkPacket (s : State) (cls : Nat) (lvl : Level) (src dst addr : Nat) (body : Body) : Packet :=
  { id := 0, cls := cls, mc := none, ord := false, ce := false, ece := false, lvl := lvl, ddev := ownDev s, dsite := dst,
    sdev := ownDev s, ssite := src, strm := 0xF, seq := 0, addr := addr, cnt := 0, esc := false, hops := 0, body := body,
    at_ := src, delivered := false }

/-- A packet enters the mesh under the next packet number. -/
def inject (p : Packet) (s : State) : State :=
  { s with packets := s.packets ++ [{ p with id := s.nextPkt }], nextPkt := s.nextPkt + 1 }

/-- A packet that leaves by a bond link or stays at its own site is at its destination at once (03 R90, 05 R142). -/
def injectDirect (p : Packet) (s : State) : State := inject { p with at_ := p.dsite, delivered := true } s

def findPacket (s : State) (n : Nat) : Option Packet := s.packets.find? (fun p => p.id == n)
def dropPacket (n : Nat) (s : State) : State := { s with packets := s.packets.filter (fun p => p.id != n) }

/-- Packet `n`, where it has been handed to the attachment of its destination. -/
def arrived (s : State) (n : Nat) : Option Packet :=
  match findPacket s n with
  | some p => if p.delivered then some p else none
  | none => none

/-- The reply to a packet (12 R316): class RSP, its source as destination, its level and stream number. The reply to a
request from another device goes there. -/
def replyTo (s : State) (p : Packet) (body : Body) : Packet :=
  { mkPacket s 1 p.lvl p.dsite p.ssite 0 body with
    ddev := p.sdev, strm := p.strm, ece := p.ce }

/-- Send the reply to a packet. A request that came over no mesh link (own site, bond link) is answered the same way. -/
def sendReply (p : Packet) (body : Body) (s : State) : State :=
  if p.hops = 0 && p.sdev = ownDev s then injectDirect (replyTo s p body) s else inject (replyTo s p body) s

/-- A SYNC message to one site (12 Table 12.4). -/
def sendSync (src dst addr : Nat) (lvl : Level) (body : Body) (s : State) : State :=
  inject (mkPacket s 0 lvl src dst addr body) s

/-- A SYNC message of the synchronisation unit of cluster c, which stands at port SU of its anchor's router (12 R311). -/
def unitSync (c dst : Nat) (body : Body) (s : State) : State :=
  inject { mkPacket s 0 .machine (anchorOf c) dst 0 body with inPort := 7 } s

/-- The mask of every cluster. -/
def allClusters : BitVec 128 := BitVec.allOnes 128

/-- A SYNC multicast to the synchronisation units of a cluster mask (12 R334). -/
def multicast (src : Nat) (mask : BitVec 128) (body : Body) (s : State) : State :=
  inject { mkPacket s 0 .machine src src 0 body with mc := some mask } s

/-- The same from the unit of a cluster. -/
def unitMulticast (c : Nat) (mask : BitVec 128) (body : Body) (s : State) : State :=
  inject { mkPacket s 0 .machine (anchorOf c) (anchorOf c) 0 body with mc := some mask, inPort := 7 } s

/-- A fresh request number. -/
def newReq (s : State) : Nat × State := (s.nextReq, { s with nextReq := s.nextReq + 1 })

/-! ### Error records (19 R483 to R487) -/

/-- Source kinds of Table 19.2. -/
inductive SrcKind where
  | core | cc | router | node | gru | port | sync | coll | bridge | island
  deriving DecidableEq, Repr

def srcCode : SrcKind → Nat
  | .core => 0 | .cc => 1 | .router => 2 | .node => 3 | .gru => 4 | .port => 5 | .sync => 6 | .coll => 7 | .bridge => 8
  | .island => 9

/-- Source kind of the threads of a site. -/
def threadSrc (site : Nat) : SrcKind := if isCcSite site then .cc else .core

/-- The fields of a record on its way: class, source kind, code, site, unit, count, address, detail, pace, epoch. -/
def recFields (s : State) (cls : Nat) (k : SrcKind) (code site unit count addr detail : Nat) : List Nat :=
  let u := getUnit s (clusterOf site)
  let clustered := site < 2048
  [cls, srcCode k, code, site, unit, count, addr, detail, if clustered then u.pace.toNat else 0,
   if clustered then u.epoch.toNat else 0]

/-- A unit posts a record (19 R487). A class-0 record of the same unit and code within 1,024 always-on counts is only counted,
and the next one carries the count. -/
def postRecord (cls : Nat) (k : SrcKind) (code site unit addr detail : Nat) (s : State) : State :=
  if cls = 0 then
    let same : List Nat → Bool := fun e => e.getD 0 0 == code && e.getD 1 0 == site && e.getD 2 0 == srcCode k
    match s.mgt.limited.find? same with
    | some e =>
      if s.aoc < e.getD 3 0 + 1024 then
        { s with mgt := { s.mgt with
            limited := s.mgt.limited.map (fun f => if same f then [code, site, srcCode k, f.getD 3 0, f.getD 4 0 + 1] else f) } }
      else
        { s with mgt := { s.mgt with
            raised := s.mgt.raised ++ [recFields s cls k code site unit (min 65535 (e.getD 4 0 + 1)) addr detail],
            limited := s.mgt.limited.map (fun f => if same f then [code, site, srcCode k, s.aoc, 0] else f) } }
    | none =>
      { s with mgt := { s.mgt with raised := s.mgt.raised ++ [recFields s cls k code site unit 1 addr detail],
                                   limited := s.mgt.limited ++ [[code, site, srcCode k, s.aoc, 0]] } }
  else
    { s with mgt := { s.mgt with raised := s.mgt.raised ++ [recFields s cls k code site unit 1 addr detail] } }

/-! ### Notices of a core reset or fence (05 R147, 12 R330) -/

/-- The port that GRP_GMCTn names for a device (17 Table 17.10). -/
def gmctPort (s : State) (d : Nat) : Option Nat :=
  let w := mget s.grp.gmct (d / 8) 0
  let f := fld w (8 * (d % 8) + 7) (8 * (d % 8))
  if 128 ≤ f then some (f % 32) else none

def maskToPort (s : State) (mask : BitVec 512) (port : Nat) : BitVec 512 :=
  foldN 512 (fun d (m : BitVec 512) => if mask.getLsbD d && gmctPort s d == some port then m ||| (1#512 <<< d) else m) 0

/-- A device-mask multicast from a site of this device (17 R444): one copy to each port that GRP_GMCTn names for a masked device,
each with the source it names. -/
def deviceMulticastFrom (sdev ssite at_ inPort : Nat) (mask : BitVec 512) (inner : Body) (s : State) : State :=
  foldN 16 (fun port st =>
    let m := maskToPort s mask port
    if m = 0 then st
    else inject { mkPacket st 0 .machine at_ (portSite port) 0 (.devMulti m inner) with sdev := sdev, ssite := ssite, inPort := inPort } st) s

def deviceMulticast (src : Nat) (mask : BitVec 512) (inner : Body) (s : State) : State :=
  deviceMulticastFrom (ownDev s) src src 0 mask inner s

/-- The devices of GRP_PEERn. -/
def peerMask (s : State) : BitVec 512 :=
  foldN 8 (fun w (m : BitVec 512) => m ||| ((mget s.grp.peer w 0).setWidth 512 <<< (64 * w))) 0

/-- The owner-reset and stream-reset notices of a site, sent from `src`; the stream-reset notice also goes to every other device of
the group (17 R442). -/
def sendResetNotices (site src : Nat) (s : State) : State :=
  deviceMulticast src (peerMask s &&& ~~~ (1#512 <<< ownDev s)) (.streamReset site)
    (multicast src allClusters (.streamReset site) (multicast src allClusters (.ownerReset site) s))

end Sys2Proof.Machine
end

