-- ==== Sys2Proof/Machine/Reset.lean ====
section
/-! DEFINITION. Resets and fences as the rest of the device uses them: the option block (21 R526, R527), the device reset
(21 R522 to R524), the core reset (05 R139) and the fence of a core (19 Table 19.10). -/

namespace Sys2Proof.Machine

open Sys2Proof

/-! ### CRC-32 and the option block -/

def crc32Bit (c : BitVec 32) : BitVec 32 := if c.getLsbD 0 then (c >>> 1) ^^^ 0xEDB88320#32 else c >>> 1

def crc32Byte (c : BitVec 32) (b : Byte) : BitVec 32 :=
  crc32Bit (crc32Bit (crc32Bit (crc32Bit (crc32Bit (crc32Bit (crc32Bit (crc32Bit (c ^^^ b.setWidth 32))))))))

/-- CRC-32 as in IEEE 802.3 (21 R526). -/
def crc32 (bs : List Byte) : BitVec 32 := ~~~ (bs.foldl crc32Byte (BitVec.allOnes 32))

/-- Life-cycle state of the LC fuses (20 R508): 0 BLANK, 1 MANUFACTURE, 2 DEPLOYED, 3 RETURNED, 4 END_OF_LIFE. -/
def lcState (lc : BitVec 4) : Nat :=
  if lc = 0b0000#4 then 0 else if lc = 0b0001#4 then 1 else if lc = 0b0011#4 then 2 else if lc = 0b0111#4 then 3 else 4

/-- A 64-byte option block is valid (21 R526). -/
def optionValid (bs : List Byte) : Bool :=
  bs.all (· == 0) || (leAt bs 0 4 == (crc32 (bs.drop 4)).toNat)

def mapBytes (m : Map Byte) (n : Nat) : List Byte := (List.range n).map (fun i => mget m i 0)
def bytesMap (bs : List Byte) : Map Byte := (List.range bs.length).zip bs

/-- Bytes of the boot flash: erased where nothing has been programmed (log 31). -/
def flashRead (s : State) (a n : Nat) : List Byte := (Memory.readN s.rst.flash a n).map (fun b => ~~~ b)
def flashWrite (a : Nat) (bs : List Byte) (s : State) : State :=
  { s with rst := { s.rst with flash := Memory.writeN s.rst.flash a (bs.map (fun b => ~~~ b)) } }

/-- The option block in force and how it was chosen: bytes, OPTERR, OPTSRC (21 R526). -/
def chooseOptions (s : State) : List Byte × Bool × BitVec 2 :=
  let page := flashRead s 0x1000 64
  let otp := mapBytes s.rst.otp 64
  if lcState s.sec.lc = 1 && optionValid page then (page, false, 2)
  else if optionValid otp then (otp, false, 1)
  else (List.replicate 64 0, true, 0)

def optByte (s : State) (i : Nat) : Byte := mget s.rst.opt i 0

/-- A numeric field of the option block: 0 takes the default, other values the nearer bound (21 R527). -/
def optNum (s : State) (off n lo hi dflt : Nat) : Nat :=
  let v := leNat ((List.range n).map (fun i => optByte s (off + i)))
  if v = 0 then dflt else clampNat lo hi v

def optFailMax (s : State) : Nat := optNum s 8 1 1 15 3
def optKiln (s : State) : Nat := (optByte s 9).toNat % 4
def optMwdPer (s : State) : Nat := optNum s 10 2 25 65535 3125
def optStartLim (s : State) : Nat := optNum s 12 2 1 65535 1431
def optPlim (s : State) : Nat := optNum s 14 2 2000 4200 4200
def optSlew (s : State) : Nat := optNum s 16 2 50 2000 500
def optThrot (s : State) : Nat := optNum s 18 1 90 105 100
def optClkScope (s : State) : Bool := (optByte s 7).getLsbD 0
def optCc0Lock (s : State) : Nat := min 2 ((optByte s 7).toNat / 2 % 4)
def optForerunner (s : State) : Bool := (optByte s 7).getLsbD 3
/-- Action of alarm source `b` of Table 20.6. -/
def optAlarm (s : State) (b : Nat) : Nat :=
  if b < 4 then (optByte s 5).toNat / 4 ^ b % 4 else (optByte s 6).toNat % 4

/-- Reset state of GPIO lands: driven low, and pulled up (24 R581, R582, Table 24.5). -/
def gpioOe (m : Mgt) (fm : Bool) : BitVec 4 :=
  BitVec.ofNat 4 (if fm then 0 else (List.range 4).foldl (fun a n => a + (if m.pinmap.toNat / 4 ^ n % 4 = 3 then 2 ^ n else 0)) 0)
def gpioOut (m : Mgt) (fm : Bool) : BitVec 4 :=
  if fm then 15#4 else
    BitVec.ofNat 4 ((List.range 4).foldl (fun a n => a + (if m.pinmap.toNat / 4 ^ n % 4 = 2 then 2 ^ n else 0)) 0)

/-- The option block is read and takes force (21 R526, R527; 24 R582). -/
def readOptions (s : State) : State :=
  let (bs, err, src) := chooseOptions s
  let s1 := { s with rst := { s.rst with opt := bytesMap bs, opterr := err, optsrc := src } }
  let fm := optForerunner s1
  { s1 with
    pwr := { s1.pwr with plim := BitVec.ofNat 16 (optPlim s1), slew := BitVec.ofNat 16 (optSlew s1),
                         throt := BitVec.ofNat 8 (optThrot s1) },
    mgt := { s1.mgt with fmode := fm, oe := gpioOe s1.mgt fm, out := gpioOut s1.mgt fm } }

/-! ### Device reset -/

/-- Sources that last until a command ends them (21 R524): POWERON, INPUT, RAIL, PIN and THERM follow a level. -/
def sourceLasts (code : Nat) : Bool := code = 1 || code = 2 || code = 3 || code = 4 || code = 0xB

/-- Sources that clear retained state (21 Table 21.1). -/
def clearsRetained (code : Nat) : Bool := code = 1 || code = 9

/-- Length of a reset's stretch in always-on counts (21 R524). -/
def stretchCounts : Nat := 25600

/-- Every unit at its reset value, with what a device reset keeps: the always-on domain, fuses, SEC_ALM, IDBLK, retained state,
non-volatile stores and pins (21 R522, R537). An input that is still low keeps its warning and its limit (R542); the other rails are off. -/
def deviceAtReset (s : State) : State :=
  { State.reset with
    pending := s.pending, freeCtr := s.freeCtr, aoc := s.aoc, nextPkt := s.nextPkt, nextReq := s.nextReq,
    top := { Top.reset with part := s.top.part, stepping := s.top.stepping, mgr := s.top.mgr, hbridge := s.top.hbridge },
    mgt := { Mgt.reset with pinmap := s.mgt.pinmap, modid := s.mgt.modid, fmode := s.mgt.fmode },
    sec := { s.sec with state := BitVec.ofNat 4 (lcState s.sec.lc), svnr := 0, owncs := false,
                        dbg := 0, busy := false, result := 0, cmd := 0, fwmeas := 0, fuseMeas := 0, challenge := none, ownerKeys := [] },
    rst := { Rst.reset with otp := s.rst.otp, flash := s.rst.flash, bkp := s.rst.bkp, sram := s.rst.sram,
                            failcnt := s.rst.failcnt, recoverNext := s.rst.recoverNext, phase := .reset,
                            pendingCause := s.rst.pendingCause, thermTrip := false },
    pwr := { Pwr.reset with draw := s.pwr.draw, vin := s.pwr.vin, ballast := s.pwr.ballast,
                            low := s.pwr.low.filter (· == 0), iwarn := s.pwr.low.contains 0, inputLimited := s.pwr.low.contains 0,
                            rails := s.pwr.rails.map (fun r => (r.1, { Rail.reset with tj := r.2.tj })) },
    kln := { Kln.reset with fuses := s.kln.fuses },
    io := { Io.reset with boundary := s.io.boundary, tamperLow := s.io.tamperLow, resetLow := s.io.resetLow } }

/-- Retained state is cleared (21 R537). -/
def clearRetained (s : State) : State :=
  { s with rst := { s.rst with bkp := [], sram := [], failcnt := 0, recoverNext := false, pendingCause := none } }

/-- A device reset by source `code` (21 R522 to R524, R526, R534, R545; 19 R491). In a device reset whose stretch has not
ended, the source is added and restarts the stretch. -/
def deviceReset (code detail : Nat) (s : State) : State :=
  if s.rst.phase = .reset then
    let s0 := if code = 2 || code = 0xB then
        { s with rst := { s.rst with railsUp := 0 },
                 pwr := { s.pwr with ballast := 0, islandRails := [],
                                     rails := s.pwr.rails.map (fun r => (r.1, { r.2 with vset := 0, vmeas := 0 })) } }
      else s
    let s1 := { s0 with rst := { s0.rst with
      also := s.rst.also ||| BitVec.ofNat 16 (2 ^ code),
      sources := if sourceLasts code then s.rst.sources.erase code ++ [code] else s.rst.sources,
      stretchEnd := if sourceLasts code || s.rst.sources ≠ [] then none else some (s.aoc + stretchCounts) } }
    if clearsRetained code then clearRetained s1 else s1
  else
    let failed := s.rst.phase ≠ .off && !s.rst.bootdone && !s.rst.recoverNext && code ≠ 4 && code ≠ 6 && code ≠ 7
    let soft := code = 6 && s.rst.recovery
    let s0 := { s with rst := { s.rst with
      failcnt := if soft then 0 else if failed && s.rst.failcnt ≠ 15 then s.rst.failcnt + 1 else s.rst.failcnt,
      recoverNext := if soft then false else s.rst.recoverNext,
      pendingCause := some (BitVec.ofNat 8 code) } }
    let s1 := if clearsRetained code then clearRetained s0 else s0
    let shutdown := code = 2 || code = 0xB
    let s2 := deviceAtReset s1
    readOptions { s2 with
      rst := { s2.rst with src := BitVec.ofNat 8 code, detail := BitVec.ofNat 8 (if code = 3 then detail else 0),
                           sources := if sourceLasts code then [code] else [],
                           stretchEnd := if sourceLasts code then none else some (s.aoc + stretchCounts) },
      pwr := { s2.pwr with ballast := if shutdown then 0 else s2.pwr.ballast } }

/-! ### Core reset and fence -/

/-- What of a core outlives its reset: column counts and REPLAYS (07 R210), its lock-up times, the lost units it knows. -/
def coreAfter (c : Core) (p : Power) (entry : Word) (ends : Option Nat) : Core :=
  let thr := fun (r h : Thread) => { r with comm := { r.comm with nextSeq := h.comm.nextSeq } }
  let r := Core.reset p entry
  { r with
    thr0 := thr r.thr0 c.thr0, thr1 := thr r.thr1 c.thr1, thr2 := thr r.thr2 c.thr2, thr3 := thr r.thr3 c.thr3,
    mx := { Matrix.reset with replays := c.mx.replays, fenced := c.mx.fenced, spare := c.mx.spare, scol := c.mx.scol,
                              cols := c.mx.cols },
    lockups := c.lockups, lostUnits := c.lostUnits, resetEnds := ends }

/-- The site that sends a site's notices: the site itself, or the management island where its router is out of service (19 R493). -/
def noticeSource (s : State) (site : Nat) : Nat := if (getRouter s site).inService then site else 23

/-- The stream packets that a site keeps for resending are discarded with its sends (13 R344, 14 R379). -/
def dropKept (site : Nat) (s : State) : State := modRouter site (fun r => { r with resend := [] }) s

/-- A core reset (05 R139, R147; 12 R330; 21 R524): held for the stretch, then CORE_RESET_END releases it. -/
def coreReset (site : Nat) (s : State) : State :=
  sendResetNotices site (noticeSource s site)
    (setCore (dropKept site s) site (coreAfter (getCore s site) .reset s.rst.entry (some (s.aoc + stretchCounts))))

/-- Site-state code of a site in TOP_SITEMAPn (10 R280). -/
def siteState (s : State) (site : Nat) : Nat := (mget s.top.siteMap site 0).toNat

/-- An update of the maps (10 R282, R283): GEN goes through an odd value and ends two higher, and the distance tables are computed
again from the maps and from the routing tables in force. -/
def mapUpdate (f : Top → Top) (s : State) : State :=
  { s with top := { f s.top with gen := s.top.gen + 2, distTables := s.routers.map (fun r => (r.1, r.2.siteTable)) } }

/-- An entry of the maps as the controller writes it within an update. -/
def setSiteState (site code : Nat) (s : State) : State :=
  { s with top := { s.top with siteMap := mset s.top.siteMap site (BitVec.ofNat 2 code) } }

/-- The update that carries the map entries changed since `old`, where there are any. -/
def commitMaps (old s : State) : State := if s.top = old.top then s else mapUpdate id s

/-- What a fence does to a core at its own site (19 Table 19.10): held in reset and powered down, rings and endpoints OFF,
notices sent, the record posted. -/
def fenceCoreSelf (site reason : Nat) (s : State) : State :=
  let s1 := setCore (dropKept site s) site (coreAfter (getCore s site) .fenced 0 none)
  postRecord 4 (threadSrc site) 0x13 site 0 0 reason (sendResetNotices site (noticeSource s site) s1)

/-- What the management view does with a fenced core (19 R492, R493): the maps show it. -/
def viewCore (site : Nat) (s : State) : State :=
  let s1 := setSiteState site (if siteState s site = 3 then 3 else 2) s
  let s2 := { s1 with mgt := { s1.mgt with fenced := (1, site) :: s1.mgt.fenced } }
  match ccOf site with
  | some c => { s2 with top := { s2.top with ccMap := s2.top.ccMap &&& ~~~ (1#16 <<< c) } }
  | none => s2

def viewFenceCore (site : Nat) (s : State) : State := commitMaps s (viewCore site s)

/-- A fence of a core or control core by the controller (19 R493); one already out of service is left as it is. -/
def fenceCoreBy (site reason : Nat) (s : State) : State :=
  match (getCore s site).power with
  | .fenced | .absent => s
  | _ => viewCore site (fenceCoreSelf site reason s)

/-- A lock-up (08 R239, R240; 21 R540; 19 R492, R503): the core is reset and the record posted; control core 0 of the manager
is handled as CC0LOCK selects. `kind` is 0 for a lock-up and 1 for a watchdog. -/
def lockUp (site kind : Nat) (dcause : Word) (s : State) : State :=
  let s1 := modCore site (fun c => { c with lockups := s.aoc :: c.lockups.take 2 }) s
  match ccOf site with
  | none => postRecord 3 .core 0x14 site 0 0 dcause.toNat (coreReset site s1)
  | some c =>
    let s2 := if kind = 0 then postRecord 3 .cc 0x14 site 0 0 dcause.toNat s1 else s1
    let s3 := postRecord 3 .cc 0x15 site c 0 kind s2
    if c = 0 && s.top.role = 1 then
      if optCc0Lock s = 1 then commitMaps s3 (fenceCoreBy site 1 s3)
      else if optCc0Lock s = 2 then deviceReset 0xA 0 s3
      else coreReset site s3
    else coreReset site s3

end Sys2Proof.Machine
end

