-- ==== Sys2Proof/Machine/Memories.lean ====
section
/-! DEFINITION. Byte memories with uncorrectable units (19 R484, R588; 11 R293, R294), the placement of HBM addresses (11 R290),
and what the agents of the management island read and write at device addresses. -/

namespace Sys2Proof.Machine

open Sys2Proof

/-- Write bytes from `a` on, but for those whose address `skip` names. -/
def writeSkip (skip : Nat → Bool) : List Host.Cell → Nat → List Byte → List Host.Cell
  | m, _, [] => m
  | m, a, b :: r => writeSkip skip (if skip a then m else Memory.write m a b) (a + 1) r

/-- Unit `u` of `w` bytes is covered whole by a write of `n` bytes at `a`. -/
def coversUnit (w a n u : Nat) : Bool := decide (a ≤ w * u) && decide (w * u + w ≤ a + n)

/-- A byte that a write of `n` bytes at `a` loses, because it lies in an uncorrectable unit that the write covers in part. -/
def lostByte (w : Nat) (bad : Nat → Bool) (a n x : Nat) : Bool := bad (x / w) && !coversUnit w a n (x / w)

/-- The first byte that a write loses. -/
def firstLost (w : Nat) (bad : Nat → Bool) (a n : Nat) : Option Nat :=
  ((List.range n).map (a + ·)).find? (lostByte w bad a n)

/-- The units of a write in which bytes are lost. -/
def lostUnits (w : Nat) (bad : Nat → Bool) (a n : Nat) : List Nat :=
  ((List.range (n / w + 2)).map (fun i => a / w + i)).filter (fun u =>
    decide (n ≠ 0) && decide (u * w < a + n) && bad u && !coversUnit w a n u)

/-- The first uncorrectable unit that `n` bytes at `a` touch. -/
def firstBad (w : Nat) (bad : Nat → Bool) (a n : Nat) : Option Nat :=
  ((List.range n).map (fun i => (a + i) / w)).find? bad

/-! ### Local memory -/

def lmBadAt (c : Core) (u : Nat) : Bool := c.lmBad.contains u

def lmReadN (s : State) (site off n : Nat) : List Byte := Memory.readN (getCore s site).lm off n

/-- First uncorrectable 8 B word among `n` bytes at a local offset. -/
def lmFirstBad (s : State) (site off n : Nat) : Option Nat := firstBad 8 (lmBadAt (getCore s site)) off n

/-- First byte of a local-memory write that is discarded. -/
def lmFirstLost (s : State) (site off n : Nat) : Option Nat := firstLost 8 (lmBadAt (getCore s site)) off n

/-- A read of `n` bytes of local memory records each uncorrectable word that it meets (19 R484, Table 19.3). -/
def noteLm (site off n : Nat) (s : State) : State :=
  if (lmFirstBad s site off n).isNone then s
  else (((List.range (n / 8 + 2)).map (fun i => off / 8 + i)).filter (fun u => decide (u * 8 < off + n) && lmBadAt (getCore s site) u)).foldl
    (fun st u => postRecord 1 (threadSrc site) 2 site 0 (8 * u) 0 st) s

/-- What error detection finds at words of a local memory as they are read: corrected (`false`), written back corrected and recorded in
class 0, or uncorrectable from now on (19 R484). -/
def applyLmFlaws (site : Nat) (flaws : List (Nat × Bool)) (s : State) : State :=
  flaws.foldl (fun st f =>
    if lmBadAt (getCore st site) f.1 then st
    else if f.2 then modCore site (fun c => { c with lmBad := f.1 :: c.lmBad }) st
    else postRecord 0 (threadSrc site) 1 site 0 (8 * f.1) 0 st) s

def coreLmWrite (off : Nat) (bs : List Byte) (c : Core) : Core :=
  if c.lmBad = [] then { c with lm := Memory.writeN c.lm off bs }
  else { c with lm := writeSkip (lostByte 8 (lmBadAt c) off bs.length) c.lm off bs,
                lmBad := c.lmBad.filter (fun u => !coversUnit 8 off bs.length u) }

/-- Field F of a watch condition (15 Table 15.10). -/
def watchField (cond v : Word) : Nat :=
  let sel := fld cond 28 27
  if sel = 0 then fld v 31 0 else if sel = 1 then fld v 63 32 else fld v 63 48

/-- The condition of a watch on a word's value. -/
def watchHolds (cond v : Word) : Bool :=
  let f := watchField cond v
  let x := fld cond 63 32
  match fld cond 31 29 with
  | 0 => f == x
  | 1 => f != x
  | 2 => decide (x ≤ f)
  | 3 => decide (f < x)
  | 4 => f &&& x == 0
  | 5 => f &&& x != 0
  | _ => false

/-- Reserved OP or SEL, or a non-zero field [26:24] (15 R397). -/
def badCond (cond : Word) : Bool := decide (5 < fld cond 31 29) || fld cond 28 27 == 3 || fld cond 26 24 != 0

/-- The word-watch comparators of a core see a write of `n` bytes at a local offset: each that holds reports its match to its unit
and ends (15 R396). -/
def fireComparators (site off n : Nat) (s : State) : State :=
  (getCore s site).comparators.foldl (fun st k =>
    let w := k.word
    if off < w + 8 && w < off + n then
      let v := BitVec.ofNat 64 (leNat (lmReadN st site w 8))
      if watchHolds k.cond v then
        sendSync site (anchorOf k.cluster) 0 .machine (.wordMatch k.entry (BitVec.ofNat 32 (watchField k.cond v)))
          (modCore site (fun c => { c with comparators := c.comparators.erase k }) st)
      else st
    else st) s

/-- A write to local memory; each discarded word is recorded (19 R484, R588), and watches on its words see it. -/
def lmWriteN (site off : Nat) (bs : List Byte) (s : State) : State :=
  (lostUnits 8 (lmBadAt (getCore s site)) off bs.length).foldl (fun st u => postRecord 1 (threadSrc site) 2 site 0 (8 * u) 0 st)
    (fireComparators site off bs.length (modCore site (coreLmWrite off bs) s))

/-! ### HBM placement -/

def ilvReg (s : State) (r : Nat) : Word := mget s.img.ilv r 0

/-- The valid region that holds an HBM address. -/
def regionFor (s : State) (a : Nat) : Option Nat :=
  firstBit 32 (fun r =>
    let w := ilvReg s r
    bit w 63 && decide (fld w 12 0 * 2 ^ 28 ≤ a) && decide (a < (fld w 12 0 + fld w 44 32) * 2 ^ 28))

/-- The reserve that is in use at a node. -/
def reserveInUse (n : HbmNode) : Option Nat := firstBit 8 (fun r => mget n.pc r 7 == 4)

/-- The pseudo-channel that stands in a place: the reserve where the place has been retired into it (11 R290, R297). -/
def standIn (n : HbmNode) (p : Nat) : Nat := if mget n.pc p 7 = 3 then (reserveInUse n).getD p else p

/-- MAPPED(k): the pseudo-channels of the places that are mapped, migrating or retired, by increasing p (11 R290, R297). -/
def mappedPlaces (n : HbmNode) : List Nat :=
  ((List.range 8).filter (fun p => let c := mget n.pc p 7; c == 0 || c == 2 || c == 3)).map (standIn n)

/-- The pseudo-channel that serves an offset of a place: below the copy point of a migration it is the reserve (11 R297). -/
def servingPc (n : HbmNode) (p off : Nat) : Nat :=
  match n.migrating with
  | some (q, at_) => if p = q && off < at_ then (reserveInUse n).getD p else p
  | none => p

/-- Node, pseudo-channel, and offset in it, of a mapped HBM address (11 R290). -/
def placeOf (s : State) (a : Nat) : Option (Nat × Nat × Nat) :=
  match regionFor s a with
  | none => none
  | some r =>
    let w := ilvReg s r
    let off := a - fld w 12 0 * 2 ^ 28
    let g := 8 + fld w 62 59
    let chunk := off / 2 ^ g
    let n := fld w 58 52
    let k := (mget s.img.ring ((fld w 51 45 + chunk % n) % 96) 0).toNat
    let o := (mget s.img.nbase (32 * k + r) (BitVec.allOnes 32)).toNat * 256 + chunk / n * 2 ^ g + off % 2 ^ g
    let places := mappedPlaces (getNode s k)
    let np := places.length
    let poff := o / 256 / np * 256 + o % 256
    some (k, servingPc (getNode s k) (places.getD (o / 256 % np) 0) poff, poff)

/-- A node that serves: measured or brought into service, not fenced, and its half-domain powered (01 R16). -/
def nodeServed (s : State) (k : Nat) : Bool := (getNode s k).inService && !(getNode s k).fenced && halfOn s (nodeSite k)

/-- A stack in service: one of its nodes serves, with a pseudo-channel that is not retired (10 Table 10.7). -/
def stackLive (s : State) (i : Nat) : Bool :=
  (List.range 4).any (fun j => nodeServed s (4 * i + j) &&
    (List.range 8).any (fun p => let c := mget (getNode s (4 * i + j)).pc p 7; c != 3 && c != 7))

/-- The node that holds an HBM address, where the node is in service (10 R271, 11 R291, 19 Table 19.10). -/
def hbmNodeFor (s : State) (a : Nat) : Option Nat :=
  match placeOf s a with
  | some (k, _, _) => if nodeServed s k then some k else none
  | none => none

/-- End of the last valid region (11 R289). -/
def mappedSize (s : State) : Nat :=
  (List.range 32).foldl (fun m r => let w := ilvReg s r
    if bit w 63 then max m ((fld w 12 0 + fld w 44 32) * 2 ^ 28) else m) 0

/-! ### HBM contents -/

/-- A sector (device address / 32) reads as uncorrectable: marked, or not rewritten since a switch (11 R294, R297). -/
def hbmBadAt (s : State) (u : Nat) : Bool :=
  s.hbmBad.contains u ||
  match placeOf s (u * 32) with
  | some (k, p, _) => let n := getNode s k; n.switched == some p && !n.fresh.contains u
  | none => false

def hbmReadN (s : State) (a n : Nat) : List Byte := Memory.readN s.hbm a n
def hbmFirstBad (s : State) (a n : Nat) : Option Nat := firstBad 32 (hbmBadAt s) a n
def hbmFirstLost (s : State) (a n : Nat) : Option Nat := firstLost 32 (hbmBadAt s) a n

/-- Sectors that `n` bytes at `a` cover whole. -/
def wholeSectors (a n : Nat) : List Nat :=
  ((List.range (n / 32 + 2)).map (fun i => a / 32 + i)).filter (coversUnit 32 a n)

def nodeIdOf (s : State) (a : Nat) : Nat := match placeOf s a with | some (k, _, _) => k | none => 0

/-- Saturating increment of a counter of w bits. -/
def satInc {w : Nat} (v : BitVec w) : BitVec w := if v = BitVec.allOnes w then v else v + 1

/-- Spare rows left in a pseudo-channel (11 R296). -/
def sparesLeft (n : HbmNode) (p : Nat) : Nat := 1024 - mget n.sparesUsed p 0

/-- The node's free reserve, if it has one (11 R291). -/
def freeReserve (n : HbmNode) : Option Nat := firstBit 8 (fun p => mget n.pc p 7 == 1)

/-- A migration of a pseudo-channel into the reserve starts, or is refused and recorded (11 R297). -/
def startMigration (k p : Nat) (s : State) : State :=
  let n := getNode s k
  match freeReserve n with
  | some r =>
    if mget n.pc p 7 = 0 then
      modNode k (fun n => { n with pc := mset (mset n.pc p 2) r 4, migrating := some (p, 0), reserveFor := some p }) s
    else s
  | none => postRecord 1 .node 0x25 (nodeSite k) p 0 0 s

/-- A page is retired (11 R296): the row is copied to a spare and redirected; fewer than 64 spares left start a migration. -/
def retirePage (k p row : Nat) (s : State) : State :=
  let n := getNode s k
  if sparesLeft n p = 0 then postRecord 1 .node 0x23 (nodeSite k) p row 0 s
  else
    let left := sparesLeft n p - 1
    let s1 := modNode k (fun n => { n with
      sparesUsed := mset n.sparesUsed p (mget n.sparesUsed p 0 + 1), redirected := n.redirected ++ [(p, row)] }) s
    let s2 := postRecord 2 .node 0x22 (nodeSite k) p row left s1
    if left < 64 then startMigration k p s2 else s2

/-- A read meets an uncorrectable sector: it is counted and recorded (11 R293), and its page is retired, once (R296). -/
def hbmUeCount (u : Nat) (s : State) : State :=
  match placeOf s (u * 32) with
  | none => s
  | some (k, p, o) =>
    let s1 := postRecord 1 .node 0x21 (nodeSite k) p (u * 32) 0
      (modNode k (fun n => { n with ue := satInc n.ue, errV := true, errAddr := u * 32 }) s)
    if (getNode s k).redirected.contains (p, o / 1024) then s1 else retirePage k p (o / 1024) s1

/-- A read of `n` bytes counts each uncorrectable sector that it meets. -/
def countKnownBad (a n : Nat) (s : State) : State :=
  ((List.range (n / 32 + 2)).map (fun i => a / 32 + i)).foldl
    (fun st u => if u * 32 < a + n && hbmBadAt s u then hbmUeCount u st else st) s

/-- A write to HBM (11 R293, R294): whole sectors are written and cleared of errors, a partly covered sector that its read finds
uncorrectable is discarded, counted and recorded. -/
def hbmWriteN (a : Nat) (bs : List Byte) (s : State) : State :=
  let lost := lostUnits 32 (hbmBadAt s) a bs.length
  let whole := wholeSectors a bs.length
  let k := nodeIdOf s a
  let s1 := { s with hbm := writeSkip (lostByte 32 (hbmBadAt s) a bs.length) s.hbm a bs,
                     hbmBad := s.hbmBad.filter (fun u => !whole.contains u) }
  lost.foldl (fun st u => hbmUeCount u st)
    (if (getNode s k).switched = none then s1 else modNode k (fun n => { n with fresh := whole ++ n.fresh }) s1)

/-! ### Device-address access of the management island -/

/-- A core or control core whose window is populated: in service (10 R272). One held in reset is absent to accesses (22 R551). -/
def windowServed (s : State) (site : Nat) : Bool := hasThreads site && (getCore s site).power == .on

/-- Start of the region that requesters outside the core reach (05 R134, R137; 09 R243). -/
def sharedStart (site : Nat) (c : Core) : Nat := if isCcSite site then 0 else 4 * c.lmslice.toNat * 0x8000

/-- `n` bytes of a window that a requester outside its core reaches. -/
def windowReach (s : State) (site off n : Nat) : Bool :=
  windowServed s site && decide (off + n ≤ lmBytes) && decide (sharedStart site (getCore s site) ≤ off)

/-- `n` bytes at a device address of HBM or of a populated window, `none` where some byte is not readable memory. -/
def devRead (s : State) (a n : Nat) : Option (List Byte) :=
  match regionOf a with
  | .hbm =>
    if a + n ≤ hbmCapacity s.top.part && (List.range n).all (fun i => (hbmNodeFor s (a + i)).isSome)
        && (hbmFirstBad s a n).isNone then some (hbmReadN s a n) else none
  | .window site off =>
    if windowReach s site off n && (lmFirstBad s site off n).isNone then some (lmReadN s site off n) else none
  | _ => none

/-- What a read of `n` bytes at a device address by the management island leaves: each uncorrectable sector that it meets in HBM is
counted (11 R293), each such word of a window is recorded (19 R484). -/
def devReadNotes (a n : Nat) (s : State) : State :=
  match regionOf a with
  | .hbm => countKnownBad a n s
  | .window site off => if windowReach s site off n then noteLm site off n s else s
  | _ => s

/-- Write bytes at a device address of HBM or of a populated window; elsewhere nothing. -/
def devWrite (a : Nat) (bs : List Byte) (s : State) : State :=
  match regionOf a with
  | .hbm => hbmWriteN a bs s
  | .window site off => if windowReach s site off bs.length then lmWriteN site off bs s else s
  | _ => s

/-- Bytes of a bit vector, byte 0 lowest. -/
def bytesOf {w : Nat} (v : BitVec w) (n : Nat) : List Byte := leBytes n v.toNat

end Sys2Proof.Machine
end

