-- ==== Sys2Proof/Machine/Hbm.lean ====
section
/-! DEFINITION. Memory attach nodes: errors, scrubbing, retirement and migration (11 R288, R293 to R298). -/

namespace Sys2Proof.Machine

open Sys2Proof

/-- Distinct sectors of a page with corrected errors since start. -/
def correctedInPage (s : State) (k p row : Nat) : Nat :=
  ((getNode s k).corrected.filter (fun u => match placeOf s (u * 32) with
    | some (k', p', o) => k' == k && p' == p && o / 1024 == row
    | none => false)).length

/-- A corrected error at a sector (11 R293, R294, R296). -/
def hbmCorrected (u : Nat) (s : State) : State :=
  match placeOf s (u * 32) with
  | none => s
  | some (k, p, o) =>
    let known := (getNode s k).corrected.contains u
    let s1 := modNode k (fun n => { n with ce := satInc n.ce, corrected := if known then n.corrected else u :: n.corrected }) s
    let s2 := postRecord 0 .node 0x20 (nodeSite k) p (u * 32) 0 s1
    if !known && correctedInPage s2 k p (o / 1024) = 3 then retirePage k p (o / 1024) s2 else s2

/-- A newly uncorrectable sector is marked (11 R294). The read that meets it counts it and retires its page. -/
def hbmUncorrectable (u : Nat) (s : State) : State :=
  if (placeOf s (u * 32)).isNone || hbmBadAt s u then s else { s with hbmBad := u :: s.hbmBad }

/-- What the stack's error detection found at the sectors an access touched: corrected (`false`) or uncorrectable. -/
def applyFlaws (flaws : List (Nat × Bool)) (s : State) : State :=
  flaws.foldl (fun st f => if f.2 then hbmUncorrectable f.1 st else hbmCorrected f.1 st) s

/-- HBM_RETIRE with KIND 1 (11 Table 11.12). -/
def retirePageAt (k a : Nat) (s : State) : State :=
  match placeOf s a with
  | some (k', p, o) => if k' = k && nodeServed s k then retirePage k p (o / 1024) s else s
  | none => s

/-- HBM_RETIRE with KIND 2. -/
def retirePcAt (k a : Nat) (s : State) : State :=
  match placeOf s a with
  | some (k', p, _) => if k' = k && nodeServed s k then startMigration k p s else s
  | none => s

def execHbmRetirePage (node : Fin 96) (addr : BitVec 48) (s : State) : Host.Outcome State Fault Refusal :=
  .next (retirePageAt node addr.toNat s)

def execHbmRetirePc (node : Fin 96) (addr : BitVec 48) (s : State) : Host.Outcome State Fault Refusal :=
  .next (retirePcAt node addr.toNat s)

/-- The copy of a migration ends: the reserve takes the old pseudo-channel's place (11 R297). -/
def migrationEnd (k : Nat) (s : State) : State :=
  match (getNode s k).migrating with
  | some (p, _) =>
    postRecord 2 .node 0x24 (nodeSite k) p 0 0 (modNode k (fun n => { n with pc := mset n.pc p 3, migrating := none }) s)
  | none => s

def execPcMigrationEnd (node : Fin 96) (s : State) : Host.Outcome State Fault Refusal := .next (migrationEnd node s)

/-- A switch to the reserve, refused and recorded where the node has none that is free (11 R297). -/
def pcSwitchTo (k p : Nat) (s : State) : State :=
  let n := getNode s k
  if nodeServed s k && mget n.pc p 7 != 7 then
    match freeReserve n with
    | some r =>
      if mget n.pc p 7 = 0 then
        postRecord 2 .node 0x24 (nodeSite k) p 0 1
          (modNode k (fun n => { n with pc := mset (mset n.pc p 3) r 4, reserveFor := some p, switched := some r, fresh := [] }) s)
      else s
    | none => postRecord 1 .node 0x25 (nodeSite k) p 0 0 s
  else s

def execPcSwitch (node : Fin 96) (pc : Fin 8) (s : State) : Host.Outcome State Fault Refusal := .next (pcSwitchTo node pc s)

/-- The device address of a node offset, where a share of the node covers it (11 R290, R292). -/
def nodeAddr (s : State) (k o : Nat) : Option Nat :=
  let at_ := fun r =>
    let w := ilvReg s r
    let n := fld w 58 52
    let first := (mget s.img.nbase (32 * k + r) (BitVec.allOnes 32)).toNat * 256
    (w, n, first, (List.range n).find? (fun i => (mget s.img.ring ((fld w 51 45 + i) % 96) 0).toNat == k))
  match firstBit 32 (fun r =>
      let x := at_ r
      bit x.1 63 && x.2.2.2.isSome && decide (x.2.2.1 ≤ o) && decide (o < x.2.2.1 + fld x.1 44 32 * 2 ^ 28 / x.2.1)) with
  | none => none
  | some r =>
    let x := at_ r
    let g := 8 + fld x.1 62 59
    let q := o - x.2.2.1
    some (fld x.1 12 0 * 2 ^ 28 + (q / 2 ^ g * x.2.1 + x.2.2.2.getD 0) * 2 ^ g + q % 2 ^ g)

/-- The sectors, by device address / 32, that lie in one row of a pseudo-channel of a node. -/
def rowSectors (s : State) (k p row : Nat) : List Nat :=
  let np := (mappedPlaces (getNode s k)).length
  (((List.range (4 * np)).filterMap (fun i => nodeAddr s k ((4 * row * np + i) * 256))).flatMap
    (fun a => (List.range 8).map (fun j => a / 32 + j))).filter (fun u => match placeOf s (u * 32) with
      | some (k', p', o) => k' == k && p' == p && o / 1024 == row
      | none => false)

/-- One row is scrubbed (11 R295): rows in turn over the mapped pseudo-channels and the reserve. Each uncorrectable sector that the
read meets is counted. A row of a reserve that is still free holds no device address, and nothing is counted there, although it reads
as the poison pattern (DESIGN CHOICE, assumption log 81). -/
def scrubRow (k : Nat) (flaws : List (Nat × Bool)) (s : State) : State :=
  let n := getNode s k
  if nodeServed s k && n.period ≠ 0 then
    let pcs := (List.range 8).filter (fun p => let c := mget n.pc p 7; c != 7 && c != 3)
    let i := n.scrubRow
    let us := rowSectors s k (pcs.getD (i % pcs.length) 0) (i / pcs.length)
    let s1 := applyFlaws (flaws.filter (fun f => us.contains f.1))
      (modNode k (fun n => { n with scrubRow := (i + 1) % (pcs.length * 2621440) }) s)
    (us.filter (hbmBadAt s1)).foldl (fun st u => hbmUeCount u st) s1
  else s

def execHbmScrubRow (node : Fin 96) (flaws : List (Nat × Bool)) (s : State) : Host.Outcome State Fault Refusal :=
  .next (scrubRow node flaws s)

/-- The stack's temperature reaches the register of its four nodes; the refresh and admission settings follow, and the management
controller is alerted (11 R288, Table 11.2). -/
def stackTemp (k : Nat) (temp : BitVec 8) (s : State) : State :=
  if nodeServed s k then
    let hot := decide (95 < temp.toInt)
    let others := s.mgt.hotStacks.filter (· != k / 4)
    foldN 4 (fun j st => modNode (k / 4 * 4 + j) (fun n => { n with
      temp := temp, refresh2 := decide (85 < temp.toInt), halfRate := hot }) st)
      { s with mgt := { s.mgt with hotStacks := if hot then k / 4 :: others else others } }
  else s

def execStackTempCheck (node : Fin 96) (temp : BitVec 8) (s : State) : Host.Outcome State Fault Refusal :=
  .next (stackTemp node temp s)

/-- HBM_ECC.CLR (11 Table 11.10). -/
def eccClear (k : Nat) (s : State) : State := modNode k (fun n => { n with ue := 0, ce := 0 }) s

def execHbmEccClr (node : Fin 96) (s : State) : Host.Outcome State Fault Refusal := .next (eccClear node s)

end Sys2Proof.Machine
end

