-- ==== Sys2Proof/Machine/Threads.lean ====
section
/-! DEFINITION. Threads: registers, the issue slot, events, trace and counters, exception entry and return
(03, 05, 08; 23 R572, R573). -/

namespace Sys2Proof.Machine

open Sys2Proof

/-! ### Registers -/

/-- Storage key of a general register: `none` for gr0 (03 R70, Table 3.3). -/
def grKey (w : Window) (r : Reg) : Option Nat :=
  if r.val = 0 then none
  else if r.val < 8 then some r.val
  else some (8 + (16 * w.pos.val + (r.val - 8)) % 128)

/-- A register by its storage key. -/
def readKey (th : Thread) : Option Nat → Word
  | none => 0
  | some k => mget th.gregs k 0

/-- A register written; the write clears its poisoned mark (08 R222) and gr0 discards it. -/
def writeKey (k : Option Nat) (v : Word) (th : Thread) : Thread :=
  match k with
  | none => th
  | some n => { th with gregs := mset th.gregs n v, poisonG := mdel th.poisonG n }

def readGr (th : Thread) (r : Reg) : Word := readKey th (grKey th.win r)
def writeGr (r : Reg) (v : Word) (th : Thread) : Thread := writeKey (grKey th.win r) v th

/-- A predicate: p0 reads 1 (03 R77). -/
def readP (th : Thread) (p : PReg) : Bool := if p.val = 0 then true else th.preds.getLsbD p.val

/-- A bit of a small vector set. -/
def setBit8 (v : BitVec 8) (n : Nat) (b : Bool) : BitVec 8 :=
  (v &&& ~~~ (1#8 <<< n)) ||| (if b then 1#8 <<< n else 0)

def writeP (p : PReg) (b : Bool) (th : Thread) : Thread :=
  if p.val = 0 then th else { th with preds := setBit8 th.preds p.val b }

def readV (th : Thread) (r : Reg) : BitVec 1024 := mget th.vregs r.val 0
def writeV (r : Reg) (v : BitVec 1024) (th : Thread) : Thread :=
  { th with vregs := mset th.vregs r.val v, poisonV := mdel th.poisonV r.val }

/-- The register awaits a load, AMO or AMOG (05 R129). -/
def keyPending (th : Thread) (k : Nat) : Bool := th.loads.any (fun o => o.dst == some k)

/-! ### The status register (08 Table 8.3) -/

def statusWord (st : Status) : Word :=
  bitAt 9 st.df ||| bitAt 8 st.gs ||| bitAt 7 st.exl ||| bitAt 6 st.peie ||| bitAt 5 st.eie |||
  mk 3 2 (levelCode st.plvl) ||| mk 1 0 (levelCode st.lvl)

/-- A write to cs.status: DF and LVL are read-only, PLVL 3 is stored as 2. -/
def statusWrite (w : Word) (st : Status) : Status :=
  { st with gs := bit w 8, exl := bit w 7, peie := bit w 6, eie := bit w 5, plvl := levelOf (fld w 3 2) }

/-- The level of a thread. -/
def lvlOf (th : Thread) : Level := th.status.lvl

/-! ### Trace and performance counters (23 R572, R573) -/

def paceOf (s : State) (site : Nat) : Word := (getUnit s (clusterOf site)).pace

/-- The core's copy of its cluster's pace counter (15 R403): behind it by at most 4 counts. -/
def paceCopy (s : State) (site : Nat) : Word := BitVec.ofNat 64 ((paceOf s site).toNat - Config.paceLag site % 5)

/-- A trace record of a kind that is traced is written into the core's ring. -/
def traceRec (site kind : Nat) (t : Nat) (data : Nat) (s : State) : State :=
  let d := (getCore s site).dbg
  if bit d.trcctl 63 && (fld d.trcctl 55 48).testBit (kind - 1) then
    let u := getUnit s (clusterOf site)
    let bytes := bytesOf (paceCopy s site) 8 ++ [BitVec.ofNat 8 kind, BitVec.ofNat 8 (t % 4), u.epoch, 0] ++ leBytes 4 data
    let off := fld d.trcctl 20 6 * 64 + 16 * (d.trcprod.toNat % 2 ^ fld d.trcctl 47 44)
    modCore site (fun c => { c with dbg := { c.dbg with trcprod := c.dbg.trcprod + 1 } })
      (if off + 16 ≤ lmBytes then lmWriteN site off bytes s else s)
  else s

/-- Events that a control core counts (23 R573). -/
def ccCounts (ev : Nat) : Bool := ev = 2 || ev = 9 || ev = 10 || ev = 11 || ev = 14 || ev = 15

/-- `n` performance events of thread `t`. -/
def countPerf (site ev : Nat) (t : Fin 4) (n : Nat) (s : State) : State :=
  let d := (getCore s site).dbg
  if (isCcSite site && !ccCounts ev) || d.pmsel = 0 then s
  else
    let hit := fun i => fld d.pmsel (16 * i + 7) (16 * i) == ev && (fld d.pmsel (16 * i + 15) (16 * i + 12)).testBit t.val
    modCore site (fun c => { c with dbg := { c.dbg with
      pmcnt := foldN 4 (fun i m => if hit i then mset m i (mget m i 0 + BitVec.ofNat 64 n) else m) c.dbg.pmcnt } }) s

/-! ### The issue slot (05 R125 to R127) -/

/-- Long-stall code of a wait (05 Table 5.1). -/
def waitCode : Wait → Nat
  | .result _ _ => 2
  | .loadPlace => 2
  | .gateEntry => 2
  | .storePlace => 3
  | .overlap _ => 4
  | .fetch _ => 5
  | .fence _ => 6
  | .receive _ _ => 7
  | .send => 7
  | .lock _ _ => 8
  | .barrier _ _ _ => 9
  | .baraRoom => 9
  | .hodSpace _ _ _ => 0xA
  | .event _ => 0xB

/-- State code of a thread (05 R133). -/
def threadCode (th : Thread) : Nat :=
  if th.halted then 0xC
  else match th.run with
    | .running => 0
    | .ready => 1
    | .stalled w => waitCode w
    | .parked => 0xD

def threadsOf : List (Fin 4) := [0, 1, 2, 3]

/-- The thread that holds the slot and issues. -/
def slotHolder (c : Core) : Option (Fin 4) := threadsOf.find? (fun t => (coreThr c t).run == .running)

def canTake (c : Core) (t : Fin 4) : Bool := (coreThr c t).run == .ready && !(coreThr c t).halted

/-- Give the free slot to the first ready thread after the one that held it (05 R127). -/
def fillSlot (c : Core) : Core :=
  match slotHolder c with
  | some _ => c
  | none =>
    match [c.lastSlot + 1, c.lastSlot + 2, c.lastSlot + 3, c.lastSlot].find? (canTake c) with
    | some t => { coreSetThr c t { coreThr c t with run := .running } with lastSlot := t }
    | none => c

/-- The running thread gives the slot up for `r` (05 R126, R127). -/
def giveUpSlot (site : Nat) (t : Fin 4) (r : Run) (code : Nat) (s : State) : State :=
  let s1 := modCore site (fun c => fillSlot { coreSetThr c t { coreThr c t with run := r } with lastSlot := t }) s
  countPerf site 4 t 1 (traceRec site 1 t (t.val + 16 * code) s1)

/-- A thread enters a long stall. -/
def stallThread (site : Nat) (t : Fin 4) (w : Wait) (s : State) : State := giveUpSlot site t (.stalled w) (waitCode w) s

/-- A thread that waited becomes ready, and takes the slot if no thread holds it. -/
def wakeThread (site : Nat) (t : Fin 4) (s : State) : State :=
  modCore site (fun c => fillSlot (coreSetThr { c with idleSince := none } t { coreThr c t with run := .ready })) s

/-! ### Halts (23 R569, R570) -/

/-- A resumable instruction that is left between units records its progress (08 R232). -/
def progTag (pc : Word) : Nat := fld pc 17 3

/-- cs.progress of an instruction left between units (08 R232). -/
def progressWord (pc : Word) (done : Nat) : Word := bitAt 63 true ||| mk 62 48 (progTag pc) ||| mk 39 0 done

def leaveUnits (site : Nat) (t : Fin 4) (s : State) : State :=
  modThr site t (fun h => match h.mid with
    | some n => { h with exc := { h.exc with progress := progressWord h.pc n }, mid := none }
    | none => h) s

/-- A thread halts. -/
def haltThread (site : Nat) (t : Fin 4) (s : State) : State :=
  let s1 := modCore site (fun c => { c with dbg := { c.dbg with pendHalt := c.dbg.pendHalt &&& ~~~ (1#4 <<< t.val) } })
    (modThr site t (fun h => { h with halted := true, stepOne := false }) (leaveUnits site t s))
  let s2 := traceRec site 8 t 1 s1
  if (getThr s site t).run = .running then giveUpSlot site t .ready 0xC s2 else s2

/-- A step of the debugger is over: the thread halts again. -/
def stepDone (site : Nat) (t : Fin 4) (s : State) : State :=
  if (getThr s site t).stepOne then haltThread site t (modThr site t (fun h => { h with stepped := true }) s) else s

/-- A wait has ended with its word complete. -/
def completeWait (site : Nat) (t : Fin 4) (s : State) : State := stepDone site t (wakeThread site t s)

/-! ### Events (08 R225 to R229) -/

/-- Bits that a level may set or clear (08 R226). -/
def eventMask : Level → BitVec 32
  | .machine => 0xFFFFFFFF
  | .supervisor => 0xFFFFFF00
  | .user => 0xFFFF0000

/-- Bit b would interrupt a thread (08 R227). -/
def deliverable (th : Thread) (b : Nat) : Bool :=
  th.exc.event.getLsbD b && th.exc.evmask.getLsbD b && !th.status.exl && !th.status.df &&
  (let bl := if b < 8 then 2 else 1
   let l := levelCode th.status.lvl
   decide (l < bl) || (l == bl && th.status.eie))

/-- The lowest deliverable bit. -/
def deliverableBit (th : Thread) : Option Nat := firstBit 32 (deliverable th)

/-- A blocking send waits for the answer to an attempt, which an event does not cut short (14 R375). -/
def attemptInFlight (th : Thread) : Bool :=
  match th.comm.blocking with
  | some b => b.due.isNone && b.answer.isNone
  | none => false

/-- What an event does to a waiting thread (08 Table 8.10): a WAIT whose mask holds the bit completes, a channel, hod or WAIT stall
is abandoned for a deliverable bit, and every other wait goes on. A halted thread keeps it for its resume. -/
def afterEvent (site : Nat) (t : Fin 4) (s : State) : State :=
  let th := getThr s site t
  if th.halted then s else
  match th.run with
  | .stalled (.event m) =>
    if th.exc.event &&& m ≠ 0 then
      completeWait site t (modThr site t (fun h => { h with pc := h.pc + 8 }) s)
    else if (deliverableBit th).isSome then
      wakeThread site t (modThr site t (fun h => { h with abandoned := 0xB }) s)
    else s
  | .stalled (.receive _ _) =>
    if (deliverableBit th).isSome then wakeThread site t (modThr site t (fun h => { h with abandoned := 7 }) s) else s
  | .stalled .send =>
    if (deliverableBit th).isSome && !attemptInFlight th then
      wakeThread site t (modThr site t (fun h => { h with abandoned := 7, comm := { h.comm with blocking := none } }) s)
    else s
  | .stalled (.hodSpace _ _ _) =>
    if (deliverableBit th).isSome then wakeThread site t (modThr site t (fun h => { h with abandoned := 0xA }) s) else s
  | _ => s

/-- Event bits of a thread are set, as far as the level may (08 R226). -/
def setEvents (site : Nat) (t : Fin 4) (lvl : Level) (bits : BitVec 32) (s : State) : State :=
  if hasThread site t then
    afterEvent site t (modThr site t (fun h => { h with exc := { h.exc with event := h.exc.event ||| (bits &&& eventMask lvl) } }) s)
  else s

def setEventBit (site : Nat) (t : Fin 4) (lvl : Level) (b : Nat) (s : State) : State :=
  setEvents site t lvl (1#32 <<< b) s

/-- The thread notified of records and warnings: MGT_ERRNOTE.THID, or the lowest control core in service (19 R489). -/
def notifiedCc (s : State) : Option Nat :=
  let c := s.mgt.noteThid.toNat - 7168
  if s.top.ccMap.getLsbD c then some c else firstBit 16 (fun i => s.top.ccMap.getLsbD i)

def notify (b : Nat) (s : State) : State :=
  match notifiedCc s with
  | some c => setEventBit (ccSite c) 0 .machine b s
  | none => s

/-! ### Matrix operations that an exception ends (07 R201, R202) -/

/-- Bits [62:0] of the long word of an operation, guard p0 (04 Tables 4.1, 4.3, 4.4, 4.16). -/
def tileWord : TileOp → Word
  | .tmma t u w a b => mk 62 59 5 ||| mk 58 52 0x10 ||| mk 47 44 t.val ||| mk 43 40 u.val ||| mk 39 36 w.val |||
      bitAt 35 a ||| bitAt 34 b
  | .tscale t a => mk 62 59 5 ||| mk 58 52 0x11 ||| mk 47 44 t.val ||| mk 33 29 a.val
  | .tzero t => mk 62 59 5 ||| mk 58 52 0x18 ||| mk 47 44 t.val

/-- Every outstanding operation of a thread is aborted and recorded in cs.tpend (07 R202). An entry that is still valid there, one whose
reissue failed or was not yet made, stays after them (R204); where there are more than two, the first two are kept (assumption log 82). -/
def abortMatrix (site : Nat) (t : Fin 4) (s : State) : State :=
  let c := getCore s site
  let h := getThr s site t
  match c.mx.queue.filter (fun o => o.thr == t) with
  | [] => s
  | ops =>
    let ws := ops.map (fun o => tileWord o.op ||| bitAt 63 true) ++ [h.fp.tpend0, h.fp.tpend1].filter (fun w => bit w 63)
    modThr site t (fun h => { h with fp := { h.fp with tpend0 := ws.getD 0 0, tpend1 := ws.getD 1 0 } })
      (modCore site (fun c => { c with mx := { c.mx with
        queue := c.mx.queue.filter (fun o => o.thr != t), latchA := none, latchB := none } }) s)

/-! ### Exception entry (08 R223, R224, R238, R239) -/

/-- A cause of an exception: CODE, SUB, the address for cs.eaddr, TAG, and the flags of cs.ecause. -/
structure Cause where
  code : Nat
  sub : Nat
  eaddr : Word
  tag : Nat
  imp : Bool
  mult : Bool
  pair : Bool
  slot : Nat
  stall : Nat
  deriving DecidableEq, Repr

def mkCause (code sub : Nat) (eaddr : Word) : Cause := ⟨code, sub, eaddr, 0, false, false, false, 0, 0⟩

/-- cs.ecause of a cause that arose at a level (08 Table 8.7). -/
def ecauseWord (c : Cause) (l : Level) : Word :=
  mk 55 52 c.stall ||| mk 47 24 c.tag ||| mk 23 22 (levelCode l) ||| bitAt 21 c.imp ||| bitAt 20 c.pair |||
  mk 19 19 c.slot ||| bitAt 16 c.mult ||| mk 15 8 c.sub ||| mk 7 0 c.code

/-- The target level (08 R223). -/
def targetLevel (th : Thread) (c : Cause) : Level :=
  if c.code = 0x10 then .machine
  else if c.code = 0x11 then (if c.sub < 8 then .machine else .supervisor)
  else if lvlOf th ≠ .machine && bit th.exc.sdeleg c.code then .supervisor
  else .machine

/-- Base of a vector register (08 R222): bits [47:6]. -/
def vecBase (w : Word) : Nat := w.toNat % 2 ^ 48 / 64 * 64

/-- A transfer target that any level may reach (03 R93): 8 B aligned, in HBM below the capacity, or in the core's own populated
window. -/
def fetchable (_ : State) (site : Nat) (a : Word) : Bool :=
  a.toNat % 8 == 0 &&
  match regionOf a.toNat with
  | .hbm => true
  | .window w off => w == site && decide (off < lmBytes)
  | _ => false

/-- Translation applies to a thread's device accesses and fetches (09 R264). -/
def translated (s : State) (site : Nat) (l : Level) : Bool :=
  isCcSite site && l != .machine && bit (getCore s site).mmu.ptbr 63

/-- A transfer target that passes R93 at a level: under translation the address is virtual, and its alignment and its width are all that
the transfer can judge. -/
def reachable (s : State) (site : Nat) (l : Level) (a : Word) : Bool :=
  if translated s site l then a.toNat % 8 == 0 && decide (a.toNat < 2 ^ 48) else fetchable s site a

/-- gr30 exchanged with a stack register. -/
def swapGr30 (f : ExcRegs → Word) (set : Word → ExcRegs → ExcRegs) (th : Thread) : Thread :=
  let old := readGr th 30
  { writeGr 30 (f th.exc) th with exc := set old th.exc }

def swapDfstk : Thread → Thread := swapGr30 (·.dfstk) (fun v e => { e with dfstk := v })

/-- gr30 exchanged with the stack register of a level: cs.mstk, or cs.sstk. -/
def swapStack (l : Level) : Thread → Thread :=
  if l = .machine then swapGr30 (·.mstk) (fun v e => { e with mstk := v }) else swapGr30 (·.sstk) (fun v e => { e with sstk := v })

/-- The thread goes on at an address: nothing of an earlier word is left. -/
def goTo (a : Word) (h : Thread) : Thread := { h with pc := a, mid := none, abandoned := 0, gateFetch := none, fetched := none }

/-- A fault during entry enters the double-fault handler (08 R238); with DF = 1, or where the handler cannot be reached, the core
locks up (R239). -/
def doubleFault (site : Nat) (t : Fin 4) (epc ecause eaddr : Word) (s : State) : State :=
  let th := getThr s site t
  if th.status.df then lockUp site 0 th.exc.dcause s
  else
    let s1 := abortMatrix site t s
    let target := BitVec.ofNat 64 (vecBase th.exc.mvec)
    let f := fun (h : Thread) =>
      goTo target (swapDfstk { h with
        exc := { h.exc with depc := epc, dcause := ecause, deaddr := eaddr }, status := { h.status with lvl := .machine, df := true } })
    let s2 := modThr site t f s1
    if reachable s2 site .machine target then traceRec site 2 t (fld ecause 15 0) s2 else lockUp site 0 ecause s2

/-- The saved state and the level of an entry (08 R224 items 2 and 3). -/
def saveEntry (epc ec ea : Word) (tl : Level) (h : Thread) : Thread :=
  { h with
    exc := { h.exc with epc := epc, ecause := ec, eaddr := ea },
    status := { h.status with plvl := h.status.lvl, peie := h.status.eie, eie := false, exl := true, gs := false, lvl := tl } }

/-- Entry at a target of level `tl`, for a cause whose cs.ecause is `ec` (08 R224); `post` is what a gate adds. A target that fails R93
is a fault during entry. -/
def enterAt (site : Nat) (t : Fin 4) (epc ec ea : Word) (tl : Level) (target : Word) (post : Thread → Thread) (s : State) : State :=
  let s2 := modThr site t (fun h => goTo target (post (saveEntry epc ec ea tl h))) (abortMatrix site t s)
  if reachable s2 site tl target then traceRec site 2 t (fld ec 15 0) s2
  else doubleFault site t target (ecauseWord (mkCause 7 0 target) tl) target s2

/-- Vector of a code at a level. -/
def vectorOf (e : ExcRegs) (tl : Level) (code : Nat) : Word :=
  BitVec.ofNat 64 (vecBase (if tl = .machine then e.mvec else e.svec) + 64 * code)

/-- Taking an exception (08 R223, R224, R238, R239); `epc` is the saved address. With EXL = 1 it is a fault during entry. -/
def takeException (site : Nat) (t : Fin 4) (cause : Cause) (epc : Word) (s : State) : State :=
  let th := getThr s site t
  let ec := ecauseWord cause (lvlOf th)
  if th.status.df then lockUp site 0 th.exc.dcause s
  else if th.status.exl then doubleFault site t epc ec cause.eaddr s
  else
    let tl := targetLevel th cause
    enterAt site t epc ec cause.eaddr tl (vectorOf th.exc tl cause.code) id s

/-- An entry at a given level whatever cs.sdeleg and EXL hold (08 R230, R237 item 3); with DF = 1 the core locks up. -/
def takeAtLevel (site : Nat) (t : Fin 4) (cause : Cause) (tl : Level) (epc : Word) (s : State) : State :=
  let th := getThr s site t
  if th.status.df then lockUp site 0 th.exc.dcause s
  else enterAt site t epc (ecauseWord cause (lvlOf th)) cause.eaddr tl (vectorOf th.exc tl cause.code) id s

/-! ### Asynchronous causes (08 R221, R228) -/

/-- Asynchronous causes are accepted (08 R228). -/
def acceptsAsync (th : Thread) : Bool := !th.status.exl && !th.status.df && !th.halted

/-- The pending imprecise fault is taken at the word boundary (08 R221), with the code of a wait that an event abandoned (R229). -/
def takeImprecise (site : Nat) (t : Fin 4) (i : Imprecise) (s : State) : State :=
  let pc := (getThr s site t).pc
  let s1 := modThr site t (fun h => { h with imprecise := none }) (leaveUnits site t s)
  takeException site t { mkCause i.code i.sub i.eaddr with imp := true, mult := i.mult, stall := (getThr s site t).abandoned } pc s1

/-- The lowest deliverable event is taken at the word boundary (08 R227). -/
def takeEvent (site : Nat) (t : Fin 4) (b : Nat) (s : State) : State :=
  let th := getThr s site t
  takeException site t { mkCause 0x11 b 0 with stall := th.abandoned } th.pc (leaveUnits site t s)

/-- An imprecise fault becomes pending, or is dropped with MULT set (08 R221). A wait that Table 8.10 lets end is not touched. -/
def postImprecise (site : Nat) (t : Fin 4) (code sub : Nat) (eaddr : Word) (s : State) : State :=
  modThr site t (fun h => match h.imprecise with
    | none => { h with imprecise := some ⟨code, sub, eaddr, false⟩ }
    | some i => { h with imprecise := some { i with mult := true } }) s

/-! ### What SYNCCHK waits for (15 R400) -/

/-- The thread whose SYNCCHK waits for a packet: the sender of an UNLOCK, WATCH, UNWATCH or barrier arrival, or the receiver of a
watch message. -/
def syncParty (p : Packet) : Option (Nat × Fin 4) :=
  match p.body with
  | .unlock _ _ t => some (p.ssite, t)
  | .watchReg _ _ _ t => some (p.ssite, t)
  | .unwatch _ t => some (p.ssite, t)
  | .arrive _ _ _ _ t => some (p.ssite, t)
  | .watchMsg st _ _ t => if st < 2 then none else some (p.dsite, t)
  | _ => none

/-- Some such packet is under way, and its unit is not one that the core knows to be lost; or one was lost with its unit, and the core
has not been told yet. -/
def syncPending (s : State) (site : Nat) (t : Fin 4) : Bool :=
  (getThr s site t).comm.lostSync.any (fun c => !(getCore s site).lostUnits.contains c) ||
  s.packets.any (fun p => p.sdev == ownDev s && p.ddev == ownDev s && syncParty p == some (site, t) &&
    !(p.ssite == site && p.dsite != site && (getCore s site).lostUnits.contains (clusterOf p.dsite)))

/-- A SYNCCHK whose conditions hold is issued again. -/
def wakeSync (site : Nat) (t : Fin 4) (s : State) : State :=
  match (getThr s site t).run with
  | .stalled (.fence .sync) => if syncPending s site t then s else wakeThread site t s
  | _ => s

/-- After packet `n` of an earlier state has been taken. -/
def afterPacket (n : Nat) (before s : State) : State :=
  match findPacket before n with
  | some p => (match syncParty p with | some (site, t) => wakeSync site t s | none => s)
  | none => s

end Sys2Proof.Machine
end

