-- ==== Sys2Proof/Machine/Wire.lean ====
section
/-! DEFINITION. Packets and flits as they travel: packet lengths and headers (12 R314 to R316), their bytes on a Gofin link, and what a
port's output sends (16 R412 to R422, 17 R436). -/

namespace Sys2Proof.Machine

open Sys2Proof

/-! ### Packet lengths and headers -/

/-- Payload bytes of a packet (12 R314). The manual gives the payload of messages, descriptors and bridge operations; a plain
request or reply carries its data, and one without data carries 8 B (assumption log 16). -/
def bodyLen : Body → Nat
  | .memReq _ _ (.load _) => 8
  | .memReq _ _ (.store d) => d.length
  | .memReq _ _ (.amo _ _ _ _) => 16
  | .memReq _ _ (.writeBack _ _) => 72
  | .memReq _ _ (.fill _) => 8
  | .memReply _ _ (.line _ _) => 64
  | .memReply _ _ _ => 8
  | .chanReq _ _ _ _ d _ => d.length
  | .chanReply _ _ _ _ _ d => d.length
  | .hodData _ _ (.bytes v _) => v.length
  | .hodWrite _ _ d => d.length
  | .gruReq _ _ _ _ d => d.length
  | .coll _ _ _ _ d => d.length
  | .devMulti _ _ => 96
  | .errRec _ => 64
  | .hostMsg _ d => d.length
  | .imgPacket _ d => d.length
  | .other _ d => d.length
  | .grant _ _ _ _ _ _ => 16
  | .watchMsg _ _ _ _ => 16
  | .chanNack _ _ _ _ => 16
  | _ => 8

/-- A code of the part's own for packets to which the manual gives none: none of the codes that the manual defines (12 R316; below
0x40, assumption log 23). -/
def ownOpc (kind : Nat) : Nat := (Config.opcode kind).toNat % 64

/-- A lock grant (05 Table 5.7). -/
def grantBytes (lock cluster : Nat) (orphan : Bool) (thid : Nat) (gseq : BitVec 32) : List Byte :=
  leBytes 2 1 ++ leBytes 2 lock ++ leBytes 2 cluster ++ leBytes 2 (if orphan then 1 else 0) ++ leBytes 4 thid ++ leBytes 4 gseq.toNat

/-- OPC of a packet: the codes that the manual gives (13 Table 13.12, 14 Table 14.10, 17 Table 17.3, 12 R316, 19 R490), else the part's
own. -/
def bodyOpc : Body → Nat
  | .memReq _ _ (.load _) => ownOpc 0
  | .memReq _ _ _ => ownOpc 1
  | .hodRead _ _ _ => 0x40
  | .hodData _ _ _ => 0x41
  | .hodWrite _ _ _ => 0x42
  | .hodAck _ _ _ => 0x43
  | .gruReq _ _ _ _ _ => 0x44
  | .gruStatus _ _ _ => 0x45
  | .chanReq _ _ _ _ _ _ => 0x50
  | .chanReply _ _ _ _ _ _ => 0x51
  | .chanAck _ _ _ => 0x52
  | .chanNack _ _ _ _ => 0x53
  | .coll true err _ _ _ => if err then 0x62 else 0x60
  | .coll false err _ _ _ => if err then 0x63 else 0x61
  | .errRec _ => 0x74
  | .hostMsg opc _ => opc
  | .imgPacket opc _ => opc
  | .other opc _ => opc
  | .unreachable _ => 0xF0
  | .strbusy _ _ => 0xF1
  | _ => ownOpc 2

/-- Requester's tag: the low 16 bits of the number under which the requester waits, that of Table 14.10 for a message; a reply copies
it (12 R316). -/
def bodyTag : Body → Nat
  | .memReq req _ _ | .memReply req _ _ => req % 65536
  | .hodRead _ tag _ | .hodData _ tag _ | .hodWrite _ tag _ | .hodAck _ tag _ => tag % 65536
  | .gruReq _ tag _ _ _ | .gruStatus _ tag _ => tag % 65536
  | .chanReq _ _ _ _ _ tok => (match tok with | some (r, k) => 0x8000 + 0x1000 * r + k | none => 0)
  | .chanAck _ tag _ | .chanNack _ tag _ _ => tag
  | .unreachable orig => bodyTag orig
  | .strbusy _ tag => tag
  | _ => 0

/-- Flits of a packet in the mesh (12 R314). -/
def packetFlits (p : Packet) : Nat := (32 + bodyLen p.body + 63) / 64

/-- Header word 0 (12 Table 12.3). -/
def headerWord0 (p : Packet) : Word :=
  mk 63 61 p.cls ||| bitAt 60 p.mc.isSome ||| bitAt 59 p.ord ||| bitAt 58 p.ce ||| bitAt 57 p.ece |||
  mk 56 55 (levelCode p.lvl) ||| mk 54 52 (packetFlits p - 1) ||| mk 51 43 p.ddev ||| mk 42 32 p.dsite |||
  mk 31 23 p.sdev ||| mk 22 12 p.ssite ||| mk 11 8 p.strm ||| mk 7 0 (bodyOpc p.body)

/-- The four header words of a packet (12 Table 12.3). -/
def headerWords (p : Packet) : List Word :=
  [headerWord0 p, mk 63 48 p.seq.toNat ||| mk 47 0 p.addr] ++
  (match p.mc with
   | some m => [m.setWidth 64, (m >>> 64).setWidth 64]
   | none => [mk 63 48 p.cnt ||| bitAt 47 p.esc ||| mk 46 40 p.hops ||| mk 31 16 (bodyTag p.body) ||| mk 8 0 (bodyLen p.body), BitVec.ofNat 64 p.haddr])

/-- The 32 header bytes, little-endian. -/
def headerBytes (p : Packet) : List Byte := (headerWords p).flatMap (fun w => bytesOf w 8)

/-- A header that a router discards (12 R315): a reserved class, more than 5 flits, or one that came over a link with a zero field set
or a LEN that is not that of its length. -/
def headerBad (p : Packet) : Bool := p.hdrBad || decide (5 < p.cls) || decide (5 < packetFlits p)

/-- A reply to a request, or a stream-reset notice, as against a packet that its source sends of its own (12 R316, R330). -/
def isReply : Body → Bool
  | .memReply _ _ _ => true
  | .hodData _ _ _ => true
  | .hodAck _ _ _ => true
  | .gruStatus _ _ _ => true
  | .chanAck _ _ _ => true
  | .chanNack _ _ _ _ => true
  | .unreachable _ => true
  | .strbusy _ _ => true
  | .streamReset _ => true
  | _ => false

/-- The packet belongs to a stream that its destination router counts (12 R326, R328): a reply repeats its request's STRM but is no
packet of that stream (assumption log 21). -/
def counted (p : Packet) : Bool := p.strm != 0xF && !isReply p.body

/-! ### Packets on a link (16 R413, 17 R444, R454) -/

/-- Site of collective engine t (17 R447 onwards). -/
def engineSite (t : Nat) : Nat := [7, 8, 23, 24].getD t 7
def engineOf (site : Nat) : Option Nat := indexOf site [7, 8, 23, 24]

/-- Credit class of a packet on a data link (17 Table 17.1); the tree of a COLL packet is that of the engine it goes to. -/
def creditClass (p : Packet) : Nat :=
  if p.cls = 0 then 0
  else if p.cls = 1 then 1
  else if p.cls = 2 then 2 + (engineOf p.dsite).getD 0
  else if p.cls = 3 then (if p.esc then 7 else 6)
  else 8

/-- The port bound to the host, if any: a binding to device 511 (17 R453). -/
def hostPort (s : State) : Option Nat :=
  firstBit 16 (fun n => (getPort s n).bindEn && (getPort s n).bindDev == 511)

/-- What a packet whose payload has no layout in the manual says, as the decoder of the other device numbers it (assumption log 23); the
packets that never leave a device say nothing. -/
def bodyShape : Body → List Nat
  | .deviceArrival bar dev => [1, bar, dev]
  | .groupRelease bar gen => [2, bar, gen.toNat]
  | .streamReset site => [3, site]
  | .unitLost c => [4, c]
  | .memReq _ _ (.load n) => [5, n]
  | .memReq _ _ (.amo op n b c) => [7, op.val, n, b.toNat, c.toNat]
  | .memReply _ _ (.data v) => [8, v.toNat]
  | .memReply _ _ .done => [9]
  | .memReply _ _ (.fault code a) => [10, code, a]
  | .memReply _ _ (.poisoned v a) => [11, v.toNat, a]
  | .eventSet t bits => [12, t.val, bits.toNat]
  | .gruStatus ring tag status => [13, ring.val, tag, status]
  | .hodAck _ _ (.fault code a) => [14, code, a]
  | _ => []

/-- The bytes of a read request of 17 Table 17.3: the length, then zeros. -/
def readPayload (n : Nat) : List Byte := leBytes 2 n ++ List.replicate 6 0

/-- The payload of a packet. -/
def payloadBytes : Body → List Byte
  | .memReq _ _ (.store d) => d
  | .hodWrite _ _ d => d
  | .hodData _ _ (.bytes d _) => d
  | .gruReq _ _ _ _ d => d
  | .chanReq _ _ _ _ d _ => d
  | .chanReply _ _ _ _ _ d => d
  | .coll _ _ _ _ d => d
  | .hostMsg _ d => d
  | .imgPacket _ d => d
  | .other _ d => d
  | .hodRead _ _ n => readPayload n
  | .chanNack _ _ _ reason => BitVec.ofNat 8 reason :: List.replicate 15 0
  | .errRec ws => ws.flatMap (fun w => bytesOf w 8)
  | .grant lock cluster orphan thid gseq _ => grantBytes lock cluster orphan thid gseq
  | b => (List.range (bodyLen b)).map (Config.wireEncode (bodyShape b))

/-- Bytes followed by zeros up to a length. -/
def padTo (n : Nat) (bs : List Byte) : List Byte := bs ++ List.replicate (n - bs.length) 0

/-- OPC and payload on a link: every read and write request has its form of Table 17.3 at the host-facing one. -/
def linkForm (host : Bool) (b : Body) : Nat × List Byte :=
  match b with
  | .memReq _ _ (.load n) => if host then (0x40, readPayload n) else (bodyOpc b, payloadBytes b)
  | .memReq _ _ (.store d) => if host then (0x42, d) else (bodyOpc b, d)
  | _ => (bodyOpc b, payloadBytes b)

/-- A packet's bytes on a link: its header, its payload, zeros up to a multiple of 8 B; the device mask leads a multicast, whose payload has
the length that LEN gives. Its cluster mask names every cluster (DESIGN CHOICE, assumption log 84). -/
def linkPacket (host : Bool) (p : Packet) : List Byte :=
  match p.body with
  | .devMulti mask inner =>
    let q := { p with mc := some allClusters, body := inner }
    bytesOf mask 64 ++ headerBytes q ++ padTo (64 * packetFlits q - 32) (payloadBytes inner)
  | b =>
    let f := linkForm host b
    BitVec.ofNat 8 f.1 :: (headerBytes p).drop 1 ++ padTo ((bodyLen b + 7) / 8 * 8) f.2

/-- Data flits and control flits that a packet fills (assumption log 17). -/
def dataFlits (p : Packet) : Nat := ((linkPacket false p).length + 231) / 232
def ctrlFlits (p : Packet) : Nat := ((linkPacket false p).length + 47) / 48

/-! ### Flits (16 R412, R415, R417, R419) -/

/-- CRC-64 of flits (16 R412), most significant bit first. -/
def crc64Byte (c : BitVec 64) (b : Byte) : BitVec 64 :=
  foldN 8 (fun _ (x : BitVec 64) => if x.getLsbD 63 then (x <<< 1) ^^^ 0x42F0E1EBA9EA3693#64 else x <<< 1)
    (c ^^^ (b.setWidth 64 <<< 56))

/-- The same with every byte and the register taken least significant bit first. -/
def crc64ByteR (c : BitVec 64) (b : Byte) : BitVec 64 :=
  foldN 8 (fun _ (x : BitVec 64) => if x.getLsbD 0 then (x >>> 1) ^^^ 0xC96C5795D7870F42#64 else x >>> 1) (c ^^^ b.setWidth 64)

def crc64 (bs : List Byte) : BitVec 64 :=
  ~~~ (bs.foldl (if Config.crcReflected then crc64ByteR else crc64Byte) (BitVec.allOnes 64))

/-- The bytes of a data flit and of a control flit, with their CRC. -/
def dataFlitBytes (f : Flit) : List Byte :=
  let bs := bytesOf f.w0 8 ++ bytesOf f.w1 8 ++ padTo 232 f.body
  bs ++ bytesOf (crc64 bs) 8
def ctrlFlitBytes (f : Flit) : List Byte :=
  let bs := bytesOf f.w0 8 ++ padTo 48 f.body
  bs ++ bytesOf (crc64 bs) 8

/-- Credits that the next header returns, at most `most` of the first class owed, and what is left to return. -/
def takeOwed (most : Nat) : Map Nat → (Nat × Nat) × Map Nat
  | [] => ((0, 0), [])
  | (c, n) :: r => if n ≤ most then ((c, n), r) else ((c, most), (c, n - most) :: r)

/-- The acknowledgement of a header: the last number accepted, all ones where none has been. -/
def ackNumber (l : LinkSeq) : Nat := (l.accepted.getD (BitVec.allOnes 16)).toNat

/-- A flit leaves on the data link with the acknowledgement and the credits of its header: `w0` holds the other fields of word 0. -/
def emitData (w0 : Word) (nak : Bool) (body : List Byte) (q : Port) : Flit × Port :=
  let a := takeOwed 1023 q.data.owed
  let b := takeOwed 1023 a.2
  let f : Flit := ⟨w0 ||| mk 15 0 (ackNumber q.data),
    bitAt 63 q.data.accepted.isSome ||| bitAt 62 nak ||| mk 59 56 a.1.1 ||| mk 55 46 a.1.2 ||| mk 45 42 b.1.1 ||| mk 41 32 b.1.2, body⟩
  (f, { q with data := { q.data with owed := b.2 }, dataOut := f :: q.dataOut })

/-- A flit leaves on the control link. -/
def emitCtrl (w : Word) (nak : Bool) (body : List Byte) (q : Port) : Flit × Port :=
  let back := fun c => min 32 (mget q.ctrl.owed c 0)
  let left := fun c => mget q.ctrl.owed c 0 - back c
  let f : Flit := ⟨w ||| bitAt 54 q.ctrl.accepted.isSome ||| bitAt 53 nak ||| mk 52 47 (back 0) ||| mk 46 41 (back 1) |||
    mk 15 0 (ackNumber q.ctrl), 0, body⟩
  (f, { q with ctrl := { q.ctrl with owed := ([0, 1].filter (fun c => left c != 0)).map (fun c => (c, left c)) }, ctrlOut := f :: q.ctrlOut })

/-- IDLE flits: no packet begins in them. -/
def emitIdle (nak : Bool) (q : Port) : Port := (emitData (mk 46 42 31) nak [] q).2
def emitCtrlIdle (nak : Bool) (q : Port) : Port := (emitCtrl (mk 61 58 15) nak [] q).2

/-- An LM message leaves (16 Table 16.7): its code and what follows it. CAP gives its own first byte. -/
def sendLm (code : Nat) (body : List Byte) (q : Port) : Port :=
  let b := padTo 48 (if code = 1 then body else BitVec.ofNat 8 code :: body)
  { (emitCtrl (mk 63 62 3 ||| mk 61 58 15) false b q).2 with lmOut := (code, body) :: q.lmOut }

/-- What is owed and what has been accepted goes to the partner in IDLE flits. -/
def emitAcks (q : Port) : Port := foldN 4 (fun _ r => if r.data.owed = [] then r else emitIdle false r) (emitIdle false q)
def emitCtrlAcks (q : Port) : Port := foldN 4 (fun _ r => if r.ctrl.owed = [] then r else emitCtrlIdle false r) (emitCtrlIdle false q)

/-- The port carries data packets (16 Table 16.6; 19 R501: RECOVER counts as down). -/
def portUp (q : Port) : Bool := q.present && !q.fenced && !q.isolated && q.state == .active

/-- The data link carries flits: those queued before a drain began are still sent (16 R431). -/
def portCarries (q : Port) : Bool := portUp q || (q.present && !q.fenced && !q.isolated && q.state == .draining)

/-- The control link carries MGMT packets once the link has become ACTIVE, or, while the loader is in AWAITING, once CAP has been
exchanged (18 R471); sleep, draining and RECOVER keep it up. -/
def portCtrlUp (q : Port) : Bool :=
  q.present && !q.fenced && !q.isolated &&
  (match q.state with
   | .active | .sleep | .recover | .draining => q.ctlLock
   | .exchange => q.ctlLock && q.capSeen && q.capAcked
   | .dtrain | .dcheck => q.ctlLock && q.waking
   | _ => false)

/-- A credit for a flit of class `cc`: a reserved one, else a shared one where the class may use them (16 R417). It tells whether it is
shared. -/
def takeCredit (cr : Map Nat) (cc : Nat) : Option (Bool × Map Nat) :=
  let own := mget cr cc 0
  let shared := mget cr 9 0
  if 0 < own then some (false, mset cr cc (own - 1))
  else if (cc = 0 || cc = 1 || cc = 6 || cc = 8) && 0 < shared then some (true, mset cr 9 (shared - 1))
  else none

/-- Does a packet travel behind a device mask? -/
def masked (p : Packet) : Bool := match p.body with | .devMulti _ _ => true | _ => false

/-- Fields of the header of flit k of a packet, but for those of `emitData` (16 Table 16.2): a packet begins in its first flit. -/
def dataHead (p : Packet) (len k : Nat) (shared : Bool) (seq : BitVec 16) : Word :=
  mk 63 62 1 ||| mk 61 58 (creditClass p) ||| bitAt 57 (masked p) ||| bitAt 56 (k == 0 && p.ce) ||| mk 55 47 (if masked p then 0 else p.ddev) |||
  mk 46 42 (if k = 0 then 0 else 31) ||| mk 41 37 (min 29 (len / 8 - 29 * k)) ||| bitAt 36 shared ||| mk 31 16 seq.toNat

/-- Flit k of a packet is sent: it takes a credit and a number, and stays in the replay buffer; none while it may not be. -/
def sendData (host : Bool) (e : Queued) (q : Port) : Option Port :=
  if !portCarries q || 1024 ≤ q.sent.length then none
  else match takeCredit q.data.credits (creditClass e.pkt) with
    | none => none
    | some (shared, cr) =>
      let bs := linkPacket host e.pkt
      let r := emitData (dataHead e.pkt bs.length e.sent shared q.data.sendNext) false (padTo 232 ((bs.drop (232 * e.sent)).take 232)) q
      some { r.2 with data := { r.2.data with credits := cr, sendNext := q.data.sendNext + 1 },
                      sent := q.sent ++ [⟨q.data.sendNext, r.1, some e.pkt⟩] }

/-- A sequenced flit of the control link: kind 1 MGMT under class 0 of its credits, kind 2 HCTL under class 1. -/
def sendCtrl (kind first fill : Nat) (body : List Byte) (pkt : Option Packet) (q : Port) : Option Port :=
  let cr := mget q.ctrl.credits (kind - 1) 0
  if !portCtrlUp q || 128 ≤ q.ctrlSent.length || cr = 0 then none
  else
    let r := emitCtrl (mk 63 62 kind ||| mk 61 58 first ||| mk 57 55 fill ||| mk 31 16 q.ctrl.sendNext.toNat) false body q
    some { r.2 with ctrl := { r.2.ctrl with credits := mset r.2.ctrl.credits (kind - 1) (cr - 1), sendNext := q.ctrl.sendNext + 1 },
                    ctrlSent := q.ctrlSent ++ [⟨q.ctrl.sendNext, r.1, pkt⟩] }

/-- Flit k of a MGMT packet. -/
def sendMgmt (e : Queued) (q : Port) : Option Port :=
  let bs := linkPacket false e.pkt
  sendCtrl 1 (if e.sent = 0 then 0 else 15) (min 6 (bs.length / 8 - 6 * e.sent)) (padTo 48 ((bs.drop (48 * e.sent)).take 48)) (some e.pkt) q

/-! ### The output of a port (16 R422, 12 R319) -/

def isMgmt (e : Queued) : Bool := e.pkt.cls == 5

/-- Rank of a credit class, the lowest first; FWD and REQ that have waited through 31 flits go before RSP and COLL. -/
def ccRank (q : Port) (cc : Nat) : Nat :=
  if cc = 0 then 0
  else if 6 ≤ cc && 31 ≤ mget q.waited cc 0 then (if cc ≤ 7 then 1 else 2)
  else if cc = 1 then 3 else if cc < 6 then 4 else if cc < 8 then 5 else 6

/-- The entry that heads its credit class on the data link and has a credit. -/
def readyEntry (q : Port) (e : Queued) : Bool :=
  !isMgmt e && (takeCredit q.data.credits (creditClass e.pkt)).isSome &&
  (q.queue.find? (fun f => !isMgmt f && creditClass f.pkt == creditClass e.pkt)).map (·.pkt.id) == some e.pkt.id

/-- The data flit that goes next. -/
def nextEntry (q : Port) : Option Queued :=
  (q.queue.filter (readyEntry q)).foldl (fun b e => match b with
    | some x => if ccRank q (creditClass e.pkt) < ccRank q (creditClass x.pkt) then some e else some x
    | none => some e) none

/-- One more flit of an entry has been sent; an entry with none left goes. -/
def advanceEntry (e : Queued) (whole : Nat) (l : List Queued) : List Queued :=
  if whole ≤ e.sent + 1 then l.filter (fun f => f.pkt.id != e.pkt.id)
  else l.map (fun f => if f.pkt.id == e.pkt.id then { f with sent := f.sent + 1 } else f)

/-- A flit of class `cc` has been sent: the FWD and REQ classes that were ready have waited through it. -/
def noteFlit (cc : Nat) (q : Port) (w : Map Nat) : Map Nat :=
  [6, 7, 8].foldl (fun m c =>
    if c ≠ cc && q.queue.any (fun f => readyEntry q f && creditClass f.pkt == c) then mset m c (min 31 (mget m c 0 + 1)) else mdel m c) w

/-- Data flits as far as credits and the replay buffer allow. -/
def pumpData (host : Bool) : Nat → Port → Port
  | 0, q => q
  | n + 1, q =>
    match nextEntry q with
    | none => q
    | some e => match sendData host e q with
      | none => q
      | some r => pumpData host n { r with queue := advanceEntry e (dataFlits e.pkt) r.queue, waited := noteFlit (creditClass e.pkt) q q.waited }

/-- MGMT flits, oldest first. -/
def pumpMgmt : Nat → Port → Port
  | 0, q => q
  | n + 1, q =>
    match q.queue.find? isMgmt with
    | none => q
    | some e => match sendMgmt e q with
      | none => q
      | some r => pumpMgmt n { r with queue := advanceEntry e (ctrlFlits e.pkt) r.queue }

/-- Host-control flits, oldest first. -/
def pumpHctl : Nat → Port → Port
  | 0, q => q
  | n + 1, q =>
    match q.hctl with
    | [] => q
    | m :: rest => match sendCtrl 2 0 6 m none q with
      | none => q
      | some r => pumpHctl n { r with hctl := rest }

/-- Send what waits at a port. On the control link MGMT goes before host control (DESIGN CHOICE, assumption log 84). -/
def pumpPort (n : Nat) (s : State) : State :=
  let host := decide (hostPort s = some n)
  modPort n (fun q =>
    let flits := (q.queue.map (fun e => dataFlits e.pkt + ctrlFlits e.pkt)).foldl (· + ·) 0
    pumpHctl q.hctl.length (pumpMgmt flits (pumpData host flits q))) s

/-- A sleeping data link wakes: PWR with ACTIVE goes to the partner, and DTRAIN begins (16 R432). -/
def wakePort (q : Port) : Port := sendLm 7 [0] { q with state := .dtrain, waking := true, recTrained := false, lm := q.lm ++ [.pwr false] }

/-- The unacknowledged flits go out again in order (16 R420). -/
def resendFlits (ctrl : Bool) (q : Port) : Port :=
  if ctrl then { q with ctrlOut := (q.ctrlSent.map (·.flit)).reverse ++ q.ctrlOut }
  else { q with dataOut := (q.sent.map (·.flit)).reverse ++ q.dataOut }

end Sys2Proof.Machine
end

