-- ==== Sys2Proof/Machine/Mesh.lean ====
section
/-! DEFINITION. The Mortar mesh (12): how a router routes, copies, discards and delivers packets, its streams, and the hand-over of
packets to a Gofin port (16 R416 to R422, 17 R436, R455). -/

namespace Sys2Proof.Machine

open Sys2Proof

/-! ### Discards (12 R331) -/

/-- UNREACHABLE goes back to the source of a packet. -/
def sendUnreachable (router : Nat) (p : Packet) (s : State) : State :=
  inject { replyTo s p (.unreachable p.body) with ssite := router, at_ := router, ece := false } s

/-- What the router tells the sender of a barrier arrival or a watch whose unit it cannot reach (15 R398, Table 15.9). GEN of the answer to
an arrival is not stated: a free value. -/
def answerAbsent (router : Nat) (p : Packet) (s : State) : State :=
  match p.body with
  | .arrive b _ _ wait t =>
    let one : BitVec 4 := 1#4 <<< t.val
    let g := drawFree 16 s
    sendSync router p.ssite 0 .machine (.notice (clusterOf p.dsite) b g.1 6 (if wait then one else 0) (if wait then 0 else one)) g.2
  | .watchReg handle _ _ t => sendSync router p.ssite 0 .machine (.watchMsg 6 0 handle t) s
  | _ => s

/-- A packet with no route is discarded: REQ and FWD draw UNREACHABLE, any other class posts a record. -/
def discardAt (router : Nat) (p : Packet) (s : State) : State :=
  let s1 := dropPacket p.id s
  if p.mc.isNone && (p.cls = 3 || p.cls = 4) then sendUnreachable router p s1
  else
    let s2 := answerAbsent router p (postRecord 1 .router 0x31 router p.inPort 0 (headerWord0 p).toNat s1)
    match syncParty p with
    | some (x, t) => wakeSync x t s2
    | none => s2

/-! ### Hand-over to a Gofin port -/

/-- The link at a port takes a packet from the mesh: a sleeping link does, and wakes. -/
def portTakes (q : Port) (p : Packet) : Bool :=
  if p.cls = 5 then portCtrlUp q
  else portUp q || (q.present && !q.fenced && !q.isolated && (q.state == .sleep || ((q.state == .dtrain || q.state == .dcheck) && q.waking)))

/-! ### The host bridge, outbound (17 R455, R459) -/

/-- Field of a window register (08 Table 8.5 layout): does it hold `n` bytes at `a`? -/
def winHolds (w : Word) (a n : Nat) : Bool :=
  let base := fld w 47 12 * 4096
  decide (base ≤ a) && decide (a + n ≤ base + 2 ^ fld w 55 50)

/-- Host address of a bridge address, or none where no window grants the access. -/
def bridgeTranslate (s : State) (a n : Nat) (write : Bool) : Option Nat :=
  match firstBit 16 (fun w => let r := mget s.grp.hwin w 0
      (bit r 63 || bit r 62) && winHolds r a 1) with
  | some w =>
    let r := mget s.grp.hwin w 0
    if winHolds r a n && (if write then bit r 62 else bit r 63) then
      some ((mget s.grp.haddr w 0).toNat + (a - fld r 47 12 * 4096))
    else none
  | none => none

/-- Addresses of the host's doorbells, which pass untranslated (17 R455): e = 0 to 7, and k below 64 (14 R369). -/
def hostDoorbell (a : Nat) : Bool :=
  decide (0x600000003000 ≤ a) && decide (a < 0x600000004000) &&
  (if a < 0x600000003800 then a % 0x100 == 0 else decide (a % 0x100 < 64))

/-- What a request through the bridge moves: bytes, and whether it writes; none for what the link does not carry. -/
def bridgeAccess : Body → Option (Nat × Bool)
  | .memReq _ _ (.load n) => some (n, false)
  | .memReq _ _ (.store d) => some (d.length, true)
  | .hodRead _ _ n => some (n, false)
  | .hodWrite _ _ d => some (d.length, true)
  | _ => none

/-- What the bridge remembers of a request: its requester, stream and tag. -/
def bridgeKey (p : Packet) : Nat × Nat × Nat × Nat := (p.sdev, p.ssite, p.strm, bodyTag p.body)

/-- What the reply to a request is known by. -/
def bridgeReplyKey (p : Packet) : Nat × Nat × Nat × Nat := (p.ddev, p.dsite, p.strm, bodyTag p.body)

/-- A packet for the host at the host-facing port: translated and forwarded, or refused (17 R455). -/
def bridgeOut (s : State) (p : Packet) : Option Packet :=
  if p.cls = 1 then some p
  else if s.grp.hctl.gate ≠ .on then none
  else if hostDoorbell p.addr then some p
  else match bridgeAccess p.body with
    | some (n, w) => match bridgeTranslate s p.addr n w with
      | some h => some { p with haddr := h }
      | none => none
    | none => none

/-- A packet as its source sent it: not marked, not on the escape channel, at its source. -/
def asSent (p : Packet) : Packet := { p with at_ := p.ssite, inPort := 0, hops := 0, ce := false, esc := false, delivered := false }

/-- The source of a stream packet that leaves the device keeps it until it is answered, since the router of another device may
refuse it (12 R329). -/
def keepForResend (p : Packet) (s : State) : State :=
  if p.sdev = ownDev s && counted p then
    modRouter p.ssite (fun r => { r with resend := r.resend ++ [(asSent p, none)] }) s
  else s

/-- A packet leaves the mesh at a port node. -/
def handToPort (n : Nat) (p : Packet) (s : State) : State :=
  let q := getPort s n
  if !portTakes q p then discardAt (portSite n) p s
  else
    let host := p.ddev = 511 && hostPort s = some n
    match (if host then bridgeOut s p else some p) with
    | none =>
      { discardAt (portSite n) p s with grp := { s.grp with refout := if s.grp.refout = 0xFFFF then s.grp.refout else s.grp.refout + 1 } }
    | some p' =>
      let s1 := dropPacket p.id s
      let s2 := if host && (p.cls = 3 || p.cls = 4) then { s1 with grp := { s1.grp with bridge := bridgeKey p :: s1.grp.bridge } }
        else if host && isReply p.body then { s1 with grp := { s1.grp with bridge := s1.grp.bridge.erase (bridgeReplyKey p) } } else s1
      let held := ((q.queue.filter (fun x => creditClass x.pkt == creditClass p)).map (fun x => dataFlits x.pkt - x.sent)).foldl (· + ·) 0
      let mark := decide ((getRouter s p.at_).mark.toNat ≤ held)
      let p'' := if (p.cls = 3 || p.cls = 4) && mark then { p' with ce := true } else p'
      -- a packet for a sleeping link wakes it (16 R432)
      let s3 := if p.cls ≠ 5 && q.state = .sleep then modPort n wakePort s2 else s2
      pumpPort n (modPort n (fun q => { q with queue := q.queue ++ [⟨p'', 0⟩] }) (keepForResend p s3))

/-! ### Routing (12 R322 to R324, R334) -/

def entryValid (e : BitVec 16) : Bool := e.getLsbD 15
def entryPri (e : BitVec 16) : Nat := e.toNat / 4096 % 8
def entryAlt (e : BitVec 16) : Nat := e.toNat / 512 % 8
def entryAen (e : BitVec 16) : Bool := e.getLsbD 8
def entryEsc (e : BitVec 16) : Nat := e.toNat / 32 % 8

/-- The link at a router port is up (replaying counts as up); LOCAL is always there. -/
def linkUp (r : Router) (p : Nat) : Bool := p = 0 || (mget r.link p 0 == 1) || (mget r.link p 0 == 2)

/-- The packet after a step over the link at one port. -/
def stepOver (p : Packet) (port dst : Nat) (esc : Bool) : Packet :=
  { p with at_ := dst, inPort := oppositePort port, hops := min 127 (p.hops + 1), esc := esc }

def putPacket (p : Packet) (s : State) : State :=
  { s with packets := s.packets.map (fun q => if q.id == p.id then p else q) }

/-- A good crossing ends the replaying of a link (12 R332). -/
def linkGood (site port : Nat) (s : State) : State :=
  let good := fun (a p : Nat) (st : State) =>
    if mget (getRouter st a).link p 0 = 2 then
      modRouter a (fun r => { r with link := mset r.link p 1, replays := mdel r.replays p }) st
    else st
  match neighbour site port with
  | some d => good d (oppositePort port) (good site port s)
  | none => s

/-- Move a packet through a port of its router. -/
def moveThrough (port : Nat) (mark : Bool) (esc : Bool) (p : Packet) (s : State) : State :=
  let p1 := if mark && (p.cls = 3 || p.cls = 4) then { p with ce := true } else p
  if port = 0 then
    match portOf p.at_ with
    | some n => if p.ddev = ownDev s then putPacket { p1 with delivered := !counted p } s else handToPort n p1 s
    | none => putPacket { p1 with delivered := !counted p } s
  else match neighbour p.at_ port with
    | some d => putPacket (stepOver p1 port d esc) (linkGood p.at_ port s)
    | none => discardAt p.at_ p s

/-! ### Buffers and credits (12 R317, R318, R321) -/

/-- A packet held at its attachment because the injection gate is not ON (12 R336): REQ, FWD and COLL packets that have not left. -/
def heldAtGate (s : State) (p : Packet) : Bool :=
  p.at_ == p.ssite && p.hops == 0 && !p.delivered && p.sdev == ownDev s && (p.cls = 2 || p.cls = 3 || p.cls = 4) &&
  (getRouter s p.ssite).gate.gate != .on

/-- Flits of the buffer of a class at each input port (12 Table 12.4); FWD has its escape buffer beside it. -/
def bufferFlits (cls : Nat) (esc : Bool) : Nat :=
  match cls with
  | 0 => 2
  | 1 => 8
  | 2 => 2
  | 3 => if esc then 2 else 4
  | 4 => 8
  | _ => 2

/-- A packet stands in a buffer of the router that holds it: not handed over, not in a fence slot, not at a closed gate. -/
def buffered (s : State) (p : Packet) : Bool :=
  !p.delivered && !heldAtGate s p && !(getRouter s p.at_).slots.contains p.id

/-- COLL tree of a packet: that of the engine it goes to (17 R448). -/
def treeOf (p : Packet) : Nat := if p.cls = 2 then (engineOf p.dsite).getD 0 else 0

/-- Flits of some packets. -/
def flitsOf (l : List Packet) : Nat := (l.map packetFlits).foldl (· + ·) 0

/-- A link port has a credit for a packet, on its class or the escape channel: the buffer at the other end has room for a flit. The model
moves a packet whole once its first flit has one (DESIGN CHOICE, assumption log 83). LOCAL and SU take what comes. -/
def hasCredit (s : State) (site port : Nat) (esc : Bool) (p : Packet) : Bool :=
  port == 0 || port == 7 ||
  match neighbour site port with
  | some d =>
    decide (flitsOf (s.packets.filter (fun q => q.at_ == d && q.inPort == oppositePort port && buffered s q && q.cls == p.cls &&
      q.esc == esc && treeOf q == treeOf p)) < bufferFlits p.cls esc)
  | none => false

/-- The table entry that routes a unicast packet (12 R322). -/
def entryFor (s : State) (p : Packet) : BitVec 16 :=
  let r := getRouter s p.at_
  if p.ddev = ownDev s then mget r.siteTable p.dsite 0 else mget r.devTable p.ddev 0

/-- Flits of a packet's class that other packets of its router hold for an output port (12 R323, R335; the port is that of their
entry, DESIGN CHOICE, assumption log 83). -/
def portFlits (s : State) (p : Packet) (port : Nat) : Nat :=
  flitsOf (s.packets.filter (fun q => q.at_ == p.at_ && q.id != p.id && q.cls == p.cls && q.mc.isNone && buffered s q &&
    (if q.esc then entryEsc (entryFor s q) else entryPri (entryFor s q)) == port))

/-- A port of a COLL tree at a router: its parent port or one of its child ports (18 TREES), or LOCAL. -/
def treePort (s : State) (site tree port : Nat) : Bool :=
  port == 0 || (mget s.img.trees (8 * site + 2 * tree) 0xFF).toNat == port ||
  (mget s.img.trees (8 * site + 2 * tree + 1) 0).toNat.testBit port

/-- What a router does with a unicast packet: it is discarded, it waits for a credit, or it takes a port, on the escape channel or
not. -/
inductive Route where
  | discard
  | wait
  | go (port : Nat) (esc : Bool)
  deriving DecidableEq, Repr

/-- The LOCAL port takes the packet: at a port node, the link does. -/
def localUp (s : State) (p : Packet) : Bool :=
  match portOf p.at_ with
  | some n => p.ddev == ownDev s || portTakes (getPort s n) p
  | none => true

/-- The way of a unicast packet (12 R317, R321, R323, R324, R331). A COLL packet whose port is none of its tree's has no way
(DESIGN CHOICE, assumption log 83). -/
def routeOf (s : State) (p : Packet) : Route :=
  let r := getRouter s p.at_
  let e := entryFor s p
  let pri := entryPri e
  let alt := entryAlt e
  let esc := entryEsc e
  let up := fun q => if q = 0 then localUp s p else linkUp r q
  let free := fun q x => up q && hasCredit s p.at_ q x p
  let escape := decide (p.cls = 3) && free esc true
  if !entryValid e then .discard
  else if p.esc then (if !up esc then .discard else if free esc true then .go esc true else .wait)
  else if p.cls = 2 && !treePort s p.at_ (treeOf p) pri then .discard
  else if !up pri then
    if p.cls ≠ 2 && alt ≠ pri && up alt then (if free alt false then .go alt false else if escape then .go esc true else .wait)
    else if p.cls = 3 && up esc then (if escape then .go esc true else .wait)
    else .discard
  else if (p.cls = 1 || p.cls = 3 || p.cls = 4) && !p.ord && entryAen e && decide (p.hops < r.hmax.toNat)
      && (!free pri false || decide (r.adapt.toNat ≤ portFlits s p pri)) && free alt false
      && decide (portFlits s p alt < r.adapt.toNat) then .go alt false
  else if free pri false then .go pri false
  else if escape && !free alt false then .go esc true
  else .wait

/-! ### Output arbitration (12 R319) -/

/-- Clusters of a mask that a router's multicast table sends to a port. -/
def maskToward (r : Router) (mask : BitVec 128) (port : Nat) : BitVec 128 :=
  foldN 128 (fun c (m : BitVec 128) =>
    let e := mget r.mcTable c 0
    if mask.getLsbD c && entryValid e && entryPri e == port then m ||| (1#128 <<< c) else m) 0

/-- A packet would take an output now: it stands in a buffer of a router in service, its way leads there, and it holds a credit. -/
def wantsPort (s : State) (p : Packet) (port : Nat) : Bool :=
  (getRouter s p.at_).inService && buffered s p && !headerBad p &&
  match p.mc with
  | some mask => maskToward (getRouter s p.at_) mask port != 0 && (port == 7 || linkUp (getRouter s p.at_) port) && hasCredit s p.at_ port false p
  | none => match routeOf s p with
    | .go q _ => q == port
    | _ => false

/-- Other packets of a packet's router that would take an output now. -/
def rivals (s : State) (p : Packet) (port : Nat) : List Packet :=
  s.packets.filter (fun q => q.at_ == p.at_ && q.id != p.id && wantsPort s q port)

/-- Rank of a class at an output, the lowest first: SYNC, then a REQ, FWD or MGMT flit that has waited through 31 flits, then RSP, COLL,
FWD, REQ, MGMT. -/
def outputRank (r : Router) (port cls : Nat) : Nat :=
  if cls = 0 then 0
  else if 3 ≤ cls && 31 ≤ mget r.waited (8 * port + cls) 0 then cls
  else 8 + cls

/-- No packet that wants the output goes before this one. -/
def winsPort (s : State) (p : Packet) (port : Nat) : Bool :=
  let r := getRouter s p.at_
  (rivals s p port).all (fun q => decide (outputRank r port p.cls ≤ outputRank r port q.cls))

/-- A packet is sent at an output: the classes that wait there have waited through its flits. -/
def noteSent (p : Packet) (port : Nat) (s : State) : State :=
  let wait := fun c => c ≠ p.cls && (rivals s p port).any (fun q => q.cls == c)
  modRouter p.at_ (fun r => { r with waited := [3, 4, 5].foldl (fun m c =>
    if wait c then mset m (8 * port + c) (min 31 (mget m (8 * port + c) 0 + packetFlits p)) else mdel m (8 * port + c)) r.waited }) s

/-- One unicast routing decision. -/
def routeUnicast (p : Packet) (s : State) : State :=
  match routeOf s p with
  | .discard => discardAt p.at_ p s
  | .wait => s
  | .go port esc =>
    if winsPort s p port then
      moveThrough port (decide ((getRouter s p.at_).mark.toNat ≤ portFlits s p port + packetFlits p)) esc p (noteSent p port s)
    else s

/-- One port of a multicast packet (12 R334): the copy for its clusters leaves, is lost at a link that is down, or waits. `st.1` holds the
clusters not yet served. -/
def copyToPort (p : Packet) (st : BitVec 128 × State) (port : Nat) : BitVec 128 × State :=
  let r := getRouter st.2 p.at_
  let m := maskToward r st.1 port
  let lost := postRecord 1 .router 0x31 p.at_ p.inPort 0 (headerWord0 p).toNat st.2
  if m = 0 then st
  else if port = 7 then
    (if winsPort st.2 p port then (st.1 &&& ~~~ m, inject { p with mc := some m, dsite := p.at_, delivered := true } (noteSent p port st.2))
     else st)
  else match neighbour p.at_ port with
    | some d =>
      if !linkUp r port then (st.1 &&& ~~~ m, lost)
      else if hasCredit st.2 p.at_ port false p && winsPort st.2 p port then
        (st.1 &&& ~~~ m, inject { p with mc := some m, at_ := d, inPort := oppositePort port } (linkGood p.at_ port (noteSent p port st.2)))
      else st
    | none => (st.1 &&& ~~~ m, lost)

/-- The copies of a multicast packet (12 R334): the packet stays for the clusters whose port has no credit or serves another class
first. -/
def routeMulticast (p : Packet) (mask : BitVec 128) (s : State) : State :=
  let r := getRouter s p.at_
  let lostMask := foldN 128 (fun c (m : BitVec 128) =>
    if mask.getLsbD c && !entryValid (mget r.mcTable c 0) then m ||| (1#128 <<< c) else m) 0
  let s1 := if lostMask = 0 then s else postRecord 1 .router 0x31 p.at_ p.inPort 0 (headerWord0 p).toNat s
  let out := [1, 2, 3, 4, 5, 6, 7].foldl (copyToPort p) (mask &&& ~~~ lostMask, s1)
  if out.1 = 0 then dropPacket p.id out.2 else putPacket { p with mc := some out.1 } out.2

/-- A router routes one packet it holds (12 R315, R319, R323, R331, R334). -/
def routePacket (n : Nat) (s : State) : State :=
  match findPacket s n with
  | none => s
  | some p =>
    if p.delivered then s
    else if !(getRouter s p.at_).inService || heldAtGate s p then s
    else if headerBad p then
      postRecord 1 .router 0x30 p.at_ p.inPort 0 (headerWord0 p).toNat (dropPacket n s)
    else match p.mc with
      | some mask => routeMulticast p mask s
      | none => routeUnicast p s

def execPacketRoute (pkt : Nat) (router : Site) (s : State) : Host.Outcome State Fault Refusal :=
  .next (match findPacket s pkt with
    | some p => if p.at_ = router.val then routePacket pkt s else s
    | none => s)

/-! ### Streams (12 R327 to R330) -/

def streamKey (p : Packet) : StreamKey := (p.sdev, p.ssite, p.strm, p.seq)
def nextKey (k : StreamKey) : StreamKey := (k.1, k.2.1, k.2.2.1, k.2.2.2 + 1)

def counterGet (l : List (StreamKey × Nat)) (k : StreamKey) : Option Nat := (l.find? (fun e => e.1 == k)).map (·.2)
def counterDel (l : List (StreamKey × Nat)) (k : StreamKey) : List (StreamKey × Nat) := l.filter (fun e => e.1 != k)

/-- Increment a counter, allocating it at 0; none where all 32 are in use. -/
def counterInc (l : List (StreamKey × Nat)) (k : StreamKey) : Option (List (StreamKey × Nat)) :=
  match counterGet l k with
  | some n => some (l.map (fun e => if e.1 == k then (k, n + 1) else e))
  | none => if l.length < 32 then some (l ++ [(k, 1)]) else none

/-- A flagged packet is delivered: its counter is freed and the next window's counts it (12 R328 item 3). -/
def passFlagged (p : Packet) (l : List (StreamKey × Nat)) : List (StreamKey × Nat) :=
  let l1 := counterDel l (streamKey p)
  (counterInc l1 (nextKey (streamKey p))).getD l1

/-- Deliver from the fence slots every flagged packet whose counter holds its CNT, again and again up to the number of slots. -/
def releaseSlots : Nat → Nat → State → State
  | 0, _, s => s
  | fuel + 1, site, s =>
    let r := getRouter s site
    match r.slots.find? (fun n => match findPacket s n with
        | some p => counterGet r.counters (streamKey p) == some p.cnt
        | none => false) with
    | some n =>
      match findPacket s n with
      | some p =>
        releaseSlots fuel site (putPacket { p with delivered := true }
          (modRouter site (fun r => { r with slots := r.slots.erase n, counters := passFlagged p r.counters }) s))
      | none => s
    | none => s

/-- The router refuses a stream packet: STRBUSY to the source, which keeps the packet (12 R329). -/
def refuseStream (p : Packet) (s : State) : State :=
  let s1 := modRouter p.at_ (fun r => { r with busy := if r.busy = BitVec.allOnes 32 then r.busy else r.busy + 1 }) (dropPacket p.id s)
  let s2 := if p.sdev = ownDev s then
      modRouter p.ssite (fun r => { r with resend := r.resend ++ [(asSent p, none)] }) s1
    else s1
  inject { replyTo s p (.strbusy p.id (bodyTag p.body)) with ssite := p.at_, at_ := p.at_, ece := false } s2

/-- A stream packet that has come to its site's router is counted and delivered, held, or refused (12 R328, R329). -/
def deliverStream (n : Nat) (s : State) : State :=
  match findPacket s n with
  | none => s
  | some p =>
    let r := getRouter s p.at_
    if p.delivered || !counted p || p.at_ ≠ p.dsite || p.ddev ≠ ownDev s || r.slots.contains n then s
    else if !p.ord then
      match counterInc r.counters (streamKey p) with
      | some l => releaseSlots 9 p.at_ (putPacket { p with delivered := true } (modRouter p.at_ (fun r => { r with counters := l }) s))
      | none => refuseStream p s
    else
      let count := (counterGet r.counters (streamKey p)).getD 0
      if count = p.cnt then
        let l1 := counterDel r.counters (streamKey p)
        match counterInc l1 (nextKey (streamKey p)) with
        | some l => releaseSlots 9 p.at_ (putPacket { p with delivered := true } (modRouter p.at_ (fun r => { r with counters := l }) s))
        | none => refuseStream p s
      else if r.slots.length < 8 then modRouter p.at_ (fun r => { r with slots := r.slots ++ [n] }) s
      else refuseStream p s

def execStreamDelivery (pkt : Nat) (s : State) : Host.Outcome State Fault Refusal := .next (deliverStream pkt s)

/-- STRBUSY reaches the source: the packet may be sent again 64 pace counts later (12 R329). -/
def strbusyReply (n : Nat) (s : State) : State :=
  match arrived s n with
  | some p =>
    match p.body with
    | .strbusy k _ =>
      let due := (paceOf s p.dsite).toNat + 64
      modRouter p.dsite (fun r => { r with resend := r.resend.map (fun e => if e.1.id == k then (e.1, some due) else e) })
        (dropPacket n s)
    | _ => s
  | none => s

def execStrbusyReply (pkt : Nat) (s : State) : Host.Outcome State Fault Refusal := .next (strbusyReply pkt s)

/-- A refused packet is sent again unchanged. -/
def strbusyResend (site n : Nat) (s : State) : State :=
  match (getRouter s site).resend.find? (fun e => e.1.id == n) with
  | some (p, some due) =>
    if due ≤ (paceOf s site).toNat then
      let s1 := modRouter site (fun r => { r with resend := r.resend.filter (fun e => e.1.id != n) }) s
      { s1 with packets := s1.packets ++ [{ p with delivered := false }] }
    else s
  | _ => s

def execStrbusyResend (site : Site) (pkt : Nat) (s : State) : Host.Outcome State Fault Refusal :=
  .next (strbusyResend site pkt s)

/-- A router forgets the streams of a source (12 R330): counters freed, flagged packets in fence slots discarded. `strm` names one
stream, and then each discarded packet draws UNREACHABLE (17 R443). -/
def resetStreams (site dev src : Nat) (strm : Option Nat) (s : State) : State :=
  let r := getRouter s site
  let hit := fun (d st m : Nat) => d == dev && st == src && (match strm with | some x => m == x | none => true)
  let gone := r.slots.filterMap (fun n => match findPacket s n with
    | some p => if hit p.sdev p.ssite p.strm then some p else none
    | none => none)
  let s1 := modRouter site (fun r => { r with
    counters := r.counters.filter (fun e => !hit e.1.1 e.1.2.1 e.1.2.2.1),
    slots := r.slots.filter (fun n => !(gone.any (fun p => p.id == n))) }) s
  gone.foldl (fun st p => let st1 := dropPacket p.id st
                          if strm.isSome then sendUnreachable site p st1 else st1) s1

/-- The stream-reset notice (12 R330, 17 R442, R443): the designated unit distributes one from another device, a synchronisation unit hands it to every router of its cluster, and a notice
for one stream acts at the destination's router. -/
def streamResetNotice (n : Nat) (s : State) : State :=
  match arrived s n with
  | some p =>
    match p.body with
    | .streamReset src =>
      let s1 := dropPacket n s
      if p.sdev ≠ ownDev s && p.strm = 0xF && p.mc.isNone then
        inject { mkPacket s1 0 .machine p.dsite p.dsite 0 (.streamReset src) with sdev := p.sdev, mc := some allClusters } s1
      else if p.strm = 0xF then (clusterSites (clusterOf p.dsite)).foldl (fun st x => resetStreams x p.sdev src none st) s1
      else resetStreams p.dsite p.sdev src (some p.strm) s1
    | _ => s
  | none => s

def execStreamResetNotice (pkt : Nat) (s : State) : Host.Outcome State Fault Refusal := .next (streamResetNotice pkt s)

/-! ### Link errors and congestion (12 R332, R335) -/

/-- Both routers of a link mark it down and record it (12 R332). -/
def linkDown (site port : Nat) (s : State) : State :=
  let mark := fun (a p : Nat) (st : State) =>
    postRecord 4 .router 0x32 a p 0 0
      (modRouter a (fun r => { r with link := mset r.link p 3, downs := if r.downs = 0xFFFF then r.downs else r.downs + 1,
                                      replays := mdel r.replays p })
        { st with mgt := { st.mgt with linkDowns := (a, st.aoc) :: st.mgt.linkDowns } })
  match neighbour site port with
  | some d => mark d (oppositePort port) (mark site port s)
  | none => s

/-- A flit fails its CRC at a port (12 R332): both ends replay. `replay` says that the flit was itself a replay, and the eighth failed
replay of one flit marks the link down. -/
def crcError (site port : Nat) (replay : Bool) (s : State) : State :=
  let r := getRouter s site
  if linkUp r port && port ≠ 0 && port ≠ 7 then
    let n := if replay then mget r.replays port 0 + 1 else 0
    let s1 := modRouter site (fun r => { r with
      crcerr := if r.crcerr = BitVec.allOnes 32 then r.crcerr else r.crcerr + 1,
      replays := mset r.replays port n, link := mset r.link port 2 }) s
    let s2 := match neighbour site port with
      | some d => modRouter d (fun r => if linkUp r (oppositePort port) then { r with link := mset r.link (oppositePort port) 2 } else r) s1
      | none => s1
    if n = 8 then linkDown site port s2 else s2
  else s

def execMeshFlitCrcError (site : Site) (port : Fin 8) (replay : Bool) (s : State) : Host.Outcome State Fault Refusal :=
  .next (crcError site port replay s)

/-- A reply with ECE = 1 lowers the injection rate (12 R335). The 64 steps since the last decrease are time (assumption log 15). -/
def echoRate (site : Nat) (s : State) : State :=
  modRouter site (fun r => { r with rate := max r.minrate.toNat (r.rate - r.rate / 8) }) s

/-- RECOV steps without an echo raise the rate by 8. -/
def rateRecover (site : Nat) (s : State) : State := modRouter site (fun r => { r with rate := min 256 (r.rate + 8) }) s

def execInjectionRateRecover (site : Site) (s : State) : Host.Outcome State Fault Refusal := .next (rateRecover site s)

/-- A reply answers a stream packet that its source keeps. -/
def answers : Body → Body → Bool
  | .hodAck _ a _, .hodWrite _ b _ => a == b
  | .hodData _ a _, .hodRead _ b _ => a == b
  | .gruStatus _ a _, .gruReq _ b _ _ _ => a == b
  | .chanAck a _ t, .chanReq _ b u _ _ _ => a == b && t == u
  | .chanAck a _ t, .chanReply _ _ b u _ _ => a == b && t == u
  | .chanNack a _ t _, .chanReq _ b u _ _ _ => a == b && t == u
  | .chanNack a _ t _, .chanReply _ _ b u _ _ => a == b && t == u
  | .unreachable a, b => a == b
  | _, _ => false

/-- An answered packet that left the device is no longer kept. -/
def forgetSent (p : Packet) (s : State) : State :=
  if p.sdev = ownDev s then s
  else modRouter p.dsite (fun r => { r with resend := r.resend.filter (fun e => !(e.2.isNone && answers p.body e.1.body)) }) s

/-- A reply that an attachment takes: its echo acts on the site's injection rate. -/
def acceptReply (p : Packet) (s : State) : State :=
  let s1 := forgetSent p (dropPacket p.id s)
  if p.ece then echoRate p.dsite s1 else s1

/-- MSH_ERR.CLR. -/
def mshErrClear (site : Nat) (s : State) : State := modRouter site (fun r => { r with crcerr := 0, downs := 0 }) s

def execMshErrClr (site : Site) (s : State) : Host.Outcome State Fault Refusal := .next (mshErrClear site s)

/-! ### The injection gate (12 R336, 19 Table 19.12) -/

/-- An EN write under the pending-enable rule; `start` tells whether an enable from OFF succeeds (19 Table 19.12). -/
def enableWrite (en start : Bool) (e : Enable) : Enable :=
  match e.gate with
  | .off => if en then (if start then ⟨true, false, .on⟩ else ⟨false, false, .off⟩) else ⟨false, false, .off⟩
  | .on => if en then e else ⟨false, false, .draining⟩
  | .draining => if en then ⟨true, true, .draining⟩ else ⟨false, false, .draining⟩

/-- The drain completes: OFF, or the pending enable starts. -/
def drainDone (start : Bool) (e : Enable) : Enable :=
  match e.gate with
  | .draining => if e.pend then (if start then ⟨true, false, .on⟩ else ⟨false, false, .off⟩) else ⟨false, false, .off⟩
  | _ => e

/-- A request that awaits its reply is still held at the gate. -/
def stillHeld (s : State) (f : Body → Bool) : Bool := s.packets.any (fun p => heldAtGate s p && f p.body)

def isMemReq (req : Nat) : Body → Bool
  | .memReq r _ _ => r == req
  | _ => false
def isChanSend (seq : Nat) (t : Fin 4) : Body → Bool
  | .chanReq _ q u _ _ _ => q == seq && u == t
  | .chanReply _ _ q u _ _ => q == seq && u == t
  | _ => false
def isHodTag (tag : Nat) : Body → Bool
  | .hodRead _ g _ => g == tag
  | .hodWrite _ g _ => g == tag
  | _ => false

/-- A thread awaits no reply, but for requests held at the gate. -/
def threadQuiet (s : State) (th : Thread) (t : Fin 4) : Bool :=
  (th.loads ++ th.stores).all (fun o => stillHeld s (isMemReq o.req)) &&
  th.comm.sends.all (fun m => stillHeld s (isChanSend m.seq t))

/-- A packet stands in a buffer of a site's router and goes to or comes from its attachment. One in a fence slot holds no router
buffer (12 R328), and one at a closed gate is still at the attachment. -/
def buffersFor (s : State) (site : Nat) (p : Packet) : Bool :=
  p.at_ == site && ((p.ssite == site && p.sdev == ownDev s) || (p.dsite == site && p.ddev == ownDev s)) &&
  p.mc.isNone && !p.delivered && !heldAtGate s p && !(getRouter s site).slots.contains p.id

/-- A core's caches await no line (09 R263), and no thread of it a word that it fetches. -/
def fillsQuiet (s : State) (c : Core) : Bool :=
  [c.caches.icache, c.caches.rlc, c.caches.l2].all (fun x => x.misses.all (fun m => stillHeld s (isMemReq m.req))) &&
  threadsOf.all (fun t => match (coreThr c t).gateFetch with | some (n, _, none) => stillHeld s (isMemReq n) | _ => true)

/-- A collective engine of a site awaits no acknowledgement of its writes. -/
def engineQuiet (s : State) (site : Nat) : Bool :=
  match engineOf site with
  | some t => (getEngine s t).dstWait = []
  | none => true

/-- QUIET (12 R336): the attachment awaits no reply and no buffer of the router holds a packet to or from it. -/
def quiet (s : State) (site : Nat) : Bool :=
  let c := getCore s site
  threadsOf.all (fun t => threadQuiet s (coreThr c t) t) && fillsQuiet s c && engineQuiet s site &&
  c.hod.all (fun r => r.2.active.all (fun d => d.waiting.all (fun w => stillHeld s (isHodTag w.1)))) &&
  s.packets.all (fun p => !buffersFor s site p)

/-- EN of an injection gate. -/
def gateEnable (site : Nat) (en : Bool) (s : State) : State :=
  if (getRouter s site).inService then modRouter site (fun r => { r with gate := enableWrite en true r.gate }) s else s

/-- A store to MSH_CTL. -/
def mshCtl (site : Nat) (en : Bool) (s : State) : State :=
  if loaderHolds s (.gate site) then noteIgnored s else gateEnable site en s

def execMshCtlEn (site : Site) (en : Bool) (s : State) : Host.Outcome State Fault Refusal := .next (mshCtl site en s)

/-- DRAINING ends once the site is quiet. -/
def gateQuiet (site : Nat) (s : State) : State :=
  if quiet s site then modRouter site (fun r => { r with gate := drainDone true r.gate }) s else s

def execInjectionGateQuiet (site : Site) (s : State) : Host.Outcome State Fault Refusal := .next (gateQuiet site s)

end Sys2Proof.Machine
end

