-- ==== Sys2Proof/Machine/Sync.lean ====
section
/-! DEFINITION. Synchronisation units: locks (05 R143 to R150), barriers and watches (15), pace counters, and what the delivery
points of threads do with their messages. -/

namespace Sys2Proof.Machine

open Sys2Proof

def lockAddr (c n : Nat) : Nat := deviceRegBase + 0x1000000 + c * 0x10000 + 0x800 + 8 * n
def barAddr (c b : Nat) : Nat := deviceRegBase + 0x1000000 + c * 0x10000 + 0x400 + 8 * b

/-- Lock of a lock address: cluster and number (05 R143). -/
def lockOf (a : Nat) : Option (Nat × Nat) :=
  match synOf a with
  | some (c, off) => if 0x800 ≤ off && off < 0x1000 && off % 8 = 0 then some (c, (off - 0x800) / 8) else none
  | none => none

/-- Barrier of a barrier word's address. -/
def barOf (a : Nat) : Option (Nat × Nat) :=
  match synOf a with
  | some (c, off) => if 0x400 ≤ off && off < 0x600 && off % 8 = 0 then some (c, (off - 0x400) / 8) else none
  | none => none

def getLock (s : State) (c n : Nat) : Lock := mget (getUnit s c).locks n Lock.reset
def modLock (c n : Nat) (f : Lock → Lock) (s : State) : State :=
  modUnit c (fun u => { u with locks := mset u.locks n (f (mget u.locks n Lock.reset)) }) s
def getBar (s : State) (c b : Nat) : Barrier := mget (getUnit s c).bars b Barrier.reset
def modBar (c b : Nat) (f : Barrier → Barrier) (s : State) : State :=
  modUnit c (fun u => { u with bars := mset u.bars b (f (mget u.bars b Barrier.reset)) }) s

/-- The unit's cluster is in service: not fenced, anchor router in service (12 R311). -/
def unitServed (s : State) (c : Nat) : Bool := (getUnit s c).inService && (getRouter s (anchorOf c)).inService && halfOn s (anchorOf c)

/-- Lock status word (05 Table 5.8). -/
def lockWord (l : Lock) : Word :=
  bitAt 63 l.owner.isSome ||| bitAt 62 l.orphan ||| bitAt 61 l.err ||| mk 58 48 l.waiters.length ||| mk 12 0 (l.owner.getD 0)

/-- Barrier word (15 Table 15.6). -/
def barWord (s : State) (c b : Nat) : Word :=
  let x := getBar s c b
  let dev := s.img.desig = c && decide (2 ≤ x.scope.toNat)
  mk 63 48 x.gen.toNat ||| mk 47 41 x.lcount ||| mk 40 32 x.gcount ||| bitAt 31 x.err ||| bitAt 30 x.fwd |||
  mk 15 14 x.scope.toNat ||| mk 12 0 (if dev then x.count else x.lcount)

/-- Packet `n` at a unit that is in service: a unit that is not takes nothing (19 Table 19.10). -/
def atUnit (s : State) (n : Nat) : Option Packet :=
  match arrived s n with
  | some p => if unitServed s (clusterOf p.dsite) then some p else none
  | none => none

/-- A core can do nothing at a unit: it is out of service, or the core has been told that it is lost (19 Table 19.10). -/
def unitGone (s : State) (site c : Nat) : Bool := !unitServed s c || (getCore s site).lostUnits.contains c

/-! ### Watches (15 R395 to R398) -/

/-- Value of a word that a unit serves by itself. -/
def unitWord (s : State) (a : Nat) : Option Word :=
  match lockOf a with
  | some (c, n) => some (lockWord (getLock s c n))
  | none => match barOf a with
    | some (c, b) => some (barWord s c b)
    | none => none

/-- An entry of a unit is freed, with its comparator in the target core. -/
def freeWatch (c e : Nat) (s : State) : State :=
  match mfind (getUnit s c).watches e with
  | none => s
  | some w =>
    let s1 := modUnit c (fun u => { u with watches := mdel u.watches e }) s
    match regionOf w.target with
    | .window t _ => modCore t (fun k => { k with comparators := k.comparators.filter (fun x => !(x.cluster == c && x.entry == e)) }) s1
    | _ => s1

/-- Send a watch's message and free its entry. -/
def endWatch (c e status value : Nat) (s : State) : State :=
  match mfind (getUnit s c).watches e with
  | none => s
  | some w => unitSync c w.site (.watchMsg status (BitVec.ofNat 32 value) w.handle w.thr) (freeWatch c e s)

/-- A unit goes out of service without a fence: its watches end with ABSENT, which the router on the way to it reports (15 R398; the
report starts at the watching site, assumption log 83). -/
def abandonWatches (c : Nat) (s : State) : State :=
  (getUnit s c).watches.foldl (fun st e =>
    inject { mkPacket st 0 .machine (anchorOf c) e.2.site 0 (.watchMsg 6 0 e.2.handle e.2.thr) with at_ := e.2.site } (freeWatch c e.1 st)) s

/-- Watches of a unit on its own words are evaluated after a change (15 R396). -/
def evalWatches (c : Nat) (s : State) : State :=
  (getUnit s c).watches.foldl (fun st e =>
    match unitWord st e.2.target with
    | some v => if watchHolds e.2.cond v then endWatch c e.1 0 (watchField e.2.cond v) st else st
    | none => st) s

/-- A refused watch sends its message at once (15 R397). -/
def refuseWatch (c site handle : Nat) (t : Fin 4) (status : Nat) (s : State) : State :=
  unitSync c site (.watchMsg status 0 handle t) s

def countNoslot (c : Nat) (s : State) : State :=
  modUnit c (fun u => { u with noslot := if u.noslot = BitVec.allOnes 32 then u.noslot else u.noslot + 1 }) s

/-- A watch of a unit. -/
def newWatch (s : State) (c site handle target : Nat) (cond : Word) (t : Fin 4) : Watch :=
  let lim := fld cond 23 0
  ⟨site, t, handle, target, cond, if lim = 0 then none else some ((getUnit s c).pace.toNat + 256 * lim)⟩

/-- A watch is registered and evaluated (15 R396, R397). -/
def registerWatch (c site handle target : Nat) (cond : Word) (t : Fin 4) (s : State) : State :=
  if badCond cond then refuseWatch c site handle t 3 s
  else match firstBit 256 (fun e => (mfind (getUnit s c).watches e).isNone) with
    | none => refuseWatch c site handle t 4 (countNoslot c s)
    | some e =>
      let put := modUnit c (fun u => { u with watches := mset u.watches e (newWatch s c site handle target cond t) })
      match regionOf target with
      | .window tg off =>
        if !windowServed s tg then refuseWatch c site handle t 6 s
        else if tg ≠ site && off < sharedStart tg (getCore s tg) then refuseWatch c site handle t 5 s
        else if 16 ≤ (getCore s tg).comparators.length then refuseWatch c site handle t 4 (countNoslot c s)
        else
          let s1 := modCore tg (fun k => { k with comparators := k.comparators ++ [⟨off, cond, c, e⟩] }) (put s)
          let v := BitVec.ofNat 64 (leNat (lmReadN s tg off 8))
          if watchHolds cond v then endWatch c e 0 (watchField cond v) s1 else s1
      | _ => evalWatches c (put s)

def watchRegistration (n : Nat) (s : State) : State :=
  match atUnit s n with
  | some p => match p.body with
    | .watchReg handle target cond t => registerWatch (clusterOf p.dsite) p.ssite handle target cond t (dropPacket n s)
    | _ => s
  | none => s

def execWatchRegistration (pkt : Nat) (s : State) : Host.Outcome State Fault Refusal := .next (afterPacket pkt s (watchRegistration pkt s))

/-- A match that a core reports is that of the entry's watch: the watch's word lies in the core, and its comparator has ended with the
match. The report of an entry's earlier watch ends nothing. -/
def matchAwaited (s : State) (c e site : Nat) : Bool :=
  match mfind (getUnit s c).watches e with
  | some w => (match regionOf w.target with
    | .window t _ => t == site && !(getCore s t).comparators.any (fun k => k.cluster == c && k.entry == e)
    | _ => false)
  | none => false

/-- A core reports a match (15 R396). -/
def wordMatch (n : Nat) (s : State) : State :=
  match atUnit s n with
  | some p => match p.body with
    | .wordMatch e v =>
      if matchAwaited s (clusterOf p.dsite) e p.ssite then endWatch (clusterOf p.dsite) e 0 v.toNat (dropPacket n s) else dropPacket n s
    | _ => s
  | none => s

def execWordWatchMatch (pkt : Nat) (s : State) : Host.Outcome State Fault Refusal := .next (wordMatch pkt s)

/-- The value of a watched word. -/
def watchedWord (s : State) (a : Nat) : Word :=
  match unitWord s a with
  | some v => v
  | none => match regionOf a with
    | .window t off => BitVec.ofNat 64 (leNat (lmReadN s t off 8))
    | _ => 0

/-- The core has reported a match of an entry's watch and the report is on its way: the watch has ended with MET (15 R396, R397). -/
def matchReported (s : State) (c e : Nat) : Bool :=
  s.packets.any (fun p => p.sdev == ownDev s && p.ddev == ownDev s && p.dsite == anchorOf c && matchAwaited s c e p.ssite &&
    (match p.body with | .wordMatch x _ => x == e | _ => false))

/-- LIMIT ends a watch; a condition that holds in the same pace count wins, and so does a match already reported (15 R397, R404). -/
def watchTimeout (c e : Nat) (s : State) : State :=
  if matchReported s c e then s else
  match mfind (getUnit s c).watches e with
  | some w =>
    match w.due with
    | some d =>
      if d ≤ (getUnit s c).pace.toNat then
        let v := watchedWord s w.target
        endWatch c e (if watchHolds w.cond v then 0 else 1) (watchField w.cond v) s
      else s
    | none => s
  | none => s

def execWatchTimeout (cluster : Fin 128) (entry : Fin 256) (s : State) : Host.Outcome State Fault Refusal :=
  .next (watchTimeout cluster entry s)

/-- UNWATCH reaches the unit: every watch of the thread on the word ends with CANCELLED, but for one that a match has ended. -/
def unwatchArrival (n : Nat) (s : State) : State :=
  match atUnit s n with
  | some p => match p.body with
    | .unwatch target t =>
      let c := clusterOf p.dsite
      (getUnit s c).watches.foldl (fun st e =>
        if e.2.site == p.ssite && e.2.thr == t && e.2.target == target && !matchReported s c e.1 then endWatch c e.1 2 0 st else st) (dropPacket n s)
    | _ => s
  | none => s

def execUnwatchArrival (pkt : Nat) (s : State) : Host.Outcome State Fault Refusal := .next (afterPacket pkt s (unwatchArrival pkt s))

/-- A slot of the delivery point is filled and the thread's event set (15 R399). -/
def fillSlotMsg (site : Nat) (t : Fin 4) (handle status value : Nat) (s : State) : State :=
  let msg := bitAt 63 true ||| mk 62 60 status ||| mk 55 24 value ||| mk 2 0 handle
  let s1 := modThr site t (fun h => { h with comm := { h.comm with
    watches := mset h.comm.watches handle (.holding h.comm.watchOrder msg), watchOrder := h.comm.watchOrder + 1 } }) s
  setEventBit site t .supervisor (fld (getThr s site t).comm.syncev 4 0) s1

def watchMessage (n : Nat) (s : State) : State :=
  match arrived s n with
  | some p => match p.body with
    | .watchMsg status value handle t =>
      match mget (getThr s p.dsite t).comm.watches handle .free with
      | .registered _ => fillSlotMsg p.dsite t handle status value.toNat (dropPacket n s)
      | _ => dropPacket n s
    | _ => s
  | none => s

def execWatchMessageArrival (pkt : Nat) (s : State) : Host.Outcome State Fault Refusal := .next (afterPacket pkt s (watchMessage pkt s))

/-! ### Locks (05 R143 to R149) -/

/-- The owner's grant is sent: it carries ORPHAN and clears the mark (05 R146, R147). -/
def sendGrant (c n thid : Nat) (s : State) : State :=
  let l := getLock s c n
  let gs := l.gseq + 1
  let s1 := modLock c n (fun l => { l with orphan := false, gseq := gs }) s
  match siteOfThid s thid with
  | some (site, t) => unitSync c site (.grant n c l.orphan thid gs t) s1
  | none => s1

/-- Ownership passes to the first waiter, or the lock is freed. -/
def passLock (c n : Nat) (s : State) : State :=
  match (getLock s c n).waiters with
  | [] => modLock c n (fun l => { l with owner := none }) s
  | w :: r => sendGrant c n w (modLock c n (fun l => { l with owner := some w, waiters := r }) s)

def waitersUsed (u : SyncUnit) : Nat := u.locks.foldl (fun a e => a + e.2.waiters.length) 0

/-- A LOCK request at its unit; with all 1,024 waiting entries in use the core sends it again 64 pace counts later (05 R143,
R144). -/
def lockRequest (n : Nat) (s : State) : State :=
  match atUnit s n with
  | some p => match p.body with
    | .lockReq k thid t =>
      let c := clusterOf p.dsite
      let l := getLock s c k
      let s1 := dropPacket n s
      evalWatches c
        (match l.owner with
        | none => sendGrant c k thid (modLock c k (fun l => { l with owner := some thid }) s1)
        | some o =>
          if o = thid then sendGrant c k thid s1
          else if l.waiters.contains thid then s1
          else if waitersUsed (getUnit s c) < 1024 then modLock c k (fun l => { l with waiters := l.waiters ++ [thid] }) s1
          else modThr p.ssite t (fun h => { h with comm := { h.comm with lockDue := some ((paceOf s p.ssite).toNat + 64) } }) s1)
    | _ => s
  | none => s

def execLockRequestArrival (pkt : Nat) (s : State) : Host.Outcome State Fault Refusal := .next (lockRequest pkt s)

/-- Send a thread's LOCK request. -/
def sendLockReq (site : Nat) (t : Fin 4) (c n : Nat) (s : State) : State :=
  sendSync site (anchorOf c) (lockAddr c n) (lvlOf (getThr s site t)) (.lockReq n (thidOf s site t) t) s

/-- The retry after 64 pace counts (05 R144). -/
def lockRetry (site : Nat) (t : Fin 4) (s : State) : State :=
  let th := getThr s site t
  match th.run, th.comm.lockDue with
  | .stalled (.lock a _), some d =>
    if d ≤ (paceOf s site).toNat then
      match lockOf a with
      | some (c, n) => sendLockReq site t c n (modThr site t (fun h => { h with comm := { h.comm with lockDue := none } }) s)
      | none => s
    else s
  | _, _ => s

def execLockRetry (site : Site) (thr : Fin 4) (s : State) : Host.Outcome State Fault Refusal :=
  if hasThread site thr then .next (lockRetry site thr s) else .fault .noAgent

/-- UNLOCK at its unit (05 R145). -/
def unlockArrival (n : Nat) (s : State) : State :=
  match atUnit s n with
  | some p => match p.body with
    | .unlock k thid _ =>
      let c := clusterOf p.dsite
      let s1 := dropPacket n s
      evalWatches c (if (getLock s c k).owner = some thid then passLock c k s1 else modLock c k (fun l => { l with err := true }) s1)
    | _ => s
  | none => s

def execUnlockArrival (pkt : Nat) (s : State) : Host.Outcome State Fault Refusal := .next (afterPacket pkt s (unlockArrival pkt s))

/-- A grant adds its lock to the held-lock record (15 R401). -/
def holdLock (a : Nat) (c : ThreadComm) : ThreadComm :=
  if c.held.contains a then c
  else if c.held.length < 16 then { c with held := c.held ++ [a] }
  else { c with lovf := true }

/-- A grant reaches its thread: LOCK completes with ORPHAN in pd (05 R143). A halted thread keeps it for its resume (R149). -/
def grantArrival (n : Nat) (s : State) : State :=
  match arrived s n with
  | some p => match p.body with
    | .grant k c orphan _ _ t =>
      let s1 := dropPacket n s
      match (getThr s p.dsite t).run with
      | .stalled (.lock a pd) =>
        if (getThr s p.dsite t).halted then s
        else if a = lockAddr c k then
          let s2 := modThr p.dsite t (fun h => { writeP pd orphan h with
            pc := h.pc + 8, comm := { holdLock a h.comm with lockDue := none } }) s1
          traceRec p.dsite 4 t (k * 65536) (completeWait p.dsite t s2)
        else s1
      | _ => s1
    | _ => s
  | none => s

def execLockGrantArrival (pkt : Nat) (s : State) : Host.Outcome State Fault Refusal := .next (grantArrival pkt s)

/-- Thread IDs of a site. -/
def thidsOf (s : State) (site : Nat) : List Nat :=
  if isCcSite site then [thidOf s site 0] else threadsOf.map (thidOf s site)

/-- Bits of a site's threads in the masks of its cluster's barriers (15). -/
def siteBits (site : Nat) : BitVec 64 := 15#64 <<< (16 * (siteCol site % 4) + 4 * (siteRow site % 4))

/-- The threads of a site in the masks of a barrier of its cluster: its waiters and its pending arrivals draw no notice more (15 R394). -/
def clearWaiter (site : Nat) (x : Barrier) : Barrier :=
  { x with waiting := x.waiting &&& ~~~ siteBits site, departed := x.departed ||| (x.arrived &&& siteBits site) }

/-- A barrier notice of a unit on its way to a site. -/
def noticeFor (c site : Nat) (p : Packet) : Bool :=
  p.dsite == site && p.mc.isNone && (match p.body with | .notice k _ _ _ _ _ => k == c | _ => false)

/-- The owner-reset notice at a unit (05 R147, 15 R394, R398). -/
def ownerReset (c site : Nat) (s : State) : State :=
  let ids := thidsOf s site
  let gone := fun i => ids.contains i
  let s0 := (getUnit s c).watches.foldl (fun st e => if e.2.site = site then freeWatch c e.1 st else st) s
  let s1 := if clusterOf site = c then
      modUnit c (fun u => { u with bars := u.bars.map (fun e => (e.1, clearWaiter site e.2)) })
        { s0 with packets := s0.packets.filter (fun p => !(p.ddev == ownDev s && noticeFor c site p)) }
    else s0
  let s2 := (getUnit s1 c).locks.foldl (fun st e =>
    let l := e.2
    let keep := l.waiters.filter (fun w => !gone w)
    let st1 := evalWatches c (modLock c e.1 (fun l => { l with waiters := keep }) st)
    match l.owner with
    | some o => if gone o then passLock c e.1 (evalWatches c (modLock c e.1 (fun l => { l with orphan := true }) st1)) else st1
    | none => st1) s1
  let s3 := (getUnit s2 c).watches.foldl (fun st e =>
    match regionOf e.2.target with
    | .window t _ => if t = site then endWatch c e.1 6 0 st else st
    | _ => st) s2
  evalWatches c s3

def ownerResetNotice (n : Nat) (s : State) : State :=
  match atUnit s n with
  | some p => match p.body with
    | .ownerReset site => ownerReset (clusterOf p.dsite) site (dropPacket n s)
    | _ => s
  | none => s

def execOwnerResetNotice (pkt : Nat) (s : State) : Host.Outcome State Fault Refusal := .next (ownerResetNotice pkt s)

/-! ### Barriers (15 R384 to R394, R590) -/

/-- Index of a thread in its cluster's masks. -/
def barIndex (site : Nat) (t : Fin 4) : Nat := 16 * (siteCol site % 4) + 4 * (siteRow site % 4) + t.val

/-- The four mask bits of a site. -/
def siteNibble (m : BitVec 64) (site : Nat) : BitVec 4 := (m >>> (barIndex site 0)).setWidth 4

/-- Notices to every core of the cluster with an arrived thread, and the end of the episode at the unit. -/
def notifyCores (c b : Nat) (status : Nat) (gen : BitVec 16) (x : Barrier) (s : State) : State :=
  (clusterSites c).foldl (fun st site =>
    let w := siteNibble x.waiting site
    let a := siteNibble (x.arrived &&& ~~~ x.waiting &&& ~~~ x.departed) site
    if w = 0 && a = 0 then st
    else unitSync c site (.notice c b gen status w a) st) s

/-- A unit releases a barrier (15 R390). -/
def releaseBar (c b : Nat) (gen : BitVec 16) (s : State) : State :=
  let x := getBar s c b
  let s1 := modBar c b (fun x => { x with gen := gen, lcount := 0, fwd := false, arrived := 0, waiting := 0, departed := 0 }) s
  evalWatches c (notifyCores c b 0 gen x s1)

/-- ABORT, and with ABSENT the loss of the designated unit (15 R391, R590): everyone is let go, GEN stays. -/
def clearBar (c b status : Nat) (s : State) : State :=
  let x := getBar s c b
  let s1 := modBar c b (fun x => { x with lcount := 0, count := 0, gcount := 0, fwd := false, arrived := 0, waiting := 0, departed := 0 }) s
  evalWatches c (notifyCores c b status x.gen x s1)

def execBarrierAbort (cluster : Fin 128) (bar : Fin 64) (s : State) : Host.Outcome State Fault Refusal :=
  .next (clearBar cluster bar 5 s)

/-- The barrier is idle at the unit (15 R384). -/
def barIdle (x : Barrier) : Bool := x.lcount = 0 && x.count = 0 && x.gcount = 0 && !x.fwd && x.arrived = 0

/-- A write of SYN_BCFGb (15 Table 15.7, R384). -/
def writeBcfg (c b : Nat) (v : Word) (s : State) : State :=
  let x := getBar s c b
  let scope := if s.top.role = 0 then min 2 (fld v 63 62) else fld v 63 62
  let s1 := if barIdle x then modBar c b (fun x => { x with
      scope := BitVec.ofNat 2 scope, lexp := BitVec.ofNat 7 (clampNat 0 64 (fld v 61 55)),
      total := BitVec.ofNat 13 (clampNat 1 7184 (fld v 51 39)), gdev := BitVec.ofNat 9 (clampNat 1 511 (fld v 38 30)) }) s
    else s
  if bit v 1 then clearBar c b 5 s1 else evalWatches c s1

def execSynBcfgWrite (cluster : Fin 128) (bar : Fin 64) (v : BitVec 64) (s : State) : Host.Outcome State Fault Refusal :=
  .next (writeBcfg cluster bar v s)

/-- The devices of a barrier's device mask (17 Table 17.9). -/
def barrierDevices (s : State) (b : Nat) : BitVec 512 :=
  foldN 8 (fun w (m : BitVec 512) => m ||| ((mget s.grp.bdmask (8 * b + w) 0).setWidth 512 <<< (64 * w))) 0

/-- A designated unit multicasts a release to the clusters of SYN_BMASKb (15 R389). -/
def multicastRelease (b : Nat) (gen : BitVec 16) (s : State) : State :=
  let x := getBar s s.img.desig b
  let mask : BitVec 128 := (x.maskHi.setWidth 128 <<< 64) ||| x.maskLo.setWidth 128
  if mask = 0 then s else unitMulticast s.img.desig mask (.release b gen) s

/-- The manager's unit counts a device arrival and releases the group (15 R389, 17 R445). -/
def countDevice (b : Nat) (s : State) : State :=
  let c := s.img.desig
  let x := getBar s c b
  if x.gcount + 1 = x.gdev.toNat then
    let gen := x.gen + 1
    let mask := barrierDevices s b
    let s0 := evalWatches c (modBar c b (fun x => { x with gcount := x.gcount + 1 }) s)
    let s1 := deviceMulticastFrom (ownDev s) (anchorOf c) (anchorOf c) 7 mask (.groupRelease b gen) (modBar c b (fun x => { x with gen := gen, gcount := 0 }) s0)
    if mask.getLsbD (ownDev s) then multicastRelease b gen s1 else s1
  else modBar c b (fun x => { x with gcount := x.gcount + 1 }) s

/-- The designated unit adds a combined arrival (15 R389). -/
def addCombined (b n : Nat) (s : State) : State :=
  let c := s.img.desig
  let x := getBar s c b
  let total := x.count + n
  if x.total.toNat ≤ total then
    let s1 := evalWatches c (modBar c b (fun x => { x with count := total, err := x.err || decide (x.total.toNat < total) }) s)
    if x.scope = 3 then
      let s2 := modBar c b (fun x => { x with count := 0 }) s1
      if ownDev s = 0 then countDevice b s2
      else inject { mkPacket s 0 .machine (anchorOf c) (anchorOf c) 0 (.deviceArrival b (ownDev s)) with ddev := 0, inPort := 7 } s2
    else
      multicastRelease b (x.gen + 1) (modBar c b (fun x => { x with gen := x.gen + 1, count := 0 }) s1)
  else modBar c b (fun x => { x with count := total }) s

/-- A cluster's arrivals are complete (15 R388). -/
def completeLocal (c b : Nat) (s : State) : State :=
  let x := getBar s c b
  if x.scope = 1 then releaseBar c b (x.gen + 1) s
  else
    let s1 := modBar c b (fun x => { x with fwd := true }) s
    if s.img.desig = c then addCombined b x.lexp.toNat s1
    else unitSync c (anchorOf s.img.desig) (.combined b c x.lexp.toNat) s1

/-- Status with which a unit refuses an arrival, none where it counts it (15 R387, R590). -/
def arrivalCheck (u : SyncUnit) (x : Barrier) (idx : Nat) (gen : BitVec 16) (any : Bool) : Option Nat :=
  if (u.desigLost && decide (2 ≤ x.scope.toNat)) || (u.groupLost && x.scope = 3) then some 6
  else if x.scope = 0 || x.lexp = 0 then some 3
  else if !any && gen ≠ x.gen then (if serialBefore 16 gen.toNat x.gen.toNat then some 1 else some 2)
  else if x.arrived.getLsbD idx || x.fwd || x.lcount = x.lexp.toNat then some 4
  else none

/-- An arrival at its unit. -/
def arrive (site : Nat) (t : Fin 4) (b : Nat) (gen : BitVec 16) (any wait : Bool) (s : State) : State :=
  let c := clusterOf site
  let x := getBar s c b
  let idx := barIndex site t
  match arrivalCheck (getUnit s c) x idx gen any with
  | some st =>
    let one : BitVec 4 := 1#4 <<< t.val
    evalWatches c (unitSync c site (.notice c b x.gen st (if wait then one else 0) (if wait then 0 else one))
      (modBar c b (fun x => { x with err := true }) s))
  | none =>
    let m : BitVec 64 := 1#64 <<< idx
    let s1 := modBar c b (fun x => { x with arrived := x.arrived ||| m, waiting := if wait then x.waiting ||| m else x.waiting,
                                            lcount := x.lcount + 1 }) s
    evalWatches c (if x.lcount + 1 = x.lexp.toNat then completeLocal c b (evalWatches c s1) else s1)

def barrierArrival (n : Nat) (s : State) : State :=
  match atUnit s n with
  | some p => match p.body with
    | .arrive b gen any wait t => arrive p.ssite t b gen any wait (dropPacket n s)
    | _ => s
  | none => s

def execBarrierArrival (pkt : Nat) (s : State) : Host.Outcome State Fault Refusal := .next (afterPacket pkt s (barrierArrival pkt s))

def combinedArrival (n : Nat) (s : State) : State :=
  match atUnit s n with
  | some p => match p.body with
    | .combined b _ k => evalWatches s.img.desig (addCombined b k (dropPacket n s))
    | _ => s
  | none => s

def execCombinedArrival (pkt : Nat) (s : State) : Host.Outcome State Fault Refusal := .next (combinedArrival pkt s)

def deviceArrival (n : Nat) (s : State) : State :=
  match atUnit s n with
  | some p => match p.body with
    | .deviceArrival b _ => evalWatches s.img.desig (countDevice b (dropPacket n s))
    | _ => s
  | none => s

def execDeviceArrival (pkt : Nat) (s : State) : Host.Outcome State Fault Refusal := .next (deviceArrival pkt s)

/-- A release copy at a unit, or a group release at the designated unit (15 R389, R390, 17 R445). -/
def releaseCopy (n : Nat) (s : State) : State :=
  match atUnit s n with
  | some p => match p.body with
    | .release b gen => releaseBar (clusterOf p.dsite) b gen (dropPacket n s)
    | .groupRelease b gen =>
      multicastRelease b gen (evalWatches s.img.desig (modBar s.img.desig b (fun x => { x with gen := gen }) (dropPacket n s)))
    | _ => s
  | none => s

def execReleaseCopyArrival (pkt : Nat) (s : State) : Host.Outcome State Fault Refusal := .next (releaseCopy pkt s)

/-- The value that d receives when a BAR completes (15 R392). -/
def barResult (status : Nat) (gen : BitVec 16) : Word := mk 19 16 status ||| mk 15 0 gen.toNat

/-- A BAR of a thread completes. -/
def completeBar (site : Nat) (t : Fin 4) (d : Nat) (status : Nat) (gen : BitVec 16) (s : State) : State :=
  traceRec site 4 t (1 + gen.toNat * 65536)
    (completeWait site t (modThr site t (fun h => { writeKey (if d = 0 then none else some d) (barResult status gen) h with pc := h.pc + 8 }) s))

/-- A BARA arrival stops being pending, and a BARA that waits for room may issue (15 R386, R392). -/
def endBara (site : Nat) (t : Fin 4) (c b : Nat) (s : State) : State :=
  let s1 := modThr site t (fun h => { h with comm := { h.comm with bara := h.comm.bara.erase (c, b) } }) s
  match (getThr s site t).run with
  | .stalled .baraRoom => wakeThread site t s1
  | _ => s1

/-- One thread's part of a release notice. -/
def noticeThread (site : Nat) (c b : Nat) (gen : BitVec 16) (status : Nat) (w a : BitVec 4) (t : Fin 4) (s : State) : State :=
  let s1 := if w.getLsbD t.val then
      match (getThr s site t).run with
      | .stalled (.barrier c' b' d) => if c' = c && b' = b then completeBar site t d status gen s else s
      | _ => s
    else s
  if a.getLsbD t.val then endBara site t c b s1 else s1

/-- Waiters of a notice that are halted and keep it for their resume. -/
def heldWaiters (s : State) (site c b : Nat) (w : BitVec 4) : BitVec 4 :=
  threadsOf.foldl (fun (m : BitVec 4) t => match (getThr s site t).run with
    | .stalled (.barrier c' b' _) =>
      if w.getLsbD t.val && (getThr s site t).halted && c' = c && b' = b then m ||| (1#4 <<< t.val) else m
    | _ => m) 0

/-- A release notice at a core (15 R392). -/
def releaseNotice (n : Nat) (s : State) : State :=
  match arrived s n with
  | some p => match p.body with
    | .notice c b gen status w a =>
      let kept := heldWaiters s p.dsite c b w
      let s1 := if kept = 0 then dropPacket n s
        else putPacket { p with body := .notice c b gen status kept 0 } s
      threadsOf.foldl (fun st t => noticeThread p.dsite c b gen status (w &&& ~~~ kept) a t st) s1
    | _ => s
  | none => s

def execReleaseNotice (pkt : Nat) (s : State) : Host.Outcome State Fault Refusal := .next (releaseNotice pkt s)

/-! ### A lost unit (19 Table 19.10, 15 R590) -/

/-- What a delivery point does when it learns that a unit is lost. GEN of a BAR that ends so is not stated: a free value. -/
def lostAtThread (site c : Nat) (t : Fin 4) (s : State) : State :=
  let th := getThr s site t
  let s1 := match th.run with
    | .stalled (.barrier c' _ d) =>
      if c' = c then
        let r := drawFree 16 s
        completeBar site t d 6 r.1 r.2
      else s
    | .stalled (.lock a _) => (match lockOf a with
      | some (c', _) => if c' = c then wakeThread site t s else s
      | none => s)
    | _ => s
  let s2 := th.comm.bara.foldl (fun st e => if e.1 = c then endBara site t e.1 e.2 st else st) s1
  let s3 := modThr site t (fun h => { h with comm := { h.comm with held := h.comm.held.filter (fun a => match lockOf a with
    | some (c', _) => c' != c
    | none => true) } }) s2
  wakeSync site t (th.comm.watches.foldl (fun st e => match e.2 with
    | .registered target =>
      let served := match synOf target.toNat with
        | some (c', _) => c'
        | none => (match regionOf target.toNat with | .window w _ => clusterOf w | _ => 128)
      if served = c then fillSlotMsg site t e.1 6 0 st else st
    | _ => st) s3)

def lostAtCore (site c : Nat) (s : State) : State :=
  if hasThreads site then
    let s1 := modCore site (fun k => { k with lostUnits := if k.lostUnits.contains c then k.lostUnits else c :: k.lostUnits }) s
    threadsOf.foldl (fun st t => lostAtThread site c t st) s1
  else s

/-- The barriers of a unit that depend on a lost designated unit are let go with ABSENT. -/
def lostBarriers (u : Nat) (scopes : List Nat) (s : State) : State :=
  foldN 64 (fun b st => if scopes.contains (getBar st u b).scope.toNat then clearBar u b 6 st else st) s

/-- The unit-lost notice reaches a cluster: its cores, and its unit where the designated unit is lost. -/
def unitLostNotice (n : Nat) (s : State) : State :=
  match arrived s n with
  | some p => match p.body with
    | .unitLost c =>
      let u := clusterOf p.dsite
      let s1 := dropPacket n s
      if p.sdev ≠ ownDev s && p.mc.isNone then
        inject { mkPacket s1 0 .machine p.dsite p.dsite 0 (.unitLost c) with sdev := p.sdev, mc := some allClusters } s1
      else if p.sdev ≠ ownDev s then
        lostBarriers u [3] (modUnit u (fun x => { x with groupLost := true }) s1)
      else
        let s2 := (clusterSites u).foldl (fun st site => lostAtCore site c st) s1
        if c = s.img.desig then lostBarriers u [2, 3] (modUnit u (fun x => { x with desigLost := true }) s2) else s2
    | _ => s
  | none => s

def execUnitLostNotice (pkt : Nat) (s : State) : Host.Outcome State Fault Refusal := .next (unitLostNotice pkt s)

/-! ### Pace (15 R402, 01 R30, R31) -/

/-- A thread waits in a way that lets its core be idle-stuck, and has nothing outstanding (05 R151, Table 5.9, 14 R374). -/
def idleThread (h : Thread) : Bool :=
  !h.halted && (h.run == .parked || (match h.run with
    | .stalled (.receive _ _) | .stalled .send | .stalled (.hodSpace _ _ _) | .stalled (.event _) => true
    | _ => false)) &&
  h.loads.isEmpty && h.stores.isEmpty && h.comm.sends.isEmpty && h.comm.blocking.isNone && h.comm.bara.isEmpty &&
  h.comm.watches.all (fun e => match e.2 with | .registered _ => false | _ => true)

/-- A core is idle-stuck (05 R151). -/
def idleStuck (s : State) (site : Nat) : Bool :=
  let c := getCore s site
  isCoreSite site && c.power == .on && threadsOf.all (fun t => idleThread (coreThr c t)) && c.caches.icache.misses.isEmpty &&
  c.caches.rlc.misses.isEmpty && c.hod.all (fun e => e.2.out == 0 && e.2.active.isEmpty)

/-- The idle-stuck timer of a core starts, or is cleared where the condition fails (15 R404). -/
def watchIdle (pace : Word) (site : Nat) (s : State) : State :=
  if idleStuck s site then
    (if (getCore s site).idleSince.isSome then s else modCore site (fun c => { c with idleSince := some pace.toNat }) s)
  else if (getCore s site).idleSince.isSome then modCore site (fun c => { c with idleSince := none }) s
  else s

/-- A tick of a cluster's oscillator. -/
def paceTick (c : Nat) (s : State) : State :=
  let s1 := (clusterSites c).foldl (fun st site => watchIdle (getUnit s c).pace site st) s
  modUnit c (fun u => { u with pace := u.pace + 1 }) s1

def execPaceTick (cluster : Fin 128) (s : State) : Host.Outcome State Fault Refusal := .next (paceTick cluster s)

/-- RATIO at the end of a window of 1,024 always-on counts. -/
def paceRatio (c : Nat) (s : State) : State :=
  modUnit c (fun u => { u with ratio := (u.pace - u.paceMark).setWidth 16, paceMark := u.pace }) s
def execPaceRatioUpdate (cluster : Fin 128) (s : State) : Host.Outcome State Fault Refusal := .next (paceRatio cluster s)

/-- RATE of TOP_PACEh, with its extremes and UPD (01 Table 1.3): 0 while the half-domain is powered down. -/
def paceRate (h : Nat) (measured : BitVec 16) (s : State) : State :=
  let rate := if railOn s h then measured else 0
  modPace h (fun p => { max := if p.max.toNat < rate.toNat then rate else p.max,
                        min := if rate ≠ 0 && (p.min = 0 || rate.toNat < p.min.toNat) then rate else p.min,
                        rate := rate, upd := p.upd + 1 }) s
def execPaceRateUpdate (h : Fin 8) (rate : BitVec 16) (s : State) : Host.Outcome State Fault Refusal := .next (paceRate h rate s)

/-- CLR sets both extremes to the current RATE. -/
def paceClear (h : Nat) (s : State) : State := modPace h (fun p => { p with max := p.rate, min := p.rate }) s
def execTopPaceClr (h : Fin 8) (s : State) : Host.Outcome State Fault Refusal := .next (paceClear h s)

end Sys2Proof.Machine
end

