-- ==== Sys2Proof/Machine/Serve.lean ====
section
/-! DEFINITION. What a target does with an access that reaches it: HBM through its memory attach node (11 R286, R294, R593) and
local memory through its window (05 R137, 03 R91). -/

namespace Sys2Proof.Machine

open Sys2Proof

/-- The new value of an atomic operation (03 R91, 04 Table 4.8) on operands of `n` bytes. -/
def amoValue (op : Fin 10) (n old b c : Nat) : Nat :=
  let w := 8 * n
  let x := b % 2 ^ w
  match op with
  | 0 => (old + x) % 2 ^ w
  | 1 => old &&& x
  | 2 => old ||| x
  | 3 => old ^^^ x
  | 4 => x
  | 5 => if toSigned w old < toSigned w x then old else x
  | 6 => if toSigned w old < toSigned w x then x else old
  | 7 => min old x
  | 8 => max old x
  | 9 => if old = x then c % 2 ^ w else old

/-- Bytes of a line that its byte enables select, as runs of one byte: address and value. -/
def enabledBytes (a : Nat) (data : BitVec 512) (en : BitVec 64) : List (Nat × Byte) :=
  ((List.range 64).filter (fun i => en.getLsbD i)).map (fun i => (a + i, (data >>> (8 * i)).setWidth 8))

/-- Byte mask of a 64 B line at `a` of which `bad` names the bytes in uncorrectable units. -/
def badMask (a : Nat) (bad : Nat → Bool) : BitVec 64 :=
  foldN 64 (fun i (m : BitVec 64) => if bad (a + i) then m ||| (1#64 <<< i) else m) 0

/-- Addresses of the `n` bytes at `a` that lie in uncorrectable units. -/
def badBytes (a n : Nat) (bad : Nat → Bool) : List Nat := ((List.range n).map (a + ·)).filter bad

/-- Bytes of a request on its target. -/
def memOpBytes : MemOp → Nat
  | .load n => n
  | .store d => d.length
  | .amo _ n _ _ => n
  | .writeBack _ _ => 64
  | .fill _ => 64

/-! ### HBM -/

/-- A write-back of a line to HBM: each sector on its own; answers the first discarded byte. -/
def hbmWriteBack (a : Nat) (data : BitVec 512) (en : BitVec 64) (s : State) : Option Nat × State :=
  [0, 1].foldl (fun (st : Option Nat × State) (k : Nat) =>
    let base := a + 32 * k
    let e : BitVec 32 := (en >>> (32 * k)).setWidth 32
    let bytes := leBytes 32 (data >>> (256 * k)).toNat
    if e = 0 then st
    else if e = BitVec.allOnes 32 then (st.1, hbmWriteN base bytes st.2)
    else if hbmBadAt st.2 (base / 32) then
      let x := base + ((firstBit 32 (fun i => e.getLsbD i)).getD 0)
      (some (st.1.getD x), hbmUeCount (base / 32) st.2)
    else
      (st.1, { st.2 with hbm := (enabledBytes base (BitVec.ofNat 512 (leNat bytes)) (e.setWidth 64)).foldl
                                  (fun m c => Memory.write m c.1 c.2) st.2.hbm })) (none, s)

/-- A request of a thread on HBM. -/
def serveHbm (a : Nat) (op : MemOp) (s : State) : MemResult × State :=
  let bad := hbmFirstBad s a (memOpBytes op)
  let s1 := match op with | .store _ | .writeBack _ _ => s | _ => countKnownBad a (memOpBytes op) s
  match op with
  | .load n =>
    let v : Word := BitVec.ofNat 64 (leNat (hbmReadN s a n))
    (if bad.isSome then .poisoned v a else .data v, s1)
  | .store d =>
    match hbmFirstLost s a d.length with
    | some x => (.fault 0x0E x, hbmWriteN a d s)
    | none => (.done, hbmWriteN a d s)
  | .amo o n b c =>
    let old := leNat (hbmReadN s a n)
    if bad.isSome then (.poisoned (BitVec.ofNat 64 old) a, s1)
    else (.data (BitVec.ofNat 64 old), hbmWriteN a (leBytes n (amoValue o n old b.toNat c.toNat)) s1)
  | .writeBack data en =>
    let r := hbmWriteBack a data en s
    (match r.1 with | some x => .fault 0x0E x | none => .done, r.2)
  | .fill _ => (.line (BitVec.ofNat 512 (leNat (hbmReadN s a 64))) (badMask a (fun x => hbmBadAt s (x / 32))), s1)

/-- Bytes of HBM replaced inside sectors that are known to be good, as a unit of the node itself does. -/
def hbmPatch (a : Nat) (bs : List Byte) (s : State) : State := { s with hbm := Memory.writeN s.hbm a bs }

/-! ### Local memory -/

/-- A write-back of a line to local memory, 8 B words on their own. -/
def lmWriteBack (site off : Nat) (data : BitVec 512) (en : BitVec 64) (s : State) : Option Nat × State :=
  foldN 8 (fun k (st : Option Nat × State) =>
    let base := off + 8 * k
    let e : BitVec 8 := (en >>> (8 * k)).setWidth 8
    if e = 0 then st
    else
      let c := getCore st.2 site
      if e ≠ BitVec.allOnes 8 && lmBadAt c (base / 8) then
        let x := base + ((firstBit 8 (fun i => e.getLsbD i)).getD 0)
        (some (st.1.getD x), postRecord 1 (threadSrc site) 2 site 0 base 0 st.2)
      else
        let word := leBytes 8 (data >>> (64 * k)).toNat
        let new := (List.range 8).map (fun i => if e.getLsbD i then word.getD i 0 else Memory.read c.lm (base + i))
        (st.1, lmWriteN site base new st.2)) (none, s)

/-- A request of a thread on local memory at an offset; addresses in answers are device addresses `a`. -/
def serveLm (site off a : Nat) (op : MemOp) (s : State) : MemResult × State :=
  let n := memOpBytes op
  let bad := lmFirstBad s site off n
  match op with
  | .load n =>
    let v : Word := BitVec.ofNat 64 (leNat (lmReadN s site off n))
    (if bad.isSome then .poisoned v a else .data v, noteLm site off n s)
  | .store d =>
    match lmFirstLost s site off d.length with
    | some x => (.fault 0x0E (a + (x - off)), lmWriteN site off d s)
    | none => (.done, lmWriteN site off d s)
  | .amo o n b c =>
    let old := leNat (lmReadN s site off n)
    if bad.isSome then (.poisoned (BitVec.ofNat 64 old) a, noteLm site off n s)
    else (.data (BitVec.ofNat 64 old), lmWriteN site off (leBytes n (amoValue o n old b.toNat c.toNat)) s)
  | .writeBack data en =>
    let r := lmWriteBack site off data en s
    (match r.1 with | some x => .fault 0x0E (a + (x - off)) | none => .done, r.2)
  | .fill _ =>
    (.line (BitVec.ofNat 512 (leNat (lmReadN s site off 64))) (badMask off (fun x => lmBadAt (getCore s site) (x / 8))), noteLm site off 64 s)

/-- Why a window refuses an access from another site (05 R137, 10 R272, 03 R89): an exception code, 0 where it does not. -/
def windowRefusal (s : State) (site off n : Nat) : Nat :=
  if !windowServed s site then 6
  else if lmBytes < off + n then 8
  else if off < sharedStart site (getCore s site) then 0x0A
  else 0

/-- A request from another site on a window. -/
def serveWindow (site off a : Nat) (op : MemOp) (s : State) : MemResult × State :=
  let code := windowRefusal s site off (memOpBytes op)
  if code ≠ 0 then (.fault code a, s) else serveLm site off a op s

/-! ### Requests at a memory attach node (11 R593) -/

/-- The bytes that a request writes, as a mask by offset from its address. -/
def opWrites (op : MemOp) (i : Nat) : Bool :=
  match op with
  | .store d => decide (i < d.length)
  | .writeBack _ en => decide (i < 64) && en.getLsbD i
  | _ => false

/-- Bytes that a request body touches. -/
def bodyReach : Body → Nat
  | .memReq _ _ op => memOpBytes op
  | .hodRead _ _ n => n
  | .hodWrite _ _ d => d.length
  | _ => 0

/-- The bytes that a request body writes, as a mask by offset from its address. -/
def bodyWrites : Body → Nat → Bool
  | .memReq _ _ op => opWrites op
  | .hodWrite _ _ d => opWrites (.store d)
  | _ => fun _ => false

/-- Findings of error detection for the units of `w` bytes that a request at `a` reads: those it touches, but for the ones that it writes
whole (11 R294, 19 R484). -/
def flawsWithin (w a : Nat) (b : Body) (flaws : List (Nat × Bool)) : List (Nat × Bool) :=
  flaws.filter (fun f => decide (f.1 * w < a + bodyReach b) && decide (a < f.1 * w + w) &&
    !(decide (a ≤ f.1 * w) && (List.range w).all (fun j => bodyWrites b (f.1 * w + j - a))))

/-- Reply body and state for a request body at HBM, none where the body is no request of a node. -/
def nodeServe (a : Nat) (flaws : List (Nat × Bool)) (b : Body) (s : State) : Option (Body × State) :=
  let s1 := applyFlaws (flawsWithin 32 a b flaws) s
  match b with
  | .memReq req t op =>
    let r := serveHbm a op s1
    some (.memReply req t r.1, r.2)
  | .hodRead ring tag n =>
    some (.hodData ring tag (.bytes (hbmReadN s1 a n) (badBytes a n (fun x => hbmBadAt s1 (x / 32)))), countKnownBad a n s1)
  | .hodWrite ring tag d =>
    some (.hodAck ring tag (match hbmFirstLost s1 a d.length with | some x => .fault 0x0E x | none => .done),
          hbmWriteN a d s1)
  | _ => none

/-- The reply of a node that cannot serve an address: the unit-absent fault (10 R271, 19 Table 19.10). -/
def refusedBody (code a : Nat) : Body → Option Body
  | .memReq req t _ => some (.memReply req t (.fault code a))
  | .hodRead ring tag _ => some (.hodData ring tag (.fault code a))
  | .hodWrite ring tag _ => some (.hodAck ring tag (.fault code a))
  | _ => none

/-- A migration's copy point has moved on, by a number of sectors that the manual leaves open: a free value (11 R297, assumption
log 81). -/
def advanceCopy (k : Nat) (s : State) : State :=
  match (getNode s k).migrating with
  | some (p, at_) =>
    let f := drawFree 32 s
    modNode k (fun n => { n with migrating := some (p, min 2684354560 (at_ + 32 * f.1.toNat)) }) f.2
  | none => s

/-- A request reaches its memory attach node and is served; the answer is injected at the node. -/
def hbmRequest (n : Nat) (flaws : List (Nat × Bool)) (s : State) : State :=
  match arrived s n with
  | some p =>
    if regionOf p.addr ≠ .hbm then s
    else match nodeOf p.dsite with
    | some k =>
      if nodeServed s k && hbmNodeFor s p.addr == some k then
        match nodeServe p.addr flaws p.body (advanceCopy k s) with
        | some r => sendReply p r.1 (dropPacket n r.2)
        | none => s
      else match refusedBody 6 p.addr p.body with
        | some b => sendReply p b (dropPacket n s)
        | none => s
    | none => s
  | none => s

def execHbmRequest (pkt : Nat) (flaws : List (Nat × Bool)) (s : State) : Host.Outcome State Fault Refusal :=
  .next (hbmRequest pkt flaws s)

end Sys2Proof.Machine
end

