-- ==== Sys2Proof/Machine/Reach.lean ====
section
/-! DEFINITION. What a thread or its hod may reach: the guard, the user windows and cs.mrange (08 R215 to R218), group reach (17
R439), bond links (03 R90, 05 R142), and the destination of an access. -/

namespace Sys2Proof.Machine

open Sys2Proof

/-- A byte of local memory lies in the thread's guard (08 Table 8.4). -/
def inGuardByte (th : Thread) (o : Nat) : Bool :=
  decide (th.reach.gbase.toNat * 128 ≤ o) && decide (o < th.reach.glimit.toNat * 128)

/-- `n` bytes at a local offset touch the guard. -/
def touchesGuard (th : Thread) (off n : Nat) : Bool :=
  decide (n ≠ 0) && decide (off < th.reach.glimit.toNat * 128) && decide (th.reach.gbase.toNat * 128 < off + n) &&
  decide (th.reach.gbase.toNat < th.reach.glimit.toNat)

/-- `n` bytes at `a` lie wholly in a user window with permission bit `b` (63 read, 62 write, 61 fetch; 08 R216). -/
def uwinGrants (th : Thread) (a n b : Nat) : Bool :=
  (List.range 4).any (fun i => let w := mget th.reach.uwin i windowRegReset
    bit w b && winHolds w a n)

/-- `n` bytes at `a` touch cs.mrange (08 R217). -/
def touchesMrange (th : Thread) (a n : Nat) : Bool :=
  let w := th.reach.mrange
  let base := fld w 47 12 * 4096
  bit w 63 && decide (a < base + 2 ^ fld w 55 50) && decide (base < a + n)

/-- A level may reach `n` bytes of HBM or of a window; `b` is the permission bit (08 R216, R217). -/
def mayReach (th : Thread) (l : Level) (a n b : Nat) : Bool :=
  match l with
  | .user => uwinGrants th a n b
  | .supervisor => !touchesMrange th a n
  | .machine => true

/-- A user-level access to another device is permitted (17 R439). -/
def groupReach (s : State) (l : Level) (dev : Nat) : Bool :=
  l != .user || (mget s.grp.ureach (dev / 64) 0).getLsbD (dev % 64)

/-- A bond link of the running image joins two sites (05 R142, 18). -/
def bonded (s : State) (a b : Nat) : Bool :=
  (b == a + 16 && s.img.bondE.getLsbD a) || (a == b + 16 && s.img.bondE.getLsbD b) ||
  (b == a + 1 && s.img.bondS.getLsbD a) || (a == b + 1 && s.img.bondS.getLsbD b)

/-- Site at which HBM or a window of the own device is served, none for HBM that no node holds. -/
def memSite (s : State) (a : Nat) : Option Nat :=
  match regionOf a with
  | .hbm => (placeOf s a).map (fun p => nodeSite p.1)
  | .window w _ => some w
  | _ => none

/-- Destination site of a packet for a device address of another device: windows name their site, the host is site 0. -/
def groupDest (dev a : Nat) : Nat :=
  if dev = 511 then 0
  else match regionOf a with
    | .window w _ => w
    | _ => Config.groupSite dev a

end Sys2Proof.Machine
end

