-- ==== Sys2Proof/Machine/Cache.lean ====
section
/-! DEFINITION. One cache as a piece of data: ways, pseudo-LRU bits, side buffer and miss status registers (09 Table 9.1, R245,
R260 to R263). -/

namespace Sys2Proof.Machine

open Sys2Proof

/-! ### Organisation (09 Table 9.1) -/

/-- The caches of a core or control core: instruction cache or L1I, RLC or L1D, L2. -/
def kIcache : Nat := 0
def kData : Nat := 1
def kL2 : Nat := 2

/-- Sets and ways of cache k. -/
def cacheGeom (cc : Bool) (k : Nat) : Nat × Nat :=
  if k = 2 then (2048, 16) else if k = 0 && !cc then (64, 8) else (128, 8)

/-- Miss status registers of cache k. A miss of an L1D or L1I takes one of the L2's 48 as well as its own, since their lines come through
the L2 (09 R246). -/
def cacheMisses (cc : Bool) (k : Nat) : Nat :=
  if cc then (if k = 0 then 8 else if k = 1 then 32 else 48) else (if k = 0 then 4 else 16)

/-- Lines of a side buffer, and accesses that one miss status register merges (09 R263). -/
def sideLines : Nat := 8
def maxMerged : Nat := 8

def getCache (c : Core) (k : Nat) : Cache := if k = 0 then c.caches.icache else if k = 1 then c.caches.rlc else c.caches.l2
def setCache (k : Nat) (x : Cache) (c : Core) : Core :=
  { c with caches := if k = 0 then { c.caches with icache := x } else if k = 1 then { c.caches with rlc := x }
                     else { c.caches with l2 := x } }

/-! ### Ways and pseudo-LRU (09 R262) -/

def slotOf (g : Nat × Nat) (line w : Nat) : Nat := line % g.1 * g.2 + w

/-- Way that holds a line. -/
def wayOf (g : Nat × Nat) (c : Cache) (line : Nat) : Option Nat :=
  firstBit g.2 (fun w => match mfind c.lines (slotOf g line w) with
    | some l => l.line == line
    | none => false)

/-- The held line. -/
def lineIn (g : Nat × Nat) (c : Cache) (line : Nat) : Option CacheLine :=
  match wayOf g c line with
  | some w => mfind c.lines (slotOf g line w)
  | none => none

/-- Nodes on the path to a way, with the branch taken at each. -/
def plruPath (ways w : Nat) : List (Nat × Bool) :=
  let n := ways.log2
  (List.range n).map (fun i => (2 ^ i + w / 2 ^ (n - i), w / 2 ^ (n - 1 - i) % 2 == 1))

def setBit16 (v : BitVec 16) (n : Nat) (b : Bool) : BitVec 16 := (v &&& ~~~ (1#16 <<< n)) ||| (if b then 1#16 <<< n else 0)

/-- The bits of a set after a hit or fill in way w: away from it, or toward it for an ST fill. -/
def plruAfter (ways w : Nat) (toward : Bool) (bits : BitVec 16) : BitVec 16 :=
  (plruPath ways w).foldl (fun b e => setBit16 b e.1 (e.2 == toward)) bits

def touchWay (g : Nat × Nat) (line w : Nat) (toward : Bool) (c : Cache) : Cache :=
  { c with plru := mset c.plru (line % g.1) (plruAfter g.2 w toward (mget c.plru (line % g.1) 0)) }

/-- Some way from `lo` on is unlocked. -/
def unlockedIn (locked : BitVec 16) (lo n : Nat) : Bool := (List.range n).any (fun i => !locked.getLsbD (lo + i))

/-- The search from a node over 2^k ways from `lo`. -/
def plruSearch (bits locked : BitVec 16) : Nat → Nat → Nat → Nat
  | 0, _, lo => lo
  | k + 1, node, lo =>
    let up := if bits.getLsbD node then unlockedIn locked (lo + 2 ^ k) (2 ^ k) else !unlockedIn locked lo (2 ^ k)
    if up then plruSearch bits locked k (2 * node + 1) (lo + 2 ^ k) else plruSearch bits locked k (2 * node) lo

/-- The victim way of a set, none where every way is locked. -/
def victimWay (g : Nat × Nat) (c : Cache) (line : Nat) : Option Nat :=
  match firstBit g.2 (fun w => !c.locked.getLsbD w && (mfind c.lines (slotOf g line w)).isNone) with
  | some w => some w
  | none =>
    if unlockedIn c.locked 0 g.2 then some (plruSearch (mget c.plru (line % g.1) 0) c.locked g.2.log2 1 0) else none

/-- A line placed in a way of its set: the cache and the line that it replaces. -/
def placeLine (g : Nat × Nat) (l : CacheLine) (toward : Bool) (c : Cache) : Option (Cache × Option CacheLine) :=
  match victimWay g c l.line with
  | none => none
  | some w =>
    let old := mfind c.lines (slotOf g l.line w)
    some (touchWay g l.line w toward { c with lines := mset c.lines (slotOf g l.line w) l }, old)

/-- A line replaced by a function of itself. -/
def mapLine (g : Nat × Nat) (line : Nat) (f : CacheLine → CacheLine) (c : Cache) : Cache :=
  match wayOf g c line with
  | some w => (match mfind c.lines (slotOf g line w) with
    | some l => { c with lines := mset c.lines (slotOf g line w) (f l) }
    | none => c)
  | none => c

/-- The line leaves the cache. -/
def dropLine (g : Nat × Nat) (line : Nat) (c : Cache) : Cache :=
  match wayOf g c line with
  | some w => { c with lines := mdel c.lines (slotOf g line w) }
  | none => c

/-! ### Side buffers and misses -/

def sideLine (c : Cache) (line : Nat) : Option (BitVec 512) := (c.side.find? (fun e => e.1 == line)).map (·.2)
def dropSide (line : Nat) (c : Cache) : Cache := { c with side := c.side.filter (fun e => e.1 != line) }

/-- A line enters the side buffer; a full one loses its oldest entry (09 R260). -/
def addSide (line : Nat) (data : BitVec 512) (c : Cache) : Cache :=
  let s := c.side.filter (fun e => e.1 != line)
  { c with side := (if sideLines ≤ s.length then s.drop 1 else s) ++ [(line, data)] }

def missFor (c : Cache) (line : Nat) : Option Miss := c.misses.find? (fun m => m.line == line)
def mapMiss (line : Nat) (f : Miss → Miss) (c : Cache) : Cache :=
  { c with misses := c.misses.map (fun m => if m.line = line then f m else m) }

/-- The line is invalidated: it leaves the ways and the side buffer, and a fill of it will not be allocated (09 R259). -/
def invalidateLine (g : Nat × Nat) (line : Nat) (c : Cache) : Cache :=
  mapMiss line (fun m => { m with killed := true }) (dropSide line (dropLine g line c))

/-- A demand miss of a line, taken by an access, or for a fetch by none. -/
def demandMiss (req line pol : Nat) (merged : List Nat) (stores : List MergedStore) : Miss :=
  ⟨req, line, .demand (BitVec.ofNat 3 pol), merged, 0, stores, false⟩

/-- A prefetch of a line into a side buffer. -/
def sideMiss (req line : Nat) : Miss := ⟨req, line, .side, [], 0, [], false⟩

/-- An access merges into a miss; a prefetch becomes the demand miss of the access. -/
def mergeInto (pol req : Nat) (stores : List MergedStore) (m : Miss) : Miss :=
  { m with kind := (match m.kind with | .side => .demand (BitVec.ofNat 3 pol) | k => k), merged := m.merged ++ [req],
           merges := m.merges + 1, stores := m.stores ++ stores }

/-- Every line is invalidated; the locks stay (09 R258). -/
def invalidateAll (c : Cache) : Cache :=
  { c with lines := [], side := [], misses := c.misses.map (fun m => { m with killed := true }) }

/-- Bytes of a line replaced. -/
def patchWord (off : Nat) (bs : List Byte) (d : BitVec 512) : BitVec 512 :=
  BitVec.ofNat 512 (leNat (patch (leBytes 64 d.toNat) off bs))

/-- Byte mask of `n` bytes at an offset. -/
def byteMask (off n : Nat) : BitVec 64 := BitVec.ofNat 64 ((2 ^ n - 1) * 2 ^ off)

/-- Bytes of every copy and of every outstanding fill of a line replaced, clean (09 R257). -/
def patchCopies (g : Nat × Nat) (line off : Nat) (bs : List Byte) (c : Cache) : Cache :=
  let c1 := mapLine g line (fun l => { l with data := patchWord off bs l.data }) c
  let c2 := mapMiss line (fun m => { m with stores := m.stores ++ [⟨0, off, bs, none⟩] }) c1
  { c2 with side := c2.side.map (fun e => if e.1 = line then (e.1, patchWord off bs e.2) else e) }

/-- The region attribute table: policy of a device address (09 R250). -/
def ratPolicy (c : Core) (a : Nat) : Nat :=
  match (List.range 16).find? (fun i => let w := mget c.caches.rat i windowRegReset
    bit w 63 && decide (fld w 47 12 * 4096 ≤ a) && decide (a < fld w 47 12 * 4096 + 2 ^ fld w 55 50)) with
  | some i => fld (mget c.caches.rat i windowRegReset) 58 56
  | none => 0

end Sys2Proof.Machine
end

