-- ==== Sys2Proof/Machine/Gru.lean ====
section
/-! DEFINITION. Gather-reduce units (11 R299 to R309, R33): request headers, pooling and scatter-accumulate, status and enable. A
request carries its header, its lists and, for scatter, its gradient rows (assumption log 20). -/

namespace Sys2Proof.Machine

open Sys2Proof

/-- The fields of a request header (11 Table 11.14). -/
structure GruHeader where
  tbase : Nat
  nrows : Nat
  rstride : Nat
  len : Nat
  op : Nat
  ifmt : Nat
  ofmt : Nat
  trl : Bool
  sat : Bool
  nbag : Nat
  nidx : Nat
  obag : Nat
  oidx : Nat
  owgt : Nat
  doff : Nat
  dstride : Nat
  /-- every field marked zero is zero -/
  zeros : Bool
  deriving DecidableEq, Repr

def parseGru (h : List Byte) : GruHeader :=
  { tbase := leAt h 0 8, nrows := leAt h 8 4, rstride := leAt h 12 4, len := leAt h 16 2,
    op := leAt h 18 1 % 16, ifmt := leAt h 18 1 / 16, ofmt := leAt h 19 1 % 16, trl := (leAt h 19 1).testBit 4,
    sat := (leAt h 19 1).testBit 5, nbag := leAt h 20 2, nidx := leAt h 24 4, obag := leAt h 28 4, oidx := leAt h 32 4,
    owgt := leAt h 36 4, doff := leAt h 40 4, dstride := leAt h 44 4,
    zeros := decide (leAt h 0 8 < 2 ^ 48) && leAt h 19 1 / 64 == 0 && leAt h 22 2 == 0 && leAt h 48 16 == 0 }

def gruScatterOp (op : Nat) : Bool := op = 8 || op = 9
def gruWeighted (op : Nat) : Bool := op = 3 || op = 9
def gruElem (f : Nat) : Nat := fmtWidth f / 8

/-- Formats of an operation (11 Table 11.15). -/
def gruFormats (op i o : Nat) : Bool :=
  if op < 4 then (i = 1 || i = 3 || i = 4 || i = 5 || i = 6 || i = 7) && (o = 5 || o = 6 || o = 7)
  else gruScatterOp op && (i = 5 || i = 7) && (o = 5 || o = 7)

/-- Bytes of a bag row's data, and of the whole bag row (11 R300). -/
def gruRowData (h : GruHeader) : Nat := h.len * gruElem h.ofmt
def gruRowBytes (h : GruHeader) : Nat :=
  if gruScatterOp h.op then gruRowData h else (gruRowData h + 15) / 16 * 16 + (if h.trl then 16 else 0)

/-- The lists and bag rows lie in local memory and their counts are in range, so that the lists can be read. -/
def gruListsFit (h : GruHeader) : Bool :=
  decide (1 ≤ h.nbag) && decide (h.nbag ≤ 1024) && decide (h.nidx ≤ 8192) &&
  decide (h.obag + 4 * (h.nbag + 1) ≤ lmBytes) && (h.nidx == 0 || decide (h.oidx + 4 * h.nidx ≤ lmBytes)) &&
  (!gruWeighted h.op || h.nidx == 0 || decide (h.owgt + 4 * h.nidx ≤ lmBytes)) &&
  decide (h.doff + (h.nbag - 1) * h.dstride + gruRowBytes h ≤ lmBytes)

/-- Conditions of R300 on the header alone. NROWS below 1 is outside Table 11.14. -/
def gruHeaderGood (h : GruHeader) : Bool :=
  h.zeros && gruFormats h.op h.ifmt h.ofmt && !(h.trl && gruScatterOp h.op) && (gruWeighted h.op || h.owgt == 0) &&
  decide (1 ≤ h.len) && decide (h.len ≤ 2048) && decide (1 ≤ h.nrows) &&
  h.tbase % gruElem h.ifmt == 0 && h.rstride % gruElem h.ifmt == 0 && decide (h.len * gruElem h.ifmt ≤ h.rstride) &&
  h.obag % 4 == 0 && h.oidx % 4 == 0 && h.owgt % 4 == 0 && h.doff % 16 == 0 && h.dstride % 16 == 0 &&
  (h.nbag == 1 || decide (gruRowBytes h ≤ h.dstride)) && gruListsFit h

/-- Local ranges that a request names: bag list, index list, weights, and each bag row (offset, bytes). -/
def gruLists (h : GruHeader) : List (Nat × Nat) :=
  [(h.obag, 4 * (h.nbag + 1)), (h.oidx, 4 * h.nidx), (h.owgt, if gruWeighted h.op then 4 * h.nidx else 0)]
def gruBagRows (h : GruHeader) : List (Nat × Nat) := (List.range h.nbag).map (fun b => (h.doff + b * h.dstride, gruRowBytes h))

/-- Parts of a request after its header. -/
def gruBag (d : List Byte) (b : Nat) : Nat := leAt d (64 + 4 * b) 4
def gruIdx (h : GruHeader) (d : List Byte) (i : Nat) : Nat := leAt d (64 + 4 * (h.nbag + 1) + 4 * i) 4
def gruWgt (h : GruHeader) (d : List Byte) (i : Nat) : Nat := leAt d (64 + 4 * (h.nbag + 1) + 4 * h.nidx + 4 * i) 4
def gruGrad (h : GruHeader) (d : List Byte) (b j : Nat) : Nat :=
  leAt d (64 + 4 * (h.nbag + 1) + 4 * h.nidx + (if gruWeighted h.op then 4 * h.nidx else 0) + b * gruRowData h
    + j * gruElem h.ofmt) (gruElem h.ofmt)

/-- The bag list starts at 0, never decreases and ends at NIDX. -/
def gruBagsGood (h : GruHeader) (d : List Byte) : Bool :=
  gruBag d 0 == 0 && gruBag d h.nbag == h.nidx && (List.range h.nbag).all (fun b => decide (gruBag d b ≤ gruBag d (b + 1)))

/-- A request is well formed (11 R300). -/
def gruGood (s : State) (h : GruHeader) (d : List Byte) : Bool :=
  gruHeaderGood h && gruBagsGood h d &&
  decide (h.tbase + (h.nrows - 1) * h.rstride + h.len * gruElem h.ifmt ≤ mappedSize s)

/-- What an index position is at node k (11 R301, R304, R305). -/
inductive GruPos where
  | badIndex | skip | split | dataError | held (addr : Nat)
  deriving DecidableEq, Repr

def gruPos (s : State) (k : Nat) (h : GruHeader) (x : Nat) : GruPos :=
  if h.nrows ≤ x then .badIndex
  else
    let a := h.tbase + x * h.rstride
    let n := h.len * gruElem h.ifmt
    let at_ := fun y => match placeOf s y with | some (j, _, _) => j == k | none => false
    if !at_ a then .skip
    else if !(List.range n).all (fun i => at_ (a + i)) then .split
    else if (hbmFirstBad s a n).isSome then .dataError
    else .held a

/-- Status code of a position, 0 where it is no error. -/
def gruPosStatus : GruPos → Nat
  | .badIndex => 0x22
  | .split => 0x23
  | .dataError => 0x24
  | _ => 0

/-- Flag of a position in a trailer. -/
def gruPosFlag : GruPos → Nat
  | .badIndex => 8
  | .split => 16
  | .dataError => 32
  | _ => 0

/-- Element j of a row in the table, as a number. -/
def gruTableElem (s : State) (h : GruHeader) (a j : Nat) : Num :=
  laneNum h.ifmt true (leNat (hbmReadN s (a + j * gruElem h.ifmt) (gruElem h.ifmt)))

/-- One step of an accumulator: bits and flags (11 R302). -/
def gruStep (op : Nat) (w : Nat) (acc : Nat × Nat) (x : Num) : Nat × Nat :=
  let a := decodeFloat 7 acc.1
  let r := if op = 2 then
      (if isNan a || isNan x then (nanCode 7, flagNV) else roundNum 7 0 false 0 (if ordLt a x then x else a))
    else roundNum 7 0 false 0 (numAdd a (if op = 3 then numMul (decodeFloat 7 w) x else x))
  (r.1, acc.2 ||| r.2)

/-- The end of an element: the mean, then the conversion to OFMT. -/
def gruFinish (h : GruHeader) (count : Nat) (acc : Nat × Nat) : Nat × Nat :=
  let m := if h.op = 1 && count ≠ 0 then
      (match decodeFloat 7 acc.1 with
       | .fin n mm e => let r := roundNum 7 0 false 0 (if mm = 0 then .fin n 0 0 else quotient n mm count e)
                        (r.1, acc.2 ||| r.2)
       | _ => acc)
    else acc
  if h.ofmt = 7 then m
  else
    let r := toFloatFmt h.ofmt 0 h.sat 0 (decodeFloat 7 m.1)
    (r.1, m.2 ||| r.2)

/-- Pool one bag: the elements, the COUNT, the FLAGS and the status (11 R302 to R304). -/
def gruPoolBag (s : State) (k : Nat) (h : GruHeader) (d : List Byte) (b : Nat) : List Nat × Nat × Nat × Nat :=
  let is := (List.range (gruBag d (b + 1) - gruBag d b)).map (gruBag d b + ·)
  let pos := is.map (fun i => (i, gruPos s k h (gruIdx h d i)))
  let held := pos.filterMap (fun p => match p.2 with | .held a => some (p.1, a) | _ => none)
  let bad := pos.foldl (fun f p => f ||| gruPosFlag p.2) 0
  let status := pos.foldl (fun m p => max m (gruPosStatus p.2)) 0
  let init : Nat := if h.op = 2 then 0xFF800000 else 0
  let elems := (List.range h.len).map (fun j =>
    gruFinish h held.length (held.foldl (fun acc p => gruStep h.op (gruWgt h d p.1) acc (gruTableElem s h p.2 j)) (init, 0)))
  let flags := elems.foldl (fun f e => f ||| e.2) 0
  let ar := boolBit (flags.testBit 3) 0 + boolBit (flags.testBit 2) 1 + boolBit (flags.testBit 0) 2
  if bad = 0 then (elems.map (·.1), held.length, ar, 0)
  else (List.replicate h.len (nanCode h.ofmt), held.length, ar ||| bad, status)

/-- Write a bag row, with its trailer where asked for, into the requester's local memory. Bytes between the end of
the row and the trailer's boundary keep their values (DESIGN CHOICE, assumption log 81). -/
def gruWriteBag (site : Nat) (h : GruHeader) (b : Nat) (r : List Nat × Nat × Nat × Nat) (s : State) : State :=
  let off := h.doff + b * h.dstride
  let s1 := lmWriteN site off (r.1.flatMap (leBytes (gruElem h.ofmt))) s
  if h.trl then
    lmWriteN site (off + (gruRowData h + 15) / 16 * 16) (leBytes 4 r.2.1 ++ leBytes 4 r.2.2.1 ++ leBytes 8 0) s1
  else s1

/-- The read of a row that holds an uncorrectable sector is counted (11 R293). -/
def gruCountRow (h : GruHeader) (x : Nat) (p : GruPos) (s : State) : State :=
  if p = .dataError then countKnownBad (h.tbase + x * h.rstride) (h.len * gruElem h.ifmt) s else s

/-- The hod that sent a request still waits for it: the rows for one that a core reset has ended are discarded (13 R344). -/
def gruAwaited (s : State) (site : Nat) (ring : Fin 4) (tag : Nat) : Bool :=
  (getRing s site ring).active.any (fun d => d.waiting.any (fun w => w.1 == tag) && !d.done)

/-- Pool every bag: the status, and the state with the rows written where they are awaited. Reads of uncorrectable sectors are
counted. -/
def gruPoolAll (k site : Nat) (awaited : Bool) (h : GruHeader) (d : List Byte) (s : State) : Nat × State :=
  (List.range h.nbag).foldl (fun (st : Nat × State) b =>
    let r := gruPoolBag st.2 k h d b
    let s1 := ((List.range (gruBag d (b + 1) - gruBag d b)).map (gruBag d b + ·)).foldl (fun u i =>
      gruCountRow h (gruIdx h d i) (gruPos u k h (gruIdx h d i)) u) st.2
    (max st.1 r.2.2.2, if awaited then gruWriteBag site h b r s1 else s1)) (0, s)

/-- Update one held row element by element (11 R305). -/
def gruUpdateRow (h : GruHeader) (d : List Byte) (b i a : Nat) (s : State) : State :=
  (List.range h.len).foldl (fun st j =>
    let g := decodeFloat h.ofmt (gruGrad h d b j)
    let term := if h.op = 9 then numMul (decodeFloat 7 (gruWgt h d i)) g else g
    let r := toFloatFmt h.ifmt 0 h.sat 0 (numAdd (gruTableElem st h a j) term)
    hbmPatch (a + j * gruElem h.ifmt) (leBytes (gruElem h.ifmt) r.1) st) s

/-- Scatter: every position of every bag in order. -/
def gruScatterAll (k : Nat) (h : GruHeader) (d : List Byte) (s : State) : Nat × State :=
  (List.range h.nbag).foldl (fun (st : Nat × State) b =>
    ((List.range (gruBag d (b + 1) - gruBag d b)).map (gruBag d b + ·)).foldl (fun (st : Nat × State) i =>
      match gruPos st.2 k h (gruIdx h d i) with
      | .held a => (st.1, gruUpdateRow h d b i a st.2)
      | q => (max st.1 (gruPosStatus q), gruCountRow h (gruIdx h d i) q st.2)) st) (0, s)

/-- The unit of a node is there: not fused off, and its node in service (11 R287, 10 R274). -/
def gruThere (s : State) (k : Nat) : Bool :=
  let n := getNode s k
  nodeServed s k && n.gruFused && !n.gruFenced && !n.gruIsolated

/-- The part of a request that a packet carries: its tag, offset, request length and bytes. -/
def gruPart (p : Packet) : Option (Nat × Nat × Nat × List Byte) :=
  match p.body with
  | .gruReq _ tag off total d => some (tag, off, total, d)
  | _ => none

/-- The packet carries a part of a request of the same hod to the same unit. -/
def gruSameHod (p q : Packet) : Bool :=
  q.sdev == p.sdev && q.ssite == p.ssite && q.ddev == p.ddev && q.dsite == p.dsite && (gruPart q).isSome

/-- A part of the same request. -/
def gruSameRequest (p q : Packet) : Bool := gruSameHod p q && (gruPart q).map (·.1) == (gruPart p).map (·.1)

/-- The bytes of the request that packet p is a part of, once every part is among the packets that `here` admits; the packets of a
request carry 256 B each but for the last (12 R315, assumption log 20). -/
def gruWhole (here : Packet → Bool) (s : State) (p : Packet) : Option (List Byte) :=
  match gruPart p with
  | none => none
  | some (_, _, total, _) =>
    (List.range ((total + 255) / 256)).foldl (fun (acc : Option (List Byte)) i =>
      match acc with
      | none => none
      | some bs => match s.packets.find? (fun q => here q && gruSameRequest p q && (gruPart q).map (·.2.1) == some (256 * i)) with
        | some q => some (bs ++ ((gruPart q).map (·.2.2.2)).getD [])
        | none => none) (some [])

/-- The parts of a request leave the mesh. -/
def gruDropParts (p : Packet) (s : State) : State := { s with packets := s.packets.filter (fun q => !gruSameRequest p q) }

/-- An earlier request of the same hod to the same unit has not been taken: a unit takes the requests of one hod in the order sent
(11 R307). One that has lost a part will never be taken. -/
def gruEarlier (s : State) (p : Packet) : Bool :=
  s.packets.any (fun q => gruSameHod p q && !gruSameRequest p q && (gruWhole (fun _ => true) s q).isSome &&
    s.packets.all (fun x => !gruSameRequest p x || decide (q.id < x.id)))

/-- Take a request at node k: refuse it, or accept and perform it; its status waits for GRU_REQUEST_DONE. `scatter` tells which command
is at work. The rows are read, pooled or updated, and written at acceptance (DESIGN CHOICE, assumption log 81). -/
def gruAccept (scatter : Bool) (n : Nat) (s : State) : State :=
  match arrived s n with
  | some p =>
    match nodeOf p.dsite, p.body with
    | some k, .gruReq ring tag _ _ _ =>
      match gruWhole (·.delivered) s p with
      | none => s
      | some data =>
      let h := parseGru data
      let s0 := gruDropParts p s
      if gruScatterOp h.op != scatter || gruEarlier s p then s
      else if !gruThere s k then sendReply p (.gruStatus ring tag 0x21) s0
      else if (getNode s k).gru.gate ≠ .on then sendReply p (.gruStatus ring tag 0x25) s0
      else if 8 ≤ (getNode s k).gruQueue.length then s
      else
        let r := if !gruGood s h data then (0x20, s)
                 else if scatter then gruScatterAll k h data s
                 else gruPoolAll k p.ssite (gruAwaited s p.ssite ring tag) h data s
        modNode k (fun x => { x with gruQueue := x.gruQueue ++ [⟨p.sdev, p.ssite, ring, tag, p.strm, p.lvl, p.ce, r.1⟩] }) (gruDropParts p r.2)
    | _, _ => s
  | none => s

def execGruPool (pkt : Nat) (s : State) : Host.Outcome State Fault Refusal := .next (gruAccept false pkt s)
def execGruScatter (pkt : Nat) (s : State) : Host.Outcome State Fault Refusal := .next (gruAccept true pkt s)

/-- The status of an accepted request on its way to the hod that sent it (11 R306, 12 R316, R335): at the request's level, with CE
copied into ECE. -/
def gruReply (k : Nat) (r : GruRequest) (status : Nat) (s : State) : State :=
  inject { mkPacket s 1 r.lvl (nodeSite k) r.site 0 (.gruStatus r.ring r.tag status) with
    ddev := r.dev, strm := r.strm, ece := r.ce } s

/-- The oldest accepted request ends: its status returns to the requester's hod (11 R306, R307). -/
def gruDone (k : Nat) (s : State) : State :=
  match (getNode s k).gruQueue with
  | [] => s
  | r :: rest => gruReply k r r.status (modNode k (fun x => { x with gruQueue := rest }) s)

def execGruRequestDone (node : Fin 96) (s : State) : Host.Outcome State Fault Refusal := .next (gruDone node s)

/-- Every accepted request ends with ABSENT (11 R308, Table 11.16). -/
def gruAbandon (k : Nat) (s : State) : State :=
  (getNode s k).gruQueue.foldl (fun st r => gruReply k r 0x21 st) (modNode k (fun x => { x with gruQueue := [] }) s)

/-- GRU_CTL.EN (11 R308). -/
def gruEnable (k : Nat) (en : Bool) (s : State) : State :=
  if gruThere s k then modNode k (fun n => { n with gru := enableWrite en true n.gru }) s else s

/-- A store to GRU_CTL. -/
def gruCtl (k : Nat) (en : Bool) (s : State) : State :=
  if loaderHolds s (.gru k) then noteIgnored s else gruEnable k en s

def execGruCtlEn (node : Fin 96) (en : Bool) (s : State) : Host.Outcome State Fault Refusal := .next (gruCtl node en s)

/-- The drain completes once no accepted request is left. -/
def gruDrained (k : Nat) (s : State) : State :=
  if (getNode s k).gruQueue = [] then modNode k (fun n => { n with gru := drainDone true n.gru }) s else s

def execGruDrainComplete (node : Fin 96) (s : State) : Host.Outcome State Fault Refusal := .next (gruDrained node s)

end Sys2Proof.Machine
end

