-- ==== Sys2Proof/Machine/Hod.lean ====
section
/-! DEFINITION. Hod data movers (13): ring enables, descriptor checks, transfers, completion records. -/

namespace Sys2Proof.Machine

open Sys2Proof

/-! ### Rings (13 R338 to R343) -/

/-- The header of a ring passes or fails its checks in the order of Table 13.6: the code, 0 where it passes. -/
def ringHeaderCheck (th : Thread) (lvl : Level) (hoff : Nat) (h : List Byte) : Nat :=
  let rbase := leAt h 0 4
  let rlog := leAt h 4 1
  let evb := leAt h 5 1
  let cq := leAt h 8 4
  let n := 2 ^ rlog
  if leAt h 6 2 ≠ 0 || leAt h 14 2 ≠ 0 || (h.drop 20).any (· != 0) then 1
  else if rbase % 64 ≠ 0 then 2
  else if rlog < 1 || 12 < rlog then 3
  else if cq % 32 ≠ 0 then 4
  else if lmBytes < rbase + 64 * n || lmBytes < cq + 32 * n then 5
  else if rbase < cq + 32 * n && cq < rbase + 64 * n then 6
  else if 31 < evb || !(eventMask lvl).getLsbD evb then 7
  else if lvl = .user && (touchesGuard th hoff 64 || touchesGuard th rbase (64 * n) || touchesGuard th cq (32 * n)) then 8
  else 0

/-- An enable that takes effect: the header is read and checked (13 R340, R341). -/
def ringEnable (site : Nat) (t : Fin 4) (s : State) : State :=
  let r := getRing s site t
  let hoff := r.hdr.toNat * 64
  let h := lmReadN s site hoff 64
  let seq0 := BitVec.ofNat 32 (leAt h 16 4)
  let cq := leAt h 8 4
  let err := ringHeaderCheck (getThr s site t) r.lvl hoff h
  if err = 0 then
    modRing site t (fun r => { r with
      ctl := ⟨true, false, .on⟩, err := 0, cred := leAt h 12 2, out := 0, take := seq0, next := seq0,
      rbase := leAt h 0 4, rlog := leAt h 4 1, evb := leAt h 5 1, cqbase := cq, seq0 := seq0, active := [] }) s
  else
    let s1 := modRing site t (fun r => { r with ctl := Enable.off, err := BitVec.ofNat 8 err }) s
    if cq % 32 = 0 && cq + 32 ≤ lmBytes && err ≠ 8 then
      lmWriteN site cq (leBytes 4 seq0.toNat ++ leBytes 2 0 ++ [0x10, 0] ++ leBytes 4 0 ++ [0, BitVec.ofNat 8 err] ++ leBytes 18 0) s1
    else s1

def coreRuns (s : State) (site : Nat) : Bool := (getCore s site).power == .on

/-- A write of HOD_RCTLt by a request at a level (13 R339, R342, Table 13.2). -/
def writeRctl (site : Nat) (t : Fin 4) (lvl : Level) (v : Word) (s : State) : State :=
  let r := getRing s site t
  let free := r.ctl.gate = .off && !r.ctl.pend
  let l := min (fld v 17 16) (levelCode lvl)
  let s1 := modRing site t (fun r => { r with
    perr := r.perr && !bit v 7,
    hdr := if free then BitVec.ofNat 15 (min (fld v 39 25) 0x5FFF) else r.hdr,
    lvl := if free then levelOf l else r.lvl }) s
  if bit v 0 && r.ctl.gate = .off then ringEnable site t s1
  else modRing site t (fun r => { r with ctl := enableWrite (bit v 0) false r.ctl }) s1

/-- Room of a thread that waits in the hod stall: its HODPOST or HODCRED completes, or is discarded where the ring is no longer ON
(13 R346, R347). -/
def serveHodWait (site : Nat) (t : Fin 4) (s : State) : State :=
  if (getThr s site t).halted then s else
  match (getThr s site t).run with
  | .stalled (.hodSpace credit n limit) =>
    let r := getRing s site t
    let finish := fun (st : State) => completeWait site t (modThr site t (fun h => { h with pc := h.pc + 8 }) st)
    if r.ctl.gate ≠ .on then finish (modRing site t (fun r => { r with perr := true }) s)
    else if credit then
      (if r.cred + n ≤ 65535 then finish (modRing site t (fun r => { r with cred := r.cred + n }) s) else s)
    else if r.out + n ≤ 2 ^ r.rlog && (limit = 0xFFFF || r.out ≤ limit) then
      finish (modRing site t (fun r => { r with out := r.out + n }) s)
    else s
  | _ => s

def hodRctl (site : Nat) (t : Fin 4) (lvl : Level) (v : Word) (s : State) : State :=
  if coreRuns s site then serveHodWait site t (writeRctl site t lvl v s) else s

def execHodRctlEn (site : Site) (ring : Fin 4) (lvl : Level) (v : BitVec 64) (s : State) : Host.Outcome State Fault Refusal :=
  if isCoreSite site then .next (hodRctl site ring lvl v s) else .fault .noAgent

/-- The drain completes when OUT = 0; a pending enable reads the header afresh (13 R342). -/
def ringDrained (site : Nat) (t : Fin 4) (s : State) : State :=
  let r := getRing s site t
  if r.ctl.gate = .draining && r.out = 0 then
    if r.ctl.pend then ringEnable site t (modRing site t (fun r => { r with ctl := Enable.off }) s)
    else modRing site t (fun r => { r with ctl := Enable.off }) s
  else s

def execHodRingDrainComplete (site : Site) (ring : Fin 4) (s : State) : Host.Outcome State Fault Refusal :=
  if isCoreSite site then .next (ringDrained site ring s) else .fault .noAgent

/-! ### Descriptors (13 R348 to R351) -/

/-- The fields of a descriptor (13 Table 13.7). -/
structure HodFields where
  own : Bool
  kind : Nat
  conf : Bool
  fen : Bool
  flg : Bool
  crd : Bool
  wlog : Nat
  ev : Bool
  len : Nat
  raddr : Nat
  loff : Nat
  wbase : Nat
  rows : Nat
  lstride : Nat
  rstride : Nat
  pat : Nat
  tag : Nat
  zeros : Bool
  deriving DecidableEq, Repr

def parseHod (b : List Byte) : HodFields :=
  let c := leAt b 0 1
  { own := c.testBit 7, kind := c / 16 % 8, conf := c.testBit 3, fen := c.testBit 2, flg := c.testBit 1, crd := c.testBit 0,
    wlog := leAt b 1 1, ev := (leAt b 2 1).testBit 0, len := leAt b 4 4, raddr := leAt b 8 8, loff := leAt b 16 4,
    wbase := leAt b 20 4, rows := leAt b 24 4, lstride := leAt b 28 4, rstride := leAt b 32 8, pat := leAt b 40 8,
    tag := leAt b 48 8, zeros := leAt b 2 1 / 2 == 0 && leAt b 3 1 == 0 && leAt b 56 8 == 0 }

/-- Local offset of a byte (13 R349). -/
def hodLocal (f : HodFields) (row i : Nat) : Nat :=
  let d := row * f.lstride + i
  if f.wlog = 0 then f.loff + d
  else f.wbase + (f.loff + d + 2 ^ f.wlog - f.wbase % 2 ^ f.wlog) % 2 ^ f.wlog

/-- Device ID and device address of the first byte of a row. -/
def hodDev (f : HodFields) : Nat := f.raddr / 2 ^ 48
def hodAddr (f : HodFields) (row : Nat) : Nat := f.raddr % 2 ^ 48 + row * f.rstride
/-- Group address of a byte, with the device ID unchanged. -/
def hodGroup (f : HodFields) (row i : Nat) : Nat := hodDev f * 2 ^ 48 + hodAddr f row + i

/-- Bytes of a descriptor. -/
def hodTotal (f : HodFields) : Nat := f.rows * f.len

/-- The local bytes of a row, as offset and length, one or two ranges where a window wraps. -/
def hodLocalRanges (f : HodFields) (row : Nat) : List (Nat × Nat) :=
  let a := hodLocal f row 0
  if f.wlog = 0 then [(a, f.len)]
  else
    let room := f.wbase + 2 ^ f.wlog - a
    if f.len ≤ room then [(a, f.len)] else [(a, room), (f.wbase, f.len - room)]

def rangesMeet (a b : Nat × Nat) : Bool := decide (a.1 < b.1 + b.2) && decide (b.1 < a.1 + a.2)

/-- A kind 1 source in the own window that overlaps a destination byte. -/
def hodSelfOverlap (s : State) (site : Nat) (f : HodFields) : Bool :=
  f.kind == 1 && hodDev f == ownDev s &&
  (List.range f.rows).any (fun r => match regionOf (hodAddr f r) with
    | .window w off => w == site && (List.range f.rows).any (fun q => (hodLocalRanges f q).any (rangesMeet (off, f.len)))
    | _ => false)

/-- Status 0x02 of Table 13.9. -/
def hodMalformed (s : State) (site : Nat) (f : HodFields) : Bool :=
  !f.zeros || decide (4 < f.kind) ||
  (if f.kind = 3 then decide (f.len ≠ 0) else decide (f.len < 1) || decide (2 ^ 24 < f.len)) ||
  (if f.kind = 3 then decide (f.rows ≠ 1) else decide (f.rows < 1) || decide (65536 < f.rows)) ||
  (decide (f.wlog ≠ 0) && (decide (f.wlog < 7) || decide (20 < f.wlog))) || (f.wlog == 0 && decide (f.wbase ≠ 0)) ||
  decide (2 ^ 48 ≤ f.rstride) || decide (2 ^ 32 ≤ f.rows * f.len) ||
  (f.rows == 1 && (decide (f.lstride ≠ 0) || decide (f.rstride ≠ 0))) ||
  (decide (3 ≤ f.kind) && decide (f.rstride ≠ 0)) ||
  (decide (1 < f.rows) && (decide (f.lstride < f.len) || (f.kind == 2 && decide (f.rstride < f.len)))) ||
  (f.flg && f.kind != 2) || (f.conf && f.kind == 3) || (decide (f.pat ≠ 0) && f.kind != 4) ||
  (decide (f.kind < 3) && decide (2 ^ 57 ≤ f.raddr)) || (f.kind == 3 && (decide (128 ≤ f.raddr) || f.loff % 64 != 0)) ||
  (f.kind == 4 && decide (f.raddr ≠ 0)) || hodSelfOverlap s site f

/-- Status 0x03. -/
def hodWindowBad (f : HodFields) : Bool :=
  f.wlog != 0 &&
  (f.wbase % 2 ^ f.wlog != 0 || decide (f.loff < f.wbase) || decide (f.wbase + 2 ^ f.wlog ≤ f.loff) ||
   decide (lmBytes < f.wbase + 2 ^ f.wlog) || decide (2 ^ f.wlog < (f.rows - 1) * f.lstride + f.len))

/-- Bytes of local memory that a row needs: its length, or the header of kind 3. -/
def hodRowLen (f : HodFields) : Nat := if f.kind = 3 then 64 else f.len

/-- First local byte at or beyond 0x18_0000 (status 0x04). -/
def hodLocalBeyond (f : HodFields) : Option Nat :=
  if f.wlog ≠ 0 then none
  else ((List.range f.rows).find? (fun r => lmBytes < f.loff + r * f.lstride + hodRowLen f)).map
    (fun r => max (f.loff + r * f.lstride) lmBytes)

/-- A byte of the remote side lies in the range that the kind requires (13 Table 13.8). -/
def hodKindByte (f : HodFields) (a : Nat) : Bool :=
  if f.kind = 0 || f.kind = 2 then
    (if hodDev f = 511 then decide (a < 2 ^ 48) else decide (a < 0x01E000000000))
  else match regionOf (hodAddr f 0) with
    | .window w _ => decide (windowAddr w 0 ≤ a) && decide (a < windowAddr (w + 1) 0)
    | _ => false

/-- First remote byte outside the required range (status 0x0B): within a row the range is an interval, so it fails at its first byte or
after its last good one. -/
def hodKindBad (f : HodFields) : Option Nat :=
  if 3 ≤ f.kind then none
  else ((List.range f.rows).find? (fun r => !hodKindByte f (hodAddr f r) || !hodKindByte f (hodAddr f r + f.len - 1))).map
    (fun r => if hodKindByte f (hodAddr f r) then
        hodGroup f r (((List.range f.len).find? (fun i => !hodKindByte f (hodAddr f r + i))).getD 0)
      else hodGroup f r 0)

/-- Local offset of the first byte of a row's source, where it lies in the core's own window (13 R349). -/
def hodOwnSource (s : State) (site : Nat) (f : HodFields) (row : Nat) : Option Nat :=
  if f.kind = 1 && hodDev f = ownDev s then
    (match regionOf (hodAddr f row) with
     | .window w off => if w = site then some off else none
     | _ => none)
  else none

/-- The first byte that R351 refuses, with its address: local bytes in the guard, a source in the own window among them (08 R218), and
remote bytes outside the thread's reach, in transfer order. -/
def hodProtBad (s : State) (site : Nat) (th : Thread) (lvl : Level) (f : HodFields) : Option Nat :=
  let own := hodDev f == ownDev s && decide (f.kind < 3)
  let permBit := if f.kind = 2 then 62 else 63
  let guarded := fun (r i : Nat) => lvl = .user && (match hodOwnSource s site f r with | some off => inGuardByte th (off + i) | none => false)
  let badRemote := fun (r i : Nat) => own && (!mayReach th lvl (hodAddr f r + i) 1 permBit || guarded r i)
  let badGroup := decide (f.kind < 3) && !own && !groupReach s lvl (hodDev f)
  if lvl = .machine then none
  else if badGroup then some (hodGroup f 0 0)
  else
    let clean := fun (r : Nat) =>
      (lvl != .user || !(hodLocalRanges f r).any (fun x => touchesGuard th x.1 x.2)) &&
      (!own || mayReach th lvl (hodAddr f r) f.len permBit) &&
      (lvl != .user || (match hodOwnSource s site f r with | some off => !touchesGuard th off f.len | none => true))
    (List.range f.rows).findSome? (fun r =>
      if clean r then none
      else (List.range f.len).findSome? (fun i =>
        if lvl = .user && inGuardByte th (hodLocal f r i) then some (hodLocal f r i)
        else if badRemote r i then some (hodGroup f r i) else none))

/-- The local bytes of a kind 3 request are checked against the guard: the header, then its lists and bag rows. -/
def hodGruProt (s : State) (site : Nat) (th : Thread) (lvl : Level) (f : HodFields) : Option Nat :=
  if lvl ≠ .user then none
  else
    let h := parseGru (lmReadN s site f.loff 64)
    let ranges := (f.loff, 64) :: (if gruListsFit h then gruLists h ++ gruBagRows h else [])
    (ranges.find? (fun x => touchesGuard th x.1 x.2)).map (fun x => max x.1 (th.reach.gbase.toNat * 128))

/-- Checks of Table 13.9 in order: status and EADDR, none where the descriptor passes. -/
def hodCheck (s : State) (site : Nat) (t : Fin 4) (b : List Byte) : Option (Nat × Nat) :=
  let f := parseHod b
  let th := getThr s site t
  let lvl := (getRing s site t).lvl
  if !f.own then some (1, 0)
  else if hodMalformed s site f then some (2, 0)
  else if hodWindowBad f then some (3, 0)
  else match hodLocalBeyond f with
    | some x => some (4, x)
    | none => match hodKindBad f with
      | some x => some (0x0B, x)
      | none => match (if f.kind = 3 then hodGruProt s site th lvl f else hodProtBad s site th lvl f) with
        | some x => some (5, x)
        | none => none

def hodSlot (r : HodRing) (seq : BitVec 32) : Nat := (seq - r.seq0).toNat % 2 ^ r.rlog
def hodSlotAddr (r : HodRing) (seq : BitVec 32) : Nat := r.rbase + 64 * hodSlot r seq

/-- Every request of a descriptor has been sent, or it will send none. -/
def hodSent (d : HodDesc) : Bool := d.done || (d.begun && d.cursor.isNone)

/-- The descriptor at the head is read and checked (13 R350). One that cannot be read for an uncorrectable word gets DATAERR. -/
def hodDescCheck (site : Nat) (t : Fin 4) (s : State) : State :=
  let r := getRing s site t
  if r.ctl.gate = .on && coreRuns s site && r.active.length < r.out && r.active.all hodSent then
    let seq := r.next + BitVec.ofNat 32 r.active.length
    let a := hodSlotAddr r seq
    let b := lmReadN s site a 64
    let fail := match lmFirstBad s site a 64 with
      | some u => some (9, u * 8)
      | none => hodCheck s site t b
    let d : HodDesc := {
      seq := seq, bytes := b, status := (fail.map (·.1)).getD 0, sub := 0,
      eaddr := BitVec.ofNat 64 ((fail.map (·.2)).getD 0), moved := 0, begun := false, cursor := none, waiting := [],
      readback := 0, done := fail.isSome }
    modRing site t (fun r => { r with active := r.active ++ [d], take := if fail.isSome then seq + 1 else r.take }) (noteLm site a 64 s)
  else s

def execHodDescriptorCheck (site : Site) (ring : Fin 4) (s : State) : Host.Outcome State Fault Refusal :=
  if isCoreSite site then .next (hodDescCheck site ring s) else .fault .noAgent

/-! ### Transfers (13 R352 to R356) -/

def modDesc (site : Nat) (t : Fin 4) (seq : BitVec 32) (f : HodDesc → HodDesc) (s : State) : State :=
  modRing site t (fun r => { r with active := r.active.map (fun d => if d.seq = seq then f d else d) }) s

/-- An error at a transfer position: the first failing byte in transfer order is kept, and no further request is sent (13 R358). -/
def hodFail (pos status eaddr : Nat) (d : HodDesc) : HodDesc :=
  if d.status = 0 || pos < d.moved then
    { d with status := status, moved := pos, eaddr := BitVec.ofNat 64 eaddr, cursor := none }
  else { d with cursor := none }

/-- Contiguous runs of written bytes. -/
def byteRuns : List (Nat × Byte) → List (Nat × List Byte)
  | [] => []
  | (a, b) :: r =>
    match byteRuns r with
    | (c, bs) :: rest => if c = a + 1 then (a, b :: bs) :: rest else (a, [b]) :: (c, bs) :: rest
    | [] => [(a, [b])]

/-- Write local bytes of a descriptor from a transfer position; a source byte that is none is left alone. Answers the first position
whose destination word discarded it. -/
def hodStore (site : Nat) (f : HodFields) (row first : Nat) (bytes : List (Option Byte)) (s : State) : Option (Nat × Nat) × State :=
  let items := (List.range bytes.length).filterMap (fun i => (bytes.getD i none).map (fun b => (i, hodLocal f row (first + i), b)))
  let lost := items.find? (fun x => (byteRuns (items.map (·.2))).any (fun run =>
    decide (run.1 ≤ x.2.1) && decide (x.2.1 < run.1 + run.2.length) &&
    lostByte 8 (lmBadAt (getCore s site)) run.1 run.2.length x.2.1))
  (lost.map (fun x => (row * f.len + first + x.1, x.2.1 / 8 * 8)),
   (byteRuns (items.map (·.2))).foldl (fun st run => lmWriteN site run.1 run.2 st) s)

/-- Piece of a row from byte i on: the part within one 256 B block of the remote address. -/
def pieceLen (f : HodFields) (row i : Nat) : Nat := min (f.len - i) (256 - (hodAddr f row + i) % 256)

/-- The position after a piece. -/
def nextPiece (f : HodFields) (row i : Nat) : Option (Nat × Nat) :=
  let j := i + pieceLen f row i
  if j < f.len then some (row, j) else if row + 1 < f.rows then some (row + 1, 0) else none

/-- Destination of a piece of the own device: its site, or none where nothing holds the address. -/
def pieceSite (s : State) (f : HodFields) (row i : Nat) : Option Nat :=
  if hodDev f = ownDev s then memSite s (hodAddr f row + i) else some (groupDest (hodDev f) (hodAddr f row + i))

/-- Every later piece from a position on, by fuel. -/
def piecesFrom (f : HodFields) : Nat → Option (Nat × Nat) → List (Nat × Nat)
  | 0, _ => []
  | _, none => []
  | n + 1, some (r, i) => (r, i) :: piecesFrom f n (nextPiece f r i)

/-- The piece is the last one of its descriptor for its destination site (13 R359). -/
def lastForSite (s : State) (f : HodFields) (row i : Nat) : Bool :=
  !(piecesFrom f (f.rows * (f.len / 256 + 2)) (nextPiece f row i)).any (fun p => pieceSite s f p.1 p.2 == pieceSite s f row i)

/-- Number a packet of a stream: window, CNT and flag, and the stream's new state (12 R327). Streams are kept by destination device and
site. -/
def streamStep (streams : List (Nat × BitVec 16 × Nat)) (dst : Nat) (flag : Bool) :
    (BitVec 16 × Nat × Bool) × List (Nat × BitVec 16 × Nat) :=
  let cur := ((streams.find? (fun e => e.1 == dst)).map (·.2)).getD (0, 0)
  let rest := streams.filter (fun e => e.1 != dst)
  let ord := flag || decide (65534 ≤ cur.2)
  if ord then ((cur.1, cur.2, true), (dst, cur.1 + 1, 1) :: rest)
  else ((cur.1, 0, false), (dst, cur.1, cur.2 + 1) :: rest)

/-- Send a packet of ring t to a site of a device. -/
def hodSend (site : Nat) (t : Fin 4) (dev dst addr : Nat) (flag : Bool) (body : Body) (s : State) : State :=
  let r := getRing s site t
  let n := streamStep r.streams (dev * 2048 + dst) flag
  inject { mkPacket s 4 r.lvl site dst addr body with
      ddev := dev, strm := t.val, seq := n.1.1, cnt := n.1.2.1, ord := n.1.2.2 }
    (modRing site t (fun r => { r with streams := n.2 }) s)

/-- A packet over a bond link carries no stream. -/
def hodSendBond (site : Nat) (t : Fin 4) (dst addr : Nat) (body : Body) (s : State) : State :=
  injectDirect (mkPacket s 4 (getRing s site t).lvl site dst addr body) s

/-- The outstanding requests of a descriptor are writes: those of kind 2 but for its read-back. Those of kind 3 are neither. -/
def hodWrites (d : HodDesc) : Bool := (parseHod d.bytes).kind == 2 && d.readback != 1
def hodReads (d : HodDesc) : Bool := decide ((parseHod d.bytes).kind < 2) || ((parseHod d.bytes).kind == 2 && d.readback == 1)

/-- Requests of a ring of one sort that await an answer. -/
def ringWaiting (sort : HodDesc → Bool) (r : HodRing) : Nat :=
  ((r.active.filter sort).map (fun d => d.waiting.length)).foldl (· + ·) 0

/-- A ring may send one more request of a sort: at most 16 of its own and 32 of the hod are outstanding (13 Table 13.12). -/
def hodRoom (s : State) (site : Nat) (t : Fin 4) (sort : HodDesc → Bool) : Bool :=
  decide (ringWaiting sort (getRing s site t) < 16) &&
  decide (((threadsOf.map (fun u => ringWaiting sort (getRing s site u))).foldl (· + ·) 0) < 32)

/-- Kinds 1 and 4 that touch local memory alone: copy or fill one row. -/
def hodLocalRow (site : Nat) (f : HodFields) (row : Nat) (s : State) : (Option (Nat × Nat × Nat)) × State :=
  if f.kind = 4 then
    let bytes := (List.range f.len).map (fun i => some (BitVec.ofNat 8 (f.pat / 256 ^ (hodLocal f row i % 8))))
    let r := hodStore site f row 0 bytes s
    (r.1.map (fun x => (x.1, 9, x.2)), r.2)
  else
    let off := hodAddr f row - windowAddr site 0
    let c := getCore s site
    let bytes := (List.range f.len).map (fun i =>
      if lmBytes ≤ off + i || lmBadAt c ((off + i) / 8) then none else some (Memory.read c.lm (off + i)))
    let src := (List.range f.len).find? (fun i => (bytes.getD i none).isNone)
    let r := hodStore site f row 0 bytes (noteLm site off (min f.len (lmBytes - off)) s)
    let srcErr := src.map (fun i => (row * f.len + i, if lmBytes ≤ off + i then 0x0B else 9, hodGroup f row i))
    let dstErr := r.1.map (fun x => (x.1, 9, x.2))
    (match srcErr, dstErr with
     | some a, some b => if b.1 < a.1 then some b else some a
     | some a, none => some a
     | none, b => b, r.2)

/-- The transfer touches no remote side: a fill, or a source in the own window. -/
def hodIsLocal (s : State) (site : Nat) (f : HodFields) : Bool :=
  f.kind == 4 || (f.kind == 1 && hodDev f == ownDev s &&
    match regionOf (hodAddr f 0) with | .window w _ => w == site | _ => false)

/-- A whole local transfer, row by row until an error. -/
def hodLocalAll (site : Nat) (t : Fin 4) (seq : BitVec 32) (f : HodFields) (s : State) : State :=
  (List.range f.rows).foldl (fun st row =>
    match (getRing st site t).active.find? (fun d => d.seq == seq) with
    | some d =>
      if d.status ≠ 0 then st
      else
        let r := hodLocalRow site f row st
        (match r.1 with
         | some e => modDesc site t seq (hodFail e.1 e.2.1 e.2.2) r.2
         | none => r.2)
    | none => st) s

/-- One packet of a descriptor at its cursor. A source word that is uncorrectable cuts a write short before it (13 R358). -/
def hodSendPiece (site : Nat) (t : Fin 4) (d : HodDesc) (row i : Nat) (s : State) : State :=
  let f := parseHod d.bytes
  let dev := hodDev f
  let a := hodAddr f row + i
  let n := pieceLen f row i
  let pos := row * f.len + i
  let next := nextPiece f row i
  match pieceSite s f row i with
  | none => modDesc site t d.seq (hodFail pos 7 (hodGroup f row i)) s
  | some dst =>
    let (tag, s1) := newReq s
    let s2 := modDesc site t d.seq (fun d => { d with cursor := next, waiting := d.waiting ++ [(tag, pos)] }) s1
    if f.kind = 2 then
      let src := (List.range n).map (fun k => hodLocal f row (i + k))
      let bytes := fun k => (src.take k).map (Memory.read (getCore s site).lm)
      match firstBit n (fun k => lmBadAt (getCore s site) (src.getD k 0 / 8)) with
      | some 0 => modDesc site t d.seq (hodFail pos 9 (src.getD 0 0)) (noteLm site (src.getD 0 0) 1 s)
      | some k => modDesc site t d.seq (hodFail (pos + k) 9 (src.getD k 0)) <| noteLm site (src.getD k 0) 1 (hodSend site t dev dst a f.flg (.hodWrite t tag (bytes k)) s2)
      | none => hodSend site t dev dst a (f.flg && lastForSite s f row i) (.hodWrite t tag (bytes n)) s2
    else
      let a0 := a / 32 * 32
      let body := Body.hodRead t tag ((a + n + 31) / 32 * 32 - a0)
      if dev = ownDev s && bonded s site dst then hodSendBond site t dst a0 body s2
      else hodSend site t dev dst a0 false body s2

/-- The descriptor of a ring with a packet ready and room for it. -/
def hodReady (s : State) (site : Nat) (t : Fin 4) : Option (HodDesc × Nat × Nat) :=
  match (getRing s site t).active.find? (fun d => d.begun && d.cursor.isSome) with
  | some d =>
    (match d.cursor with
     | some (row, i) => if hodRoom s site t (if hodWrites d then hodWrites else hodReads) then some (d, row, i) else none
     | none => none)
  | none => none

/-- The hod sends what the limits allow, one packet at a time, taking the rings in turn (13 R355, Table 13.12). -/
def hodPump (site : Nat) : Nat → State → State
  | 0, s => s
  | n + 1, s =>
    let last := (getCore s site).hodTurn
    match [last + 1, last + 2, last + 3, last].findSome? (fun t => (hodReady s site t).map (fun x => (t, x))) with
    | some (t, d, row, i) => hodPump site n (hodSendPiece site t d row i (modCore site (fun c => { c with hodTurn := t }) s))
    | none => s

/-- Bytes that the read-back of R356 reads: the sector of the last byte written. -/
def lastByteAddr (f : HodFields) : Nat := hodAddr f (f.rows - 1) + f.len - 1

/-- A descriptor whose transfer has ended completes, or reads back first, once the read-back has room (13 R356). -/
def hodSettle (site : Nat) (t : Fin 4) (seq : BitVec 32) (s : State) : State :=
  match (getRing s site t).active.find? (fun d => d.seq == seq) with
  | some d =>
    let f := parseHod d.bytes
    if d.done || !d.begun || d.cursor.isSome || d.waiting ≠ [] then s
    else if d.status ≠ 0 || !f.conf || d.readback = 2 then modDesc site t seq (fun d => { d with done := true }) s
    else if f.kind = 2 then
      let a := lastByteAddr f / 32 * 32
      (match (if hodDev f = ownDev s then memSite s a else some (groupDest (hodDev f) a)) with
       | some dst =>
         if hodRoom s site t hodReads then
           let (tag, s1) := newReq s
           hodSend site t (hodDev f) dst a false (.hodRead t tag 32)
             (modDesc site t seq (fun d => { d with readback := 1, waiting := [(tag, hodTotal f - 1)] }) s1)
         else s
       | none => modDesc site t seq (fun d => { hodFail (hodTotal f) 7 (hodDev f * 2 ^ 48 + a) d with done := true }) s)
    else
      let o := hodLocal f (f.rows - 1) (f.len - 1) / 32 * 32
      (match lmFirstBad s site o 32 with
       | some _ => modDesc site t seq (fun d => { hodFail (hodTotal f) 9 o d with done := true, readback := 2 }) (noteLm site o 32 s)
       | none => modDesc site t seq (fun d => { d with readback := 2, done := true }) s)
  | none => s

/-- Every descriptor of every ring whose transfer has ended. -/
def hodSettleAll (site : Nat) (s : State) : State :=
  threadsOf.foldl (fun st t => ((getRing s site t).active.map (·.seq)).foldl (fun u q => hodSettle site t q u) st) s

/-- The hod goes on: it sends what it may, and what has ended completes. At most 64 requests are outstanding, and each ring may meet an
error. -/
def hodRun (site : Nat) (s : State) : State := hodSettleAll site (hodPump site 80 s)

/-- The request header of kind 3 and what it names, as it is sent to a node (13 R354; assumption log 20). -/
def gruMessage (s : State) (site : Nat) (f : HodFields) : List Byte :=
  let hb := lmReadN s site f.loff 64
  let h := parseGru hb
  if gruListsFit h then
    hb ++ (gruLists h).flatMap (fun x => lmReadN s site x.1 x.2) ++
      (if gruScatterOp h.op then (gruBagRows h).flatMap (fun x => lmReadN s site x.1 x.2) else [])
  else hb

/-- The first uncorrectable word that the hod would read for a kind 3 request. -/
def gruMessageBad (s : State) (site : Nat) (f : HodFields) : Option Nat :=
  let h := parseGru (lmReadN s site f.loff 64)
  ((f.loff, 64) :: (if gruListsFit h then gruLists h ++ (if gruScatterOp h.op then gruBagRows h else []) else [])).findSome?
    (fun x => (lmFirstBad s site x.1 x.2).map (· * 8))

/-- Begin a kind 3 descriptor. -/
def hodBeginGru (site : Nat) (t : Fin 4) (d : HodDesc) (s : State) : State :=
  let f := parseHod d.bytes
  let k := f.raddr
  let fin := fun status eaddr => modDesc site t d.seq (fun d => { hodFail 0 status eaddr d with done := true }) s
  match gruMessageBad s site f with
  | some o => noteLm site o 1 (fin 9 o)
  | none =>
    if 96 ≤ k || !gruThere s k then fin 7 0
    else
      let (tag, s1) := newReq s
      let msg := gruMessage s site f
      (List.range ((msg.length + 255) / 256)).foldl (fun st i =>
        hodSend site t (ownDev s) (nodeSite k) 0 false (.gruReq t tag (256 * i) msg.length ((msg.drop (256 * i)).take 256)) st)
        (modDesc site t d.seq (fun d => { d with waiting := [(tag, 0)] }) s1)

/-- A checked descriptor begins, once its credit is there and, with FEN, every earlier one has completed (13 R347, R355). -/
def hodBegin (site : Nat) (t : Fin 4) (s : State) : State :=
  let r := getRing s site t
  match r.active.getLast? with
  | some d =>
    let f := parseHod d.bytes
    if d.begun || d.done || r.ctl.gate ≠ .on || !coreRuns s site then s
    else if f.crd && r.cred = 0 then s
    else if f.fen && !(r.active.dropLast).all (fun e => e.done) then s
    else
      let s1 := modRing site t (fun r => { r with cred := if f.crd then r.cred - 1 else r.cred, take := d.seq + 1 }) s
      let s2 := modDesc site t d.seq (fun d => { d with
        begun := true, cursor := if f.kind = 3 || hodIsLocal s site f then none else some (0, 0) }) s1
      let s3 := if f.kind = 3 then hodBeginGru site t d s2
                else if hodIsLocal s site f then hodLocalAll site t d.seq f s2
                else s2
      hodRun site (serveHodWait site t s3)
  | none => s

def execHodDescriptorBegin (site : Site) (ring : Fin 4) (s : State) : Host.Outcome State Fault Refusal :=
  if isCoreSite site then .next (hodBegin site ring s) else .fault .noAgent

/-- The descriptor of a ring that waits under a tag, with the position. -/
def descOfTag (r : HodRing) (tag : Nat) : Option (HodDesc × Nat) :=
  r.active.findSome? (fun d => (d.waiting.find? (fun w => w.1 == tag)).map (fun w => (d, w.2)))

/-- Status of a transfer for an exception code of its target (13 Table 13.11). -/
def hodStatusOf (code : Nat) : Nat :=
  if code = 6 then 7 else if code = 0x0A then 8 else if code = 8 then 0x0B else 9

/-- A request of a descriptor ends, with an error where `fail` gives one; then the ring goes on. -/
def hodAnswer (site : Nat) (t : Fin 4) (d : HodDesc) (tag : Nat) (fail : Option (Nat × Nat × Nat)) (s : State) : State :=
  let s1 := modDesc site t d.seq (fun d =>
    let d1 := { d with waiting := d.waiting.filter (fun w => w.1 != tag) }
    match fail with
    | some e => hodFail e.1 e.2.1 e.2.2 d1
    | none => d1) s
  hodRun site s1

/-- Read data for a descriptor is written locally (13 R352, R358). -/
def hodTakeData (site : Nat) (t : Fin 4) (tag : Nat) (res : MemResult) (s : State) : State :=
  match descOfTag (getRing s site t) tag with
  | none => s
  | some (d, pos) =>
    let f := parseHod d.bytes
    let row := pos / f.len
    let i := pos % f.len
    match res with
    | .bytes v bad =>
      let a := hodAddr f row + i
      let skip := a % 32
      let n := pieceLen f row i
      let bytes := (List.range n).map (fun k => if bad.contains (a + k) then none else some (v.getD (skip + k) 0))
      let srcErr := (firstBit n (fun k => bad.contains (a + k))).map (fun k => (pos + k, 9, hodGroup f row (i + k)))
      let r := hodStore site f row i bytes s
      let dstErr := r.1.map (fun x => (x.1, 9, x.2))
      let fail := match srcErr, dstErr with
        | some x, some y => if y.1 < x.1 then some y else some x
        | some x, none => some x
        | none, y => y
      hodAnswer site t d tag fail (countPerf site 0xD t n r.2)
    | .fault code _ => hodAnswer site t d tag (some (pos, hodStatusOf code, hodGroup f row i)) s
    | _ => hodAnswer site t d tag none s

def hodReadData (n : Nat) (s : State) : State :=
  match arrived s n with
  | some p => match p.body with
    | .hodData ring tag res =>
      (match descOfTag (getRing s p.dsite ring) tag with
       | some (d, _) => if d.readback = 1 then s else hodTakeData p.dsite ring tag res (acceptReply p s)
       | none => acceptReply p s)
    | _ => s
  | none => s

def execHodReadData (pkt : Nat) (s : State) : Host.Outcome State Fault Refusal := .next (hodReadData pkt s)

/-- A write of a descriptor is acknowledged, or refused. -/
def hodTakeAck (site : Nat) (t : Fin 4) (tag : Nat) (res : MemResult) (s : State) : State :=
  match descOfTag (getRing s site t) tag with
  | none => s
  | some (d, pos) =>
    let f := parseHod d.bytes
    let row := pos / f.len
    let i := pos % f.len
    match res with
    | .fault 0x0E x => hodAnswer site t d tag (some (pos + (x - (hodAddr f row + i)), 9, hodDev f * 2 ^ 48 + x / 32 * 32)) s
    | .fault code _ => hodAnswer site t d tag (some (pos, hodStatusOf code, hodGroup f row i)) s
    | _ => hodAnswer site t d tag none s

def hodWriteAck (n : Nat) (s : State) : State :=
  match arrived s n with
  | some p => match p.body with
    | .hodAck ring tag res => hodTakeAck p.dsite ring tag res (acceptReply p s)
    | _ => s
  | none => s

def execHodWriteAck (pkt : Nat) (s : State) : Host.Outcome State Fault Refusal := .next (hodWriteAck pkt s)

/-- The read-back returns (13 R356). -/
def hodReadback (n : Nat) (s : State) : State :=
  match arrived s n with
  | some p => match p.body with
    | .hodData ring tag res =>
      (match descOfTag (getRing s p.dsite ring) tag with
       | some (d, _) =>
         if d.readback ≠ 1 then s
         else
           let f := parseHod d.bytes
           let sector := hodDev f * 2 ^ 48 + lastByteAddr f / 32 * 32
           let status := match res with
             | .bytes _ bad => if bad = [] then 0 else 9
             | .fault code _ => hodStatusOf code
             | _ => 0
           hodRun p.dsite (modDesc p.dsite ring d.seq (fun d =>
             let d1 := { d with waiting := [], readback := 2, done := true }
             if status = 0 then d1 else hodFail (hodTotal f) status sector d1) (acceptReply p s))
       | none => s)
    | _ => s
  | none => s

def execHodReadback (pkt : Nat) (s : State) : Host.Outcome State Fault Refusal := .next (hodReadback pkt s)

/-- The status of a kind 3 descriptor arrives (13 R354). -/
def hodGruStatus (n : Nat) (s : State) : State :=
  match arrived s n with
  | some p => match p.body with
    | .gruStatus ring tag status =>
      (match descOfTag (getRing s p.dsite ring) tag with
       | some (d, _) => hodRun p.dsite (modDesc p.dsite ring d.seq (fun d => { d with status := status, waiting := [], done := true })
           (acceptReply p s))
       | none => acceptReply p s)
    | _ => s
  | none => s

def execHodGruStatus (pkt : Nat) (s : State) : Host.Outcome State Fault Refusal := .next (hodGruStatus pkt s)

/-- UNREACHABLE, or a timeout, for a request of a hod (13 R358, 19 R500). -/
def hodUnreachable (site : Nat) (t : Fin 4) (tag : Nat) (s : State) : State :=
  match descOfTag (getRing s site t) tag with
  | none => s
  | some (d, pos) =>
    let f := parseHod d.bytes
    if f.kind = 3 then modDesc site t d.seq (fun d => { hodFail 0 6 0 d with waiting := [], done := true }) s
    else if d.readback = 1 then
      hodRun site (modDesc site t d.seq (fun d =>
        { hodFail (hodTotal f) 6 (hodDev f * 2 ^ 48 + lastByteAddr f / 32 * 32) d with waiting := [], readback := 2, done := true }) s)
    else hodAnswer site t d tag (some (pos, 6, hodGroup f (pos / f.len) (pos % f.len))) s

/-! ### Completion (13 R343, R357, R594) -/

/-- PART of a record. -/
def hodPart (f : HodFields) (bytes : Nat) : Bool := f.kind != 3 && decide (bytes < hodTotal f)

/-- The 32 B record of a descriptor. -/
def hodRecord (r : HodRing) (seq : BitVec 32) (b : List Byte) (status moved : Nat) (eaddr : Word) (conf : Bool) : List Byte :=
  let f := parseHod b
  let bytes := if f.kind = 3 then 0 else if status = 0 then hodTotal f else moved
  let ph := 1 - (seq - r.seq0).toNat / 2 ^ r.rlog % 2
  leBytes 4 seq.toNat ++ leBytes 2 (hodSlot r seq) ++ leBytes 1 status ++
  leBytes 1 (ph + boolBit conf 1 + boolBit (hodPart f bytes) 2) ++ leBytes 4 bytes ++ leBytes 1 f.kind ++ leBytes 3 0 ++
  leBytes 8 f.tag ++ leBytes 8 (if status = 0 then 0 else eaddr.toNat)

/-- Clear OWN, write the record at CQBASE + 32 × (SEQ mod N), set the event, advance OUT and NEXT, and serve a waiting HODPOST
(13 R357). -/
def hodFinish (site : Nat) (t : Fin 4) (seq : BitVec 32) (b : List Byte) (status moved : Nat) (eaddr : Word) (conf : Bool)
    (s : State) : State :=
  let r := getRing s site t
  let slot := hodSlotAddr r seq
  let own := Memory.read (getCore s site).lm slot
  let s1 := lmWriteN site slot [own &&& 0x7F] s
  let s2 := lmWriteN site (r.cqbase + 32 * (seq.toNat % 2 ^ r.rlog)) (hodRecord r seq b status moved eaddr conf) s1
  let s3 := traceRec site 5 t.val seq.toNat (if (parseHod b).ev then setEventBit site t r.lvl r.evb s2 else s2)
  serveHodWait site t (modRing site t (fun r => { r with
    out := r.out - 1, next := r.next + 1, active := r.active.filter (fun d => d.seq != seq),
    take := if r.take = seq then seq + 1 else r.take }) s3)

/-- The next record of a ring is written, in SEQ order. While DRAINING, a posted descriptor that has not begun is cancelled. -/
def hodComplete (site : Nat) (t : Fin 4) (s : State) : State :=
  let r := getRing s site t
  if !coreRuns s site || r.out = 0 || r.ctl.gate = .off then s
  else match r.active with
    | d :: _ =>
      if d.done then hodFinish site t d.seq d.bytes d.status d.moved d.eaddr (d.readback = 2) s
      else if !d.begun && r.ctl.gate = .draining then hodFinish site t d.seq d.bytes 0x0A 0 0 false s
      else s
    | [] =>
      if r.ctl.gate = .draining then
        hodFinish site t r.next (lmReadN s site (hodSlotAddr r r.next) 64) 0x0A 0 0 false s
      else s

def execHodCompletion (site : Site) (ring : Fin 4) (s : State) : Host.Outcome State Fault Refusal :=
  if isCoreSite site then .next (hodComplete site ring s) else .fault .noAgent

end Sys2Proof.Machine
end

