-- ==== Sys2Proof/Machine/Chan.lean ====
section
/-! DEFINITION. Message channels (14): endpoints and their rings, reply tokens, sends and their answers, and waiting receivers. -/

namespace Sys2Proof.Machine

open Sys2Proof

/-! ### Endpoints (14 R360 to R366) -/

/-- The header of an endpoint's ring passes or fails its checks in the order of Table 14.6: the code, 0 where it passes. -/
def endHeaderCheck (hoff : Nat) (h : List Byte) : Nat :=
  let rbase := leAt h 0 4
  let rlog := leAt h 4 1
  if leAt h 5 3 ≠ 0 || (h.drop 16).any (· != 0) then 1
  else if rbase % 64 ≠ 0 then 2
  else if rlog < 9 || 16 < rlog then 3
  else if lmBytes < rbase + 2 ^ rlog then 4
  else if rbase < hoff + 64 && hoff < rbase + 2 ^ rlog then 5
  else 0

/-- Owner of an endpoint: thread 0 on a control core. -/
def endOwner (site : Nat) (e : Endpoint) : Fin 4 := if isCcSite site then 0 else Fin.ofNat 4 e.ownt.toNat

/-- CONS as the header holds it now. -/
def endCons (s : State) (site x : Nat) : BitVec 32 :=
  BitVec.ofNat 32 (leNat (lmReadN s site ((getEnd s site x).hdr.toNat * 64 + 8) 4))

/-- The endpoint reads CONS (14 R364). -/
def readCons (site x : Nat) (s : State) : State := modEnd site x (fun e => { e with cons := endCons s site x }) s

/-- PROD is written into the header. -/
def writeProd (site x : Nat) (s : State) : State :=
  let e := getEnd s site x
  lmWriteN site (e.hdr.toNat * 64 + 12) (leBytes 4 e.prod.toNat) s

/-- READY of a thread (14 R376). -/
def readyMask (s : State) (site : Nat) (t : Fin 4) : BitVec 16 :=
  foldN 16 (fun x (m : BitVec 16) =>
    let e := getEnd s site x
    if e.ctl.gate == .on && endOwner site e == t && e.prod != endCons s site x then m ||| (1#16 <<< x) else m) 0

/-- A thread that waits in cs.chwait completes when an endpoint of its mask is ready. -/
def serveReceiver (site : Nat) (t : Fin 4) (s : State) : State :=
  match (getThr s site t).run with
  | .stalled (.receive m d) =>
    let r := readyMask s site t
    if r &&& m ≠ 0 && !(getThr s site t).halted then
      completeWait site t (modThr site t (fun h =>
        { writeKey (if d = 0 then none else some d) (zext r) h with pc := h.pc + 8 }) s)
    else s
  | _ => s

/-- An enable that takes effect (14 R363). -/
def endEnable (site x : Nat) (s : State) : State :=
  let hoff := (getEnd s site x).hdr.toNat * 64
  let h := lmReadN s site hoff 64
  let err := endHeaderCheck hoff h
  if err = 0 then
    let cons := BitVec.ofNat 32 (leAt h 8 4)
    writeProd site x (modEnd site x (fun e => { e with
      ctl := ⟨true, false, .on⟩, err := 0, rbase := leAt h 0 4, rlog := leAt h 4 1, prod := cons, cons := cons }) s)
  else modEnd site x (fun e => { e with ctl := Enable.off, err := BitVec.ofNat 4 err }) s

/-- A write of CHN_EPCTLx (14 Table 14.2, R363): a drain that begins cancels every live token. -/
def writeEpctl (site x : Nat) (v : Word) (s : State) : State :=
  let e := getEnd s site x
  let free := e.ctl.gate = .off && !e.ctl.pend
  let s1 := modEnd site x (fun e => { e with
    hdr := if free then BitVec.ofNat 15 (min (fld v 39 25) 0x5FFF) else e.hdr,
    minlvl := if free then BitVec.ofNat 2 (min (fld v 21 20) 2) else e.minlvl,
    ownt := if free then (if isCcSite site then 0 else BitVec.ofNat 2 (fld v 19 18)) else e.ownt,
    even := bit v 17, evb := BitVec.ofNat 5 (max 8 (fld v 16 12)) }) s
  if bit v 0 && e.ctl.gate = .off then endEnable site x s1
  else
    let drains := !bit v 0 && e.ctl.gate = .on
    modEnd site x (fun e => { e with
      ctl := enableWrite (bit v 0) false e.ctl,
      tokens := if drains then [] else e.tokens, resv := if drains then 0 else e.resv }) s1

def chnEpctl (site x : Nat) (v : Word) (s : State) : State := if coreRuns s site then writeEpctl site x v s else s

def execChnEpctlEn (site : Site) (x : Fin 16) (v : BitVec 64) (s : State) : Host.Outcome State Fault Refusal :=
  if hasThreads site then .next (chnEpctl site x v s) else .fault .noAgent

/-- A drain completes when no record write is in progress; a pending enable reads the header afresh. -/
def endDrained (site x : Nat) (s : State) : State :=
  let e := getEnd s site x
  if e.ctl.gate = .draining && e.writing = 0 then
    let s1 := modEnd site x (fun e => { e with ctl := Enable.off }) s
    if e.ctl.pend then endEnable site x s1 else s1
  else s

def execChnEndpointDrainComplete (site : Site) (x : Fin 16) (s : State) : Host.Outcome State Fault Refusal :=
  if hasThreads site then .next (endDrained site x s) else .fault .noAgent

/-- Release a token and its reservation (14 R372, R373). -/
def dropToken (tok : Nat) (e : Endpoint) : Endpoint :=
  { e with tokens := mdel e.tokens tok, resv := e.resv - mget e.tokens tok 0 }

/-- CV = 1 with CTOK, at reply endpoint e. -/
def cancelToken (site e tok : Nat) (s : State) : State :=
  if coreRuns s site then modEnd site (8 + e) (dropToken tok) s else s

def execTokenCancel (site : Site) (e : Fin 8) (tok : Fin 64) (s : State) : Host.Outcome State Fault Refusal :=
  if hasThreads site then .next (cancelToken site e tok s) else .fault .noAgent

/-! ### Arrivals (14 R365, R366, R371) -/

/-- The placement of a message of n bytes under R366: room, and the pad before the record. `own` is what a reply's own
reservation adds to the free space. -/
def endRoom (e : Endpoint) (own n : Nat) : Option Nat :=
  let size := 2 ^ e.rlog
  let used := (e.prod - e.cons).toNat
  let held := e.resv * 16
  let tail := size - e.prod.toNat % size
  if size < used then none
  else if n ≤ tail then (if used + held + n ≤ size + own then some 0 else none)
  else if used + held + tail + n ≤ size + own then some tail
  else none

/-- Local offset of a byte count. -/
def endAddr (e : Endpoint) (c : Nat) : Nat := e.rbase + c % 2 ^ 32 % 2 ^ e.rlog

/-- A record header (14 Table 14.7). -/
def recordHeader (kind lvl units sdev ssite thid raddr : Nat) : List Byte :=
  [BitVec.ofNat 8 (kind + 16 * lvl), BitVec.ofNat 8 units] ++ leBytes 2 sdev ++ leBytes 2 ssite ++ leBytes 2 thid ++ leBytes 8 raddr

/-- The header of a pad record: KIND 2 and its length. -/
def padHeader (bytes : Nat) : List Byte := [2, BitVec.ofNat 8 (bytes / 16)] ++ leBytes 14 0

/-- Group address of a reply doorbell. -/
def replyDoorbell (dev site e k : Nat) : Nat := dev * 2 ^ 48 + siteRegBase + site * 0x10000 + 0x3800 + 0x100 * e + k

/-- NACK a message (14 R371, Table 14.11). The count saturates. -/
def nackMessage (p : Packet) (x seq : Nat) (t : Fin 4) (reason : Nat) (s : State) : State :=
  sendReply p (.chanNack seq (bodyTag p.body) t reason) (modEnd p.dsite x (fun e => { e with
    nacks := if e.nacks = 0xFFFF then e.nacks else e.nacks + 1 }) s)

/-- A pad record: its header, and bytes after it that the manual leaves undefined, free values (14 R365). -/
def writePad (site off bytes : Nat) (s : State) : State :=
  let g := drawFree (8 * (bytes - 16)) s
  lmWriteN site off (padHeader bytes ++ (List.range (bytes - 16)).map (fun i => g.1.extractLsb' (8 * i) 8)) g.2

/-- Accept a message in the order of R366: pad, record, PROD, ACK, event. A thread that waits in cs.chwait looks again at the record
(R376). -/
def acceptMessage (p : Packet) (x seq : Nat) (t : Fin 4) (kind thid raddr pad : Nat) (data : List Byte) (s : State) : State :=
  let site := p.dsite
  let e := getEnd s site x
  let prod := e.prod.toNat
  let s1 := if pad = 0 then s else writePad site (endAddr e prod) pad s
  let s2 := lmWriteN site (endAddr e (prod + pad))
    (recordHeader kind (levelCode p.lvl) (1 + data.length / 16) p.sdev p.ssite thid raddr ++ data) s1
  let s3 := writeProd site x (modEnd site x (fun e => { e with prod := e.prod + BitVec.ofNat 32 (pad + 16 + data.length) }) s2)
  let s4 := sendReply p (.chanAck seq (bodyTag p.body) t) (serveReceiver site (endOwner site e) (traceRec site 6 (endOwner site e) x s3))
  if e.even then setEventBit site (endOwner site e) .supervisor e.evb.toNat s4 else s4

/-- A message of the same stream that was sent before this one has been delivered and not yet taken: messages of one thread to one site
are taken in send order (14 R370). -/
def messageEarlier (s : State) (p : Packet) : Bool :=
  s.packets.any (fun q => q.delivered && q.sdev == p.sdev && q.ssite == p.ssite && q.strm == p.strm && q.ddev == p.ddev && q.dsite == p.dsite &&
    (match q.body with | .chanReq _ _ _ _ _ _ => true | .chanReply _ _ _ _ _ _ => true | _ => false) && serialBefore 16 q.seq.toNat p.seq.toNat)

/-- A request message at its endpoint. -/
def requestArrives (p : Packet) (x seq : Nat) (t : Fin 4) (thid : Nat) (data : List Byte) (tok : Option (Nat × Nat)) (s : State) :
    State :=
  let e := getEnd s p.dsite x
  if e.ctl.gate ≠ .on then nackMessage p x seq t 1 s
  else if levelCode p.lvl < e.minlvl.toNat then nackMessage p x seq t 2 s
  else
    let s1 := readCons p.dsite x s
    match endRoom (getEnd s1 p.dsite x) 0 (16 + data.length) with
    | none => nackMessage p x seq t 5 s1
    | some pad =>
      let raddr := match tok with | some (r, k) => replyDoorbell p.sdev p.ssite r k | none => 0
      acceptMessage p x seq t 1 thid raddr pad data s1

def requestMessage (n : Nat) (s : State) : State :=
  match arrived s n with
  | some p => match p.body with
    | .chanReq endp seq t thid data tok =>
      let s1 := dropPacket n s
      if messageEarlier s p then s
      else if coreRuns s p.dsite then requestArrives p endp seq t thid data tok s1 else nackMessage p endp seq t 8 s1
    | _ => s
  | none => s

def execRequestMessageArrival (pkt : Nat) (s : State) : Host.Outcome State Fault Refusal := .next (requestMessage pkt s)

/-- A reply message at reply endpoint e, which is endpoint 8 + e. -/
def replyArrives (p : Packet) (e tok seq : Nat) (t : Fin 4) (thid : Nat) (data : List Byte) (s : State) : State :=
  let x := 8 + e
  let ep := getEnd s p.dsite x
  if ep.ctl.gate ≠ .on then nackMessage p x seq t 1 s
  else if levelCode p.lvl < ep.minlvl.toNat then nackMessage p x seq t 2 s
  else match mfind ep.tokens tok with
    | none => nackMessage p x seq t 3 s
    | some units =>
      if units * 16 < 16 + data.length then nackMessage p x seq t 4 s
      else
        let s1 := readCons p.dsite x s
        match endRoom (getEnd s1 p.dsite x) (units * 16) (16 + data.length) with
        | none => nackMessage p x seq t 5 s1
        | some pad => acceptMessage p x seq t 3 thid 0 pad data (modEnd p.dsite x (dropToken tok) s1)

def replyMessage (n : Nat) (s : State) : State :=
  match arrived s n with
  | some p => match p.body with
    | .chanReply e tok seq t thid data =>
      let s1 := dropPacket n s
      if messageEarlier s p then s
      else if coreRuns s p.dsite then replyArrives p e tok seq t thid data s1 else nackMessage p (8 + e) seq t 8 s1
    | _ => s
  | none => s

def execReplyMessageArrival (pkt : Nat) (s : State) : Host.Outcome State Fault Refusal := .next (replyMessage pkt s)

/-! ### Sending (14 R367 to R372) -/

/-- What a doorbell names: a request endpoint, or a reply endpoint and token. -/
inductive Doorbell where
  | request (e : Nat)
  | reply (e k : Nat)
  deriving DecidableEq, Repr

/-- Site and doorbell of a device address (14 Table 14.1, R369). -/
def doorbellOf (a : Nat) : Option (Nat × Doorbell) :=
  match regionOf a with
  | .siteReg site off =>
    if 0x3000 ≤ off && off < 0x3800 && off % 0x100 = 0 then some (site, .request ((off - 0x3000) / 0x100))
    else if 0x3800 ≤ off && off < 0x4000 && off % 0x100 < 64 then some (site, .reply ((off - 0x3800) / 0x100) (off % 0x100))
    else none
  | _ => none

/-- A thread's streams to its destinations. -/
def threadStreams (c : Core) (t : Fin 4) : List (Nat × BitVec 16 × Nat) :=
  (c.streams.filter (fun e => e.1 == t.val)).map (·.2)

def setThreadStreams (t : Fin 4) (l : List (Nat × BitVec 16 × Nat)) (c : Core) : Core :=
  { c with streams := l.map (fun e => (t.val, e)) ++ c.streams.filter (fun e => e.1 != t.val) }

/-- The reply space that a request reserves (14 R372): the lowest free token, none where it cannot be had. CONS is as the endpoint has
just read it. -/
def reserveReply (s : State) (site rep m : Nat) : Option Nat :=
  let e := getEnd s site (8 + rep)
  let used := (e.prod - e.cons).toNat
  if e.ctl.gate == .on && decide (used + 16 * e.resv + 16 * m + 256 ≤ 2 ^ e.rlog) then
    firstBit 64 (fun k => (mfind e.tokens k).isNone)
  else none

/-- A message leaves as one flagged packet in stream 4 + t (14 R370). -/
def sendMessage (site : Nat) (t : Fin 4) (dst : Word) (data : List Byte) (tok : Option (Nat × Nat)) (pd : Fin 8) (blocking : Bool)
    (s : State) : State :=
  let th := getThr s site t
  let dev := fld dst 56 48
  let a := fld dst 47 0
  match doorbellOf a with
  | none => s
  | some (peer, bell) =>
    let seq := th.comm.nextSeq
    let thid := thidOf s site t
    let body := match bell with
      | .request e => Body.chanReq e seq t thid data tok
      | .reply e k => Body.chanReply e k seq t thid data
    let cls := match bell with | .request _ => 4 | .reply _ _ => 1
    let n := streamStep (threadStreams (getCore s site) t) (dev * 2048 + peer) true
    let s1 := modCore site (setThreadStreams t n.2) s
    let s2 := modThr site t (fun h => { h with comm := { h.comm with
      nextSeq := seq + 1, sends := h.comm.sends ++ [⟨seq, pd, dst, blocking, tok⟩] } }) s1
    countPerf site 0xE t 1 (inject { mkPacket s2 cls (lvlOf th) site peer a body with
      ddev := dev, strm := 4 + t.val, seq := n.1.1, cnt := n.1.2.1, ord := true } s2)

/-- Is the doorbell one of a request endpoint? -/
def isRequestBell (dst : Word) : Bool :=
  match doorbellOf (fld dst 47 0) with
  | some (_, .request _) => true
  | _ => false

/-- One attempt of a send: it reserves reply space where cs.chcfg.RX asks for it, and leaves, or is refused with NORSV
(`false`). -/
def sendAttempt (site : Nat) (t : Fin 4) (dst : Word) (data : List Byte) (pd : Fin 8) (blocking : Bool) (s : State) : Bool × State :=
  let cfg := (getThr s site t).comm.chcfg
  if bit cfg 15 && isRequestBell dst then
    let rep := fld cfg 14 12
    let m := 1 + (fld cfg 3 0 + 1)
    let s1 := if (getEnd s site (8 + rep)).ctl.gate = .on then readCons site (8 + rep) s else s
    match reserveReply s1 site rep m with
    | some k =>
      (true, sendMessage site t dst data (some (rep, k)) pd blocking
        (modEnd site (8 + rep) (fun e => { e with tokens := mset e.tokens k m, resv := e.resv + m }) s1))
    | none => (false, s1)
  else (true, sendMessage site t dst data none pd blocking s)

/-! ### Answers (14 R374, R375) -/

/-- cs.chcfg.NACK. -/
def setNackField (reason : Nat) (h : Thread) : Thread :=
  { h with comm := { h.comm with chcfg := setFld h.comm.chcfg 63 56 reason } }

/-- A thread that waits for room among its sends issues its word again; one that waits in a fence looks again. -/
def afterSendEnds (site : Nat) (t : Fin 4) (s : State) : State :=
  let th := getThr s site t
  match th.run with
  | .stalled .send => if th.comm.blocking.isNone then wakeThread site t s else s
  | .stalled (.fence _) => wakeThread site t s
  | _ => s

/-- The send with a sequence number is answered: it leaves the list. -/
def endSend (site : Nat) (t : Fin 4) (seq : Nat) (s : State) : State :=
  modThr site t (fun h => { h with comm := { h.comm with sends := h.comm.sends.filter (fun m => m.seq != seq) } }) s

def findSend (s : State) (site : Nat) (t : Fin 4) (seq : Nat) : Option Send :=
  (getThr s site t).comm.sends.find? (fun m => m.seq == seq)

/-- A blocking send completes: pd takes its outcome. -/
def finishBlocking (site : Nat) (t : Fin 4) (pd : Fin 8) (failed : Bool) (s : State) : State :=
  completeWait site t (modThr site t (fun h =>
    { writeP pd failed h with pc := h.pc + 8, comm := { h.comm with blocking := none } }) s)

/-- A blocking send has drawn a NACK: a deliverable event abandons it, FULL and NORSV lead to a pause and another attempt while
RETRY allows, and every other end writes pd, cs.chcfg.NACK and NEVB (14 R375). -/
def blockingNacked (site : Nat) (t : Fin 4) (reason : Nat) (s : State) : State :=
  let th := getThr s site t
  match th.comm.blocking with
  | none => s
  | some b =>
    if (deliverableBit th).isSome then
      wakeThread site t (modThr site t (fun h => { h with abandoned := 7, comm := { h.comm with blocking := none } }) s)
    else if (reason = 5 || reason = 6) && b.attempts < fld th.comm.chcfg 39 32 then
      modThr site t (fun h => { h with comm := { h.comm with
        blocking := some { b with due := some ((paceOf s site).toNat + 64) } } }) s
    else
      setEventBit site t (lvlOf th) (fld th.comm.chcfg 28 24)
        (finishBlocking site t b.pd true (modThr site t (setNackField reason) s))

/-- The answer to an attempt of a blocking send: 0 for an ACK, else the reason of the NACK. A halted thread keeps it for its resume
(14 R380). -/
def blockingAnswer (site : Nat) (t : Fin 4) (answer : Nat) (pd : Fin 8) (s : State) : State :=
  if (getThr s site t).halted then
    modThr site t (fun h => { h with comm := { h.comm with blocking := h.comm.blocking.map (fun b => { b with answer := some answer }) } }) s
  else if answer = 0 then finishBlocking site t pd false s
  else blockingNacked site t answer s

/-- A thread that resumes acts on the answer that came while it was halted. -/
def useAnswer (site : Nat) (t : Fin 4) (s : State) : State :=
  match (getThr s site t).comm.blocking with
  | some b => (match b.answer with
    | some a => blockingAnswer site t a b.pd
        (modThr site t (fun h => { h with comm := { h.comm with blocking := some { b with answer := none } } }) s)
    | none => s)
  | none => s

/-- A NACK reaches the thread: its reservation is released, and a non-blocking send writes pd and cs.chcfg.NACK (14 R372, R374). -/
def sendNacked (site : Nat) (t : Fin 4) (seq reason : Nat) (s : State) : State :=
  match findSend s site t seq with
  | none => s
  | some m =>
    let s1 := endSend site t seq (countPerf site 0xF t 1 s)
    let s2 := match m.tok with
      | some (rep, k) => modEnd site (8 + rep) (dropToken k) s1
      | none => s1
    if m.blocking then blockingAnswer site t reason m.pd s2
    else afterSendEnds site t (modThr site t (fun h => setNackField reason (writeP m.pd true h)) s2)

/-- An ACK ends a send. -/
def sendAcked (site : Nat) (t : Fin 4) (seq : Nat) (s : State) : State :=
  match findSend s site t seq with
  | none => s
  | some m =>
    let s1 := endSend site t seq s
    if m.blocking then blockingAnswer site t 0 m.pd s1 else afterSendEnds site t s1

def msgAck (n : Nat) (s : State) : State :=
  match arrived s n with
  | some p => match p.body with
    | .chanAck seq _ t => sendAcked p.dsite t seq (acceptReply p s)
    | _ => s
  | none => s

def execMsgAckArrival (pkt : Nat) (s : State) : Host.Outcome State Fault Refusal := .next (msgAck pkt s)

def msgNack (n : Nat) (s : State) : State :=
  match arrived s n with
  | some p => match p.body with
    | .chanNack seq _ t reason => sendNacked p.dsite t seq reason (acceptReply p s)
    | _ => s
  | none => s

def execMsgNackArrival (pkt : Nat) (s : State) : Host.Outcome State Fault Refusal := .next (msgNack pkt s)

/-- An attempt of a blocking send: it is in flight, or NORSV refuses it at once. -/
def blockingAttempt (site : Nat) (t : Fin 4) (b : BlockingSend) (s : State) : State :=
  let b1 := { b with attempts := b.attempts + 1, due := none }
  let s1 := modThr site t (fun h => { h with comm := { h.comm with blocking := some b1 } }) s
  let r := sendAttempt site t b.dst b.data b.pd true s1
  if r.1 then r.2 else blockingNacked site t 6 (countPerf site 0xF t 1 r.2)

/-- The pause of 64 pace counts has passed and the thread is not halted (14 R375, R380). -/
def sendRetry (site : Nat) (t : Fin 4) (s : State) : State :=
  let th := getThr s site t
  match th.run, th.comm.blocking with
  | .stalled .send, some b =>
    (match b.due with
     | some d => if d ≤ (paceOf s site).toNat && !th.halted && coreRuns s site then blockingAttempt site t b s else s
     | none => s)
  | _, _ => s

def execBlockingSendRetry (site : Site) (thr : Fin 4) (s : State) : Host.Outcome State Fault Refusal :=
  if hasThread site thr then .next (sendRetry site thr s) else .fault .noAgent

/-- A source whose stream packet was discarded starts the stream again, and has the destination's router forget it (17 R443). -/
def restartStream (site : Nat) (t : Fin 4) (dev dst : Nat) (s : State) : State :=
  let s1 := modCore site (fun c => setThreadStreams t ((threadStreams c t).filter (fun e => e.1 != dev * 2048 + dst)) c) s
  inject { mkPacket s1 0 .machine site dst 0 (.streamReset site) with ddev := dev, strm := 4 + t.val } s1

end Sys2Proof.Machine
end

