-- ==== Sys2Proof/Machine/Engine.lean ====
section
/-! DEFINITION. How a collective engine ends (17 R451), wherever the cause comes from. -/

namespace Sys2Proof.Machine

open Sys2Proof

def modGrp (f : Grp → Grp) (s : State) : State := { s with grp := f s.grp }

/-- Place of engine t in its tree. -/
def treeWord (s : State) (t : Nat) : Word := mget s.grp.tree t 0
def isRoot (s : State) (t : Nat) : Bool := bit (treeWord s t) 62
def childrenOf (s : State) (t : Nat) : List Nat := (mget s.grp.children t []).take (fld (treeWord s t) 52 48)

/-- GRP_CESTATt (17 Table 17.13). -/
def cestatWord (e : Engine) : Word :=
  mk 63 62 e.state.toNat ||| mk 55 48 e.status.toNat ||| mk 47 32 e.cseq.toNat ||| mk 31 0 e.chunks

/-- The end of a collective: DONE, its status, the event of EVTHID, and a record of a failure (17 R451). ABORT discards the buffers;
otherwise chunks of a later collective that children have begun stay held (R449). -/
def collEnd (t status : Nat) (d : CollDesc) (s : State) : State :=
  let s1 := modEngine t (fun e => { e with
    state := 2, status := BitVec.ofNat 8 status, desc := none, dstWait := [],
    ups := if status = 4 then [] else if status = 1 || status = 5 then e.ups else e.ups.filter (fun u => u.2.1 != d.cseq) }) s
  let s2 := match siteOfThid s d.evthid with
    | some (site, th) => setEventBit site th .supervisor d.evb.toNat s1
    | none => s1
  if status = 0 then s2
  else postRecord 1 .coll 0x51 (engineSite t) t 0 (cestatWord (getEngine s1 t)).toNat s2

/-- A collective in progress ends with a status. -/
def collStop (t status : Nat) (s : State) : State :=
  match (getEngine s t).desc with
  | some d => if (getEngine s t).state = 1 then collEnd t status d s else s
  | none => s

/-- A device is lost to the trees on which it is a neighbour (17 R451; DEDUCED, assumption log 85). -/
def collLost (dev : Nat) (s : State) : State :=
  foldN 4 (fun t st =>
    if bit (treeWord st t) 63 && ((!isRoot st t && fld (treeWord st t) 40 32 == dev) || (childrenOf st t).contains dev) then collStop t 2 st
    else st) s

end Sys2Proof.Machine
end

