-- ==== Sys2Proof/Machine/Link.lean ====
section
/-! DEFINITION. Gofin links (16): enabling and training, flits, credits, acknowledgement and replay, lane sparing, sleep and loss, and
the checks of packets that enter the device at a port node (17 R436, R440, R441, R444, R454). -/

namespace Sys2Proof.Machine

open Sys2Proof

/-! ### Packets on the wire (12 Table 12.3, 16 R413) -/

/-- The thread of a site that waits for a reply with a tag, and the number of its request. -/
def findTagged (s : State) (site tag : Nat) : Option (Nat × Fin 4) :=
  threadsOf.findSome? (fun t =>
    let th := getThr s site t
    ((th.loads ++ th.stores).find? (fun o => o.req % 65536 == tag)).map (fun o => (o.req, t)))

/-- The request of a hod ring that waits under a tag. -/
def findHodTag (s : State) (site : Nat) (ring : Fin 4) (tag : Nat) : Option Nat :=
  ((getRing s site ring).active.findSome? (fun d => d.waiting.find? (fun w => w.1 % 65536 == tag))).map (·.1)

/-- The oldest send of a thread to a site of a device with the tag of 14 Table 14.10. -/
def findSendTag (s : State) (site : Nat) (t : Fin 4) (dev peer tag : Nat) : Option Nat :=
  ((getThr s site t).comm.sends.find? (fun m =>
    fld m.dst 56 48 == dev && (match doorbellOf (fld m.dst 47 0) with
      | some (x, .request _) => x == peer && (match m.tok with | some (r, k) => 0x8000 + 0x1000 * r + k | none => 0) == tag
      | some (x, .reply _ _) => x == peer && tag == 0
      | none => false))).map (·.seq)

/-- Number of a kept stream packet that a STRBUSY names by device, site, stream and tag. -/
def findKept (s : State) (site dev peer strm tag : Nat) : Option Nat :=
  ((getRouter s site).resend.find? (fun e =>
    e.1.ddev == dev && e.1.dsite == peer && e.1.strm == strm && bodyTag e.1.body == tag)).map (·.1.id)

/-- A reply to the request of this device that a tag names: `hod` where a hod ring waits for it, else `thr`. -/
def replyBody (s : State) (site strm tag : Nat) (hod : Fin 4 → Nat → Body) (thr : Nat → Fin 4 → Body) (dflt : Body) : Body :=
  if strm < 4 then
    (match findHodTag s site (Fin.ofNat 4 strm) tag with | some g => hod (Fin.ofNat 4 strm) g | none => dflt)
  else match findTagged s site tag with
    | some (r, t) => thr r t
    | none => dflt

/-- What a packet with an operation code of the part's own asks for (assumption log 23). -/
def decodedBody (s : State) (dsite tag : Nat) (payload : List Byte) (dflt : Body) : List Nat → Body
  | [1, bar, dev] => .deviceArrival bar dev
  | [2, bar, gen] => .groupRelease bar (BitVec.ofNat 16 gen)
  | [3, site] => .streamReset site
  | [4, c] => .unitLost c
  | [5, n] => .memReq tag 0 (.load n)
  | [6] => .memReq tag 0 (.store payload)
  | [7, op, n, b, c] => .memReq tag 0 (.amo (Fin.ofNat 10 op) n (BitVec.ofNat 64 b) (BitVec.ofNat 64 c))
  | [8, v] => (match findTagged s dsite tag with | some (r, t) => .memReply r t (.data (BitVec.ofNat 64 v)) | none => dflt)
  | [9] => (match findTagged s dsite tag with | some (r, t) => .memReply r t .done | none => dflt)
  | [10, code, a] => (match findTagged s dsite tag with | some (r, t) => .memReply r t (.fault code a) | none => dflt)
  | [11, v, a] => (match findTagged s dsite tag with | some (r, t) => .memReply r t (.poisoned (BitVec.ofNat 64 v) a) | none => dflt)
  | _ => dflt

/-- The body of a packet from a link (17 Table 17.3, 14 Table 14.10, 17 R448, 19 R490). -/
def wireBody (s : State) (opc dsite sdev ssite strm addr tag : Nat) (payload : List Byte) : Body :=
  let dflt := Body.other opc payload
  let ring := Fin.ofNat 4 strm
  if opc = 0x40 then .hodRead ring tag (leAt payload 0 2)
  else if opc = 0x41 then
    replyBody s dsite strm tag (fun r g => .hodData r g (.bytes payload []))
      (fun r t => .memReply r t (.data (BitVec.ofNat 64 (leNat payload)))) dflt
  else if opc = 0x42 then .hodWrite ring tag payload
  else if opc = 0x43 then replyBody s dsite strm tag (fun r g => .hodAck r g .done) (fun r t => .memReply r t .done) dflt
  else if opc = 0x50 || opc = 0x51 then
    let thid := match ccOf ssite with
      | some c => 7168 + c
      | none => (Config.remoteThid sdev ssite (strm % 4)).toNat
    (match doorbellOf addr with
     | some (_, .request e) => .chanReq e tag ring thid payload
         (if 0x8000 ≤ tag then some (tag / 0x1000 % 8, tag % 64) else none)
     | some (_, .reply e k) => .chanReply e k tag ring thid payload
     | none => dflt)
  else if opc = 0x52 || opc = 0x53 then
    (match findSendTag s dsite ring sdev ssite tag with
     | some q => if opc = 0x52 then .chanAck q tag ring else .chanNack q tag ring (leAt payload 0 1)
     | none => dflt)
  else if 0x60 ≤ opc && opc < 0x64 then
    .coll (opc % 2 == 0) (decide (0x62 ≤ opc)) (BitVec.ofNat 16 (addr / 2 ^ 32)) (addr % 2 ^ 32) payload
  else if opc = 0x74 then .errRec ((List.range 8).map (fun i => BitVec.ofNat 64 (leAt payload (8 * i) 8)))
  else if 0x70 ≤ opc && opc < 0x80 then .imgPacket opc payload
  else if opc = 0xF0 then
    .unreachable (if 4 ≤ strm && strm < 8 then
        (match findSendTag s dsite ring sdev ssite tag with
         | some q => .chanReq 0 q ring 0 [] (if 0x8000 ≤ tag then some (tag / 0x1000 % 8, tag % 64) else none)
         | none => dflt)
      else replyBody s dsite strm tag (fun r g => .hodWrite r g []) (fun r t => .memReq r t (.load 0)) dflt)
  else if opc = 0xF1 then (match findKept s dsite sdev ssite strm tag with | some n => .strbusy n tag | none => dflt)
  else decodedBody s dsite tag payload dflt (Config.wireDecode opc addr payload)

/-- A header that breaks 12 R315: a reserved class, a zero field that is set, a multicast bit that is not its flit's, or a LEN that is not
that of PLEN. -/
def wireBad (mc : Bool) (w0 w2 w3 : Word) : Bool :=
  decide (5 < fld w0 63 61) || bit w0 60 != mc ||
  (!mc && (fld w2 39 32 != 0 || fld w2 15 9 != 0 || w3 != 0 || fld w0 54 52 + 1 != (32 + fld w2 8 0 + 63) / 64 || decide (256 < fld w2 8 0) ||
    (fld w0 11 8 == 15 && fld w2 63 48 != 0)))

/-- A packet as its bytes give it; `mc` where a device mask led it. -/
def wirePacket (s : State) (mc : Bool) (bs : List Byte) : Packet :=
  let w0 : Word := BitVec.ofNat 64 (leAt bs 0 8)
  let w1 : Word := BitVec.ofNat 64 (leAt bs 8 8)
  let w2 : Word := BitVec.ofNat 64 (leAt bs 16 8)
  let payload := (bs.drop 32).take (if mc then bs.length else fld w2 8 0)
  let one := fun n => if mc then 0 else n
  { id := 0, cls := fld w0 63 61, mc := none, ord := bit w0 59, ce := bit w0 58, ece := bit w0 57,
    lvl := levelOf (fld w0 56 55), ddev := fld w0 51 43, dsite := fld w0 42 32, sdev := fld w0 31 23,
    ssite := fld w0 22 12, strm := fld w0 11 8, seq := BitVec.ofNat 16 (fld w1 63 48), addr := fld w1 47 0,
    cnt := one (fld w2 63 48), esc := !mc && bit w2 47, hops := one (fld w2 46 40),
    body := wireBody s (fld w0 7 0) (fld w0 42 32) (fld w0 31 23) (fld w0 22 12) (fld w0 11 8) (fld w1 47 0) (one (fld w2 31 16)) payload,
    at_ := 0, delivered := false, hdrBad := wireBad mc w0 w2 (BitVec.ofNat 64 (leAt bs 24 8)) }

/-- Bytes of a packet on a link, none where its header is not whole. -/
def wireLen (mc : Bool) (bs : List Byte) : Option Nat :=
  if mc then (if bs.length < 72 then none else some (64 + 32 + 32 + 64 * (leAt bs 64 8 / 2 ^ 52 % 8)))
  else if bs.length < 24 then none else some (32 + (leAt bs 16 8 % 512 + 7) / 8 * 8)

/-- The whole packets at the front of bytes, and the bytes of the packet that is not yet whole. -/
def takeWire (mc : Bool) : Nat → List Byte → List (List Byte) × List Byte
  | 0, bs => ([], bs)
  | n + 1, bs =>
    match wireLen mc bs with
    | none => ([], bs)
    | some k =>
      if bs.length < k then ([], bs)
      else
        let r := takeWire mc n (bs.drop k)
        (bs.take k :: r.1, r.2)

/-! ### Entry into the device (17 R436, R440, R441, R444, R454) -/

/-- A packet enters the mesh at the node of port n. -/
def enterMesh (n : Nat) (p : Packet) (s : State) : State := inject { p with at_ := portSite n, inPort := 0, delivered := false } s


/-- A refused packet: UNREACHABLE goes back where its class draws it. -/
def refuseEntry (n : Nat) (p : Packet) (s : State) : State :=
  if p.cls = 3 || p.cls = 4 then sendUnreachable (portSite n) { p with ddev := ownDev s, dsite := portSite n } s else s

/-- Operations that a host may send (17 Table 17.3). -/
def hostMaySend (b : Body) : Bool :=
  match b with
  | .hodRead _ _ _ | .hodData _ _ _ | .hodWrite _ _ _ | .hodAck _ _ _ => true
  | .chanReq _ _ _ _ _ _ | .chanReply _ _ _ _ _ _ | .chanAck _ _ _ | .chanNack _ _ _ _ => true
  | .memReply _ _ (.data _) | .memReply _ _ .done => true
  | _ => false

/-- A read request of the host stays within one 256 B block (17 Table 17.3). -/
def hostReadOk (p : Packet) : Bool :=
  match p.body with
  | .hodRead _ _ n => decide (1 ≤ n) && decide (p.addr % 256 + n ≤ 256)
  | _ => true

/-- A host packet at the manager's host-facing port (17 R454). A reply to a forwarded request completes it in every state
(R459). -/
def enterFromHost (n : Nat) (p : Packet) (s : State) : State :=
  let reply := isReply p.body
  let reach := (mget s.grp.hreach (p.ddev / 64) 0).getLsbD (p.ddev % 64)
  if p.ssite ≠ 0 || !hostMaySend p.body || !hostReadOk p || (!reply && (s.grp.hctl.gate ≠ .on || !reach)) then
    refuseEntry n p { s with grp := { s.grp with refin := satInc s.grp.refin } }
  else
    let p1 := { p with lvl := s.grp.hlvl, cls := if p.cls = 4 then 3 else p.cls }
    let br := if reply then s.grp.bridge.erase (bridgeReplyKey p)
      else if p.cls = 3 || p.cls = 4 then bridgeKey p :: s.grp.bridge else s.grp.bridge
    enterMesh n p1 { s with grp := { s.grp with bridge := br } }

/-- A packet from a partner device at a port node. -/
def enterFromDevice (n : Nat) (p : Packet) (s : State) : State :=
  let here := p.ddev = ownDev s && (p.cls = 3 || p.cls = 4)
  if here && !(mget s.grp.inacc (p.sdev / 64) 0).getLsbD (p.sdev % 64) then
    refuseEntry n p { s with grp := { s.grp with inref := satInc s.grp.inref } }
  else
    let lvl := if here && levelCode s.grp.inlvl < levelCode p.lvl then s.grp.inlvl else p.lvl
    enterMesh n { p with cls := if p.cls = 4 then 3 else p.cls, lvl := lvl } s

def enterDevice (n : Nat) (p : Packet) (s : State) : State :=
  if p.sdev = 511 then
    (if hostPort s = some n then enterFromHost n p s
     else postRecord 1 .port 0x45 (portSite n) n 0 0 { s with grp := { s.grp with spoof := satInc s.grp.spoof } })
  else enterFromDevice n p s

/-- A device-mask multicast at a port node: one copy to each port named for a masked device, and one to the designated unit
(17 R444). -/
def enterMulticast (n : Nat) (mask : BitVec 512) (p : Packet) (s : State) : State :=
  let s1 := deviceMulticastFrom p.sdev p.ssite (portSite n) 0 (mask &&& ~~~ (1#512 <<< ownDev s)) p.body s
  if mask.getLsbD (ownDev s) then
    inject { mkPacket s1 0 .machine (portSite n) (anchorOf s1.img.desig) p.addr p.body with sdev := p.sdev, ssite := p.ssite } s1
  else s1

/-! ### States of a port (16 R424, R431, R433) -/

/-- Message of a pending request. -/
def lmMessage : LmRequest → Nat × List Byte
  | .cap => (1, [])
  | .spare lane c => (5, BitVec.ofNat 8 lane :: bytesOf c 4)
  | .pwr sleep => (7, [if sleep then 1 else 0])
  | .meas pair k => (3, [BitVec.ofNat 8 pair, BitVec.ofNat 8 k])

/-- A request is sent and repeated until answered. -/
def askLm (r : LmRequest) (q : Port) : Port := { sendLm (lmMessage r).1 (lmMessage r).2 q with lm := q.lm ++ [r] }

/-- DETECT begins, with the lasers on. `lock`: the control link stays up. -/
def toDetect (q : Port) : Port :=
  { q with state := .detect, ctlLock := false, lm := [], samples := [], capSeen := false, capAcked := false, recTrained := false,
           waking := false, spTx := 0xF, spRx := 0xF, spBad := false }

/-- A failed attempt: its reason is kept, and the eighth in a row ends in FAILED (16 R424). -/
def failAttempt (reason : Nat) (q : Port) : Port :=
  let n := q.attempts + 1
  let q1 := { toDetect q with lastFail := BitVec.ofNat 4 reason, attempts := min 8 n }
  if 8 ≤ n then { q1 with state := .failed } else q1

/-- The packets of flits and entries, each once. -/
def packetsOf (sent : List SentFlit) (part : List Queued) : List Packet :=
  (sent.filterMap (·.pkt) ++ part.map (·.pkt)).foldl (fun l p => if l.any (fun x => x.id == p.id) then l else l ++ [p]) []

/-- Packets of a link that is lost (16 R433): those of which nothing has been sent are routed again from the port node, those sent in part or
not acknowledged are discarded. -/
def returnPackets (n : Nat) (entries : List Queued) (sent : List SentFlit) (s : State) : State :=
  (packetsOf sent (entries.filter (fun e => e.sent != 0))).foldl (fun st p => discardAt (portSite n) p st)
    ((entries.filter (fun e => e.sent == 0)).foldl (fun st e => enterMesh n e.pkt st) s)

/-- A loss of the data link (16 R433). What waits for the control link stays. -/
def loseLink (n : Nat) (s : State) : State :=
  let q := getPort s n
  collLost q.bindDev <| postRecord 4 .port 0x43 (portSite n) n 0 q.lastFail.toNat
    (returnPackets n (q.queue.filter (fun e => !isMgmt e)) q.sent
      (modPort n (fun q => { q with downs := satInc q.downs, queue := q.queue.filter isMgmt, sent := [], data := LinkSeq.reset }) s))

/-- A loss of the control link: its packets fare as those of a data link do (DESIGN CHOICE, assumption log 84). -/
def loseCtrl (n : Nat) (s : State) : State :=
  let q := getPort s n
  returnPackets n (q.queue.filter isMgmt) q.ctrlSent
    (modPort n (fun q => { q with queue := q.queue.filter (fun e => !isMgmt e), ctrlSent := [], ctrl := LinkSeq.reset }) s)

/-- The data link carries or holds traffic: a loss of it counts. -/
def dataLinkUp (q : Port) : Bool :=
  match q.state with
  | .active | .sleep | .recover | .draining => true
  | .dtrain | .dcheck => q.waking
  | _ => false

/-- The control link returns to DETECT: the data link is lost, and a draining port is OFF (16 R421, R424, R433). -/
def loseControl (n : Nat) (s : State) : State :=
  let q := getPort s n
  let s1 := loseCtrl n (if dataLinkUp q then loseLink n s else s)
  modPort n (fun r =>
    if q.state = .draining then
      (if r.ctl.pend then { toDetect r with ctl := ⟨true, false, .on⟩ } else { toDetect r with ctl := Enable.off, state := .off })
    else toDetect r) s1

/-- The data link is lost with the control link kept up (16 R430): the port trains again from DETECT. -/
def failData (n reason : Nat) (s : State) : State :=
  modPort n toDetect (loseLink n (modPort n (fun q => { q with lastFail := BitVec.ofNat 4 reason }) s))

/-- RECOVER begins (16 R421, R430). -/
def enterRecover (n : Nat) (s : State) : State :=
  modPort n (fun q => { q with state := .recover, recTrained := false, recDiscarded := false, retrains := satInc q.retrains }) s

/-- A drain with nothing queued or unacknowledged is complete: DOWN is sent and the port is OFF, or a pending enable starts
(16 R431). -/
def drainCheck (n : Nat) (s : State) : State :=
  modPort n (fun q =>
    if q.state = .draining && q.queue = [] && q.sent = [] && q.ctrlSent = [] && q.hctl = [] then
      let q1 := sendLm 0xA [] q
      if q.ctl.pend then { toDetect q1 with ctl := ⟨true, false, .on⟩ } else { toDetect q1 with ctl := Enable.off, state := .off }
    else q) s

/-- The port drains (16 R431). -/
def beginDrain (n : Nat) (s : State) : State :=
  drainCheck n (modPort n (fun q =>
    if q.ctl.gate = .on then
      { q with ctl := ⟨false, false, .draining⟩, state := .draining }
    else q) s)

/-- A port that can run: it is there and in service. -/
def portThere (s : State) (n : Nat) : Bool :=
  let q := getPort s n
  q.present && !q.fenced && !q.isolated && halfOn s (portSite n)

/-- A write of the enable (16 R431): an unbound port stays OFF (R406), and FAILED and MISMATCH end when EN is written. -/
def portEnable (n : Nat) (en : Bool) (s : State) : State :=
  let q := getPort s n
  if en then
    (match q.ctl.gate with
     | .off => if q.bindEn then modPort n (fun q => { toDetect q with ctl := ⟨true, false, .on⟩, attempts := 0 }) s else s
     | .on => if q.state = .failed || q.state = .mismatch then modPort n (fun q => { toDetect q with attempts := 0 }) s else s
     | .draining => modPort n (fun q => { q with ctl := ⟨true, true, .draining⟩ }) s)
  else (match q.ctl.gate with
    | .off => s
    | .on => beginDrain n s
    | .draining => modPort n (fun q => { q with ctl := ⟨false, false, .draining⟩ }) s)

/-- The port may sleep: nothing queued or unacknowledged, SLEEP offered by both sides, no sparing under way (16 R432). -/
def maySleep (q : Port) : Bool :=
  q.state == .active && q.queue.isEmpty && q.sent.isEmpty && fld (mget q.partner 0 0) 57 57 == 1 &&
  q.lm.all (fun r => match r with | .spare _ _ => false | _ => true)

/-- A SLEEP request is sent once the port may sleep. -/
def trySleep (q : Port) : Port :=
  if q.sleepReq && maySleep q && !q.lm.contains (.pwr true) then askLm (.pwr true) q else q

/-- Writing SLEEP (16 R432). -/
def sleepWrite (n : Nat) (sleep : Bool) (s : State) : State :=
  if portThere s n then
    modPort n (fun q =>
      let q1 := { q with sleepReq := sleep }
      if sleep then trySleep q1
      else
        let q2 := { q1 with lm := q1.lm.filter (fun r => r != .pwr true) }
        if q2.state = .sleep then wakePort q2 else q2) s
  else s

def execLnkSleepRequest (port : Fin 16) (sleep : Bool) (s : State) : Host.Outcome State Fault Refusal :=
  .next (sleepWrite port sleep s)

/-- A write of LNK_CTL (16 Table 16.10). -/
def lnkCtl (n : Nat) (v : Word) (s : State) : State :=
  if portThere s n then
    let s1 := sleepWrite n (bit v 4) (modPort n (fun q => { q with serthr := BitVec.ofNat 16 (clampNat 16 65535 (fld v 31 16)) }) s)
    if loaderHolds s (.port n) then noteIgnored s1 else portEnable n (bit v 0) s1
  else s

def execLnkCtlEn (port : Fin 16) (v : BitVec 64) (s : State) : Host.Outcome State Fault Refusal := .next (lnkCtl port v s)

def lnkFecClear (n : Nat) (s : State) : State := modPort n (fun q => { q with corr := 0, uncorr := 0 }) s
def execLnkFecClr (port : Fin 16) (s : State) : Host.Outcome State Fault Refusal := .next (lnkFecClear port s)

def lnkErrClear (n : Nat) (s : State) : State :=
  modPort n (fun q => { q with crcErr := 0, replays := 0, spares := 0, retrains := 0, downs := 0 }) s
def execLnkErrClr (port : Fin 16) (s : State) : Host.Outcome State Fault Refusal := .next (lnkErrClear port s)

/-! ### Training (16 R424 to R427) -/

/-- Every lane pair is probed 16 times. -/
def beginMeasure (q : Port) : Port :=
  foldN 10 (fun i (r : Port) => askLm (.meas i 0) r) { q with state := .measure, samples := [], len := [] }

/-- Lock of the control lane: DETECT ends, and the confirmation of both ways ends CTLUP. -/
def laneLock (n : Nat) (s : State) : State :=
  modPort n (fun q =>
    if !(q.present && !q.fenced && !q.isolated) then q
    else if q.state = .detect then { q with state := .ctlup, ctlLock := true }
    else if q.state = .ctlup then beginMeasure q else q) s

def execControlLaneLock (port : Fin 16) (s : State) : Host.Outcome State Fault Refusal := .next (laneLock port s)

/-- Loss of lock for more than 10 µs in any state from CTLUP on. -/
def lockLoss (n : Nat) (s : State) : State :=
  match (getPort s n).state with
  | .off | .detect | .failed => s
  | _ => loseControl n s

def execControlLockLoss (port : Fin 16) (s : State) : Host.Outcome State Fault Refusal := .next (lockLoss port s)

/-- A state exceeds its bound (16 Table 16.6). EXCHANGE has ended once CAP has gone both ways, where only the control link trains
(18 R471). -/
def stateTimeout (n : Nat) (s : State) : State :=
  let q := getPort s n
  match q.state with
  | .ctlup => modPort n (failAttempt 1) s
  | .measure => modPort n (failAttempt 2) s
  | .exchange => if portCtrlUp q then s else modPort n (failAttempt 4) s
  | .dtrain => if q.waking then failData n 6 s else modPort n (failAttempt 6) s
  | .dcheck => if q.waking then failData n 7 s else modPort n (failAttempt 7) s
  | .recover => failData n (if q.recTrained then 7 else 6) s
  | _ => s

def execLinkStateTimeout (port : Fin 16) (s : State) : Host.Outcome State Fault Refusal := .next (stateTimeout port s)

/-- A probe arrives and is echoed. -/
def measArrives (n pair k : Nat) (s : State) : State :=
  modPort n (fun q =>
    if q.state = .ctlup then sendLm 4 [BitVec.ofNat 8 pair, BitVec.ofNat 8 k] (beginMeasure q)
    else if q.state = .measure || q.state = .exchange then sendLm 4 [BitVec.ofNat 8 pair, BitVec.ofNat 8 k] q else q) s

def execLmMeas (port : Fin 16) (pair : Fin 10) (probe : BitVec 8) (s : State) : Host.Outcome State Fault Refusal :=
  .next (measArrives port pair probe.toNat s)

/-- RT of a longest data-lane length in units of 0.1 m (16 R418). -/
def linkRt (len : Nat) : Nat := (98 * len + 40000 + 255) / 256

/-- The longest data lane measured. -/
def longestLane (q : Port) : Nat := foldN 8 (fun i m => max m (mget q.len i 0).toNat) 0

/-- CAP of this side (16 Table 16.8). -/
def ownCap (s : State) (n : Nat) (q : Port) : List Byte :=
  [1, 1, 0, s.top.part] ++ leBytes 2 (s.top.devid.toNat + 512 * s.top.role.toNat) ++ [BitVec.ofNat 8 n, 7] ++
  bytesOf s.grp.gid 4 ++ leBytes 2 q.shared.toNat ++ leBytes 2 (mget q.len 9 0).toNat ++ leBytes 32 0

/-- MEASURE is complete: RT and the shared pool follow, and CAP is sent. -/
def endMeasure (s : State) (n : Nat) (q : Port) : Port :=
  let len := longestLane q
  if 1050 < len then failAttempt 3 q
  else
    let rt := linkRt len
    let q1 := { q with state := .exchange, lm := [], rt := BitVec.ofNat 12 rt, shared := BitVec.ofNat 16 (min 880 (rt + 128)),
                       capSeen := false, capAcked := false }
    { sendLm 1 (ownCap s n q1) q1 with lm := [.cap] }

/-- An echo arrives: the pair's length is the average of 16 probes. The burst of a data or spare lane tells which lane comes in at its
position (16 R425). -/
def measrArrives (n pair : Nat) (len : BitVec 16) (pos : Nat) (s : State) : State :=
  modPort n (fun q0 =>
    let q := if q0.state = .measure && pair ≠ 9 then { q0 with order := mset q0.order pos pair } else q0
    if q.state ≠ .measure then q
    else
      let a := mget q.samples pair (0, 0)
      if 16 ≤ a.2 then q
      else
        let b := (a.1 + len.toNat, a.2 + 1)
        let q1 := { q with samples := mset q.samples pair b,
                           lm := q.lm.filter (fun r => match r with | .meas i _ => i != pair | _ => true) }
        if b.2 < 16 then askLm (.meas pair b.2) q1
        else
          let q2 := { q1 with len := mset q1.len pair (BitVec.ofNat 16 (b.1 / 16)) }
          if (List.range 10).all (fun i => (mget q2.samples i (0, 0)).2 == 16) then endMeasure s n q2 else q2) s

def execLmMeasr (port : Fin 16) (pair : Fin 10) (echo : Echo) (s : State) : Host.Outcome State Fault Refusal :=
  .next (measrArrives port pair echo.len echo.pos s)

/-- The partner's CAP agrees with the binding (16 R427); while the loader is in AWAITING any manager is accepted (18 R471). -/
def capAgrees (s : State) (q : Port) (b : List Byte) : Bool :=
  let kind := leAt b 2 1
  let dev := leAt b 4 2 % 512
  if !s.img.present then kind == 0 && leAt b 4 2 / 512 % 4 == 1
  else kind == (if q.bindDev = 511 then 1 else 0) && dev == q.bindDev && leAt b 6 1 == q.bindPort && leAt b 8 4 == s.grp.gid.toNat

/-- CAP and CAPACK have both gone through: DTRAIN begins, but for the control link alone in AWAITING (18 R471). -/
def exchangeDone (ctlOnly : Bool) (q : Port) : Port :=
  if q.state = .exchange && q.capSeen && q.capAcked then
    (if ctlOnly then { q with lm := [], ctrl := { LinkSeq.reset with credits := [(0, 32), (1, 32)] } }
     else { q with state := .dtrain, lm := [] })
  else q

/-- Only control lanes train: no structure image runs. -/
def ctlOnly (s : State) : Bool := !s.img.present

/-- The partner's CAP arrives (16 R426, R427). -/
def capArrives (n : Nat) (body : BitVec 384) (s : State) : State :=
  let q := getPort s n
  let b := bytesOf body 48
  match q.state with
  | .exchange =>
    let q1 := { q with partner := (List.range 6).map (fun i => (i, (body >>> (64 * i)).setWidth 64)) }
    if leAt b 1 1 ≠ 1 then modPort n (fun _ => failAttempt 5 q1) s
    else if capAgrees s q1 b then modPort n (fun _ => exchangeDone (ctlOnly s) (sendLm 2 [] { q1 with capSeen := true })) s
    else postRecord 1 .port 0x42 (portSite n) n 0 (leAt b 4 2 % 512)
      (modPort n (fun _ => sendLm 2 [] { q1 with state := .mismatch, lastFail := 8, lm := [] }) s)
  | .off | .detect | .ctlup | .measure | .failed => s
  | _ => modPort n (sendLm 2 []) s

def execLmCap (port : Fin 16) (body : BitVec 384) (s : State) : Host.Outcome State Fault Refusal := .next (capArrives port body s)

def capAcked (n : Nat) (s : State) : State :=
  modPort n (fun q => if q.state = .exchange then
      exchangeDone (ctlOnly s) { q with capAcked := true, lm := q.lm.filter (fun r => r != .cap) } else q) s

def execLmCapack (port : Fin 16) (s : State) : Host.Outcome State Fault Refusal := .next (capAcked port s)

/-- The lane order that training has learned, by position (16 R408): any permutation of the nine lanes will do. -/
def laneOrder (lanes : List (Option (Fin 9))) : Map Nat :=
  (List.range 9).filterMap (fun i => ((lanes[i]?).getD none).map (fun l => (i, l.val)))

/-- Lanes that training has made usable. -/
def usableLanes (lanes : List (Option (Fin 9))) : Nat := ((laneOrder lanes).map (·.2)).eraseDups.length

/-- Data-lane training ends (16 R408, R424, R430). -/
def dtrainEnds (n : Nat) (lanes : List (Option (Fin 9))) (s : State) : State :=
  let q := getPort s n
  let ok := decide (8 ≤ usableLanes lanes)
  if q.state = .dtrain then
    (if ok then modPort n (fun q => { q with state := .dcheck, order := laneOrder lanes }) s
     else if q.waking then failData n 6 s else modPort n (failAttempt 6) s)
  else if q.state = .recover && !q.recTrained then
    (if ok then modPort n (fun q => { q with recTrained := true, order := laneOrder lanes }) s else failData n 6 s)
  else s

def execDtrainDone (port : Fin 16) (lanes : List (Option (Fin 9))) (s : State) : Host.Outcome State Fault Refusal :=
  .next (dtrainEnds port lanes s)

/-- The sequence state of a data link that becomes ACTIVE: credits of Table 16.3 and the partner's shared pool. -/
def freshData (q : Port) : LinkSeq :=
  { LinkSeq.reset with
    credits := [(0, 8), (1, 32), (2, 8), (3, 8), (4, 8), (5, 8), (6, 32), (7, 8), (8, 32), (9, min 880 (fld (mget q.partner 1 0) 47 32))] }

/-- The sequence state of a control link: 32 credits each for MGMT and HCTL. -/
def freshCtrl : LinkSeq := { LinkSeq.reset with credits := [(0, 32), (1, 32)] }

/-- DCHECK passes and the link is ACTIVE, its codeword counters synchronised (16 R409). A recovered link replays what it holds; a new one
numbers from 0 (16 R419). -/
def dcheckEnds (n : Nat) (s : State) : State :=
  let q := getPort s n
  let sync := fun (r : Port) => { r with state := .active, cwSince := some s.aoc }
  if q.state = .dcheck then
    pumpPort n (modPort n (fun q =>
      if q.waking then { sync q with waking := false }
      else { sync q with attempts := 0, data := freshData q, ctrl := freshCtrl, sent := [], ctrlSent := [] }) s)
  else if q.state = .recover && q.recTrained then
    pumpPort n (modPort n (fun q =>
      let r := { sync q with recTrained := false, recDiscarded := false }
      if q.recDiscarded then { r with data := freshData q }
      else resendFlits false { r with data := { q.data with replays := 0, nakSent := false } }) s)
  else s

def execDcheckDone (port : Fin 16) (s : State) : Host.Outcome State Fault Refusal := .next (dcheckEnds port s)

/-! ### Acknowledgement and replay (16 R419 to R421) -/

/-- A sent flit is covered by an acknowledgement of number `a`. -/
def coveredBy (a : BitVec 16) (e : SentFlit) : Bool := !serialBefore 16 a.toNat e.seq.toNat

/-- An acknowledgement of the data link. -/
def ackData (a : BitVec 16) (q : Port) : Port :=
  let left := q.sent.filter (fun e => !coveredBy a e)
  let moved := q.data.acked ≠ some a
  { q with sent := left, data := { q.data with acked := some a, replays := if moved then 0 else q.data.replays } }

def ackCtrl (a : BitVec 16) (q : Port) : Port :=
  let left := q.ctrlSent.filter (fun e => !coveredBy a e)
  let moved := q.ctrl.acked ≠ some a
  { q with ctrlSent := left, ctrl := { q.ctrl with acked := some a, replays := if moved then 0 else q.ctrl.replays } }

/-- A replay: counted, and the eighth in a row with no advance is a failure of the link (16 R421). -/
def replayLink (n : Nat) (ctrl : Bool) (s : State) : State :=
  let q := getPort s n
  let k := (if ctrl then q.ctrl.replays else q.data.replays) + 1
  let s1 := modPort n (fun q =>
    let q1 := resendFlits ctrl { q with replays := satInc q.replays }
    if ctrl then { q1 with ctrl := { q1.ctrl with replays := k % 8 } } else { q1 with data := { q1.data with replays := k % 8 } }) s
  if k < 8 then s1
  else
    let s2 := postRecord 1 .port 0x41 (portSite n) n 0 (if ctrl then 1 else 0) s1
    if ctrl then loseControl n s2 else if q.state = .active then enterRecover n s2 else s2

/-- A NAK names the last number accepted: what follows it is sent again. -/
def nakArrives (n : Nat) (ctrl : Bool) (last : BitVec 16) (s : State) : State :=
  let q := getPort s n
  if (if ctrl then portCtrlUp q else portCarries q) then
    drainCheck n (replayLink n ctrl (modPort n (if ctrl then ackCtrl last else ackData last) s))
  else s

def execLinkNak (port : Fin 16) (ctrl : Bool) (last : BitVec 16) (s : State) : Host.Outcome State Fault Refusal :=
  .next (nakArrives port ctrl last s)

/-- No advance for the timeout of R420. -/
def replayTimeout (n : Nat) (ctrl : Bool) (s : State) : State :=
  let q := getPort s n
  if ctrl then (if portCtrlUp q && !q.ctrlSent.isEmpty then replayLink n true s else s)
  else if portCarries q && !q.sent.isEmpty then replayLink n false s else s

def execReplayTimeout (port : Fin 16) (ctrl : Bool) (s : State) : Host.Outcome State Fault Refusal :=
  .next (replayTimeout port ctrl s)

/-- 500 µs into RECOVER the unacknowledged packets are discarded (19 R501). -/
def recoverDiscard (n : Nat) (s : State) : State :=
  let q := getPort s n
  if q.state = .recover then
    let part := q.queue.filter (fun e => !isMgmt e && e.sent != 0)
    (packetsOf q.sent part).foldl (fun st p => discardAt (portSite n) p st)
      (modPort n (fun q => { q with sent := [], recDiscarded := true, queue := q.queue.filter (fun e => isMgmt e || e.sent == 0) }) s)
  else s

def execRecoverDiscardTimeout (port : Fin 16) (s : State) : Host.Outcome State Fault Refusal := .next (recoverDiscard port s)

/-- A discarded or unexpected flit: one NAK until the replay comes (16 R420). -/
def sendNak (ctrl : Bool) (q : Port) : Port :=
  if ctrl then
    (if q.ctrl.nakSent then q else let r := emitCtrlIdle true q; { r with ctrl := { r.ctrl with nakSent := true } })
  else if q.data.nakSent then q
  else let r := emitIdle true q; { r with data := { r.data with nakSent := true } }

/-- The number that a receiver accepts next. -/
def nextSeqOf (l : LinkSeq) : BitVec 16 := match l.accepted with | some a => a + 1 | none => 0

/-- A returned credit. -/
def addCredits (cls n : Nat) (l : LinkSeq) : LinkSeq :=
  if n = 0 then l else { l with credits := mset l.credits cls (mget l.credits cls 0 + n) }

def oweCredit (cls : Nat) (l : LinkSeq) : LinkSeq := { l with owed := mset l.owed cls (mget l.owed cls 0 + 1) }

/-! ### Data flits (16 R412 to R417) -/

/-- The header of a data flit breaks Table 16.2. -/
def badDataHeader (w0 w1 : Word) : Bool :=
  let kind := fld w0 63 62
  let fill := fld w0 41 37
  let first := fld w0 46 42
  decide (1 < kind) || fld w0 35 32 != 0 || fld w1 61 60 != 0 || fld w1 31 0 != 0 || (decide (28 < first) && first != 31) ||
  (decide (9 < fld w1 59 56) && fld w1 55 46 != 0) || (decide (9 < fld w1 45 42) && fld w1 41 32 != 0) ||
  (kind == 0 && (fld w0 61 58 != 0 || fld w0 55 47 != 0 || fill != 0 || fld w0 31 16 != 0)) ||
  (kind == 1 && (decide (8 < fld w0 61 58) || fill == 0 || decide (29 < fill) || (bit w0 57 && fld w0 55 47 != 0)))

/-- The packets of one accepted body: the one that continues, if it is complete, those that begin here, and the bytes kept for later. -/
def openBody (mc : Bool) (first fill : Nat) (partial_ body : List Byte) : List (List Byte) × List (List Byte) × List Byte :=
  let cont := if first = 31 then body.take (8 * fill) else body.take (8 * first)
  let old := if partial_ = [] then ([], []) else takeWire mc 8 (partial_ ++ cont)
  if first = 31 then (old.1, [], old.2)
  else
    let new := takeWire mc 8 ((body.take (8 * fill)).drop (8 * first))
    (old.1, new.1, new.2)

/-- Pools of the flits that hold what is left, and those whose credits return (16 R417): a flit is held while bytes of an unfinished packet
are in it. -/
def heldPools (p : Partial) (first pool : Nat) (o : List (List Byte) × List (List Byte) × List Byte) : List Nat × List Nat :=
  if o.2.2 = [] then ([], p.pools ++ [pool])
  else if first = 31 && o.1 = [] then (p.pools ++ [pool], [])
  else ([pool], p.pools)

/-- What a body leaves of an unfinished packet, with DDEV of the flit that began it. -/
def leftOver (p : Partial) (first pool ddev : Nat) (o : List (List Byte) × List (List Byte) × List Byte) : Partial :=
  ⟨o.2.2, (heldPools p first pool o).1, if first = 31 then p.ddev else ddev⟩

/-- A packet of a data flit enters the device, the device mask in front of a multicast taken off. One whose DDEV is not that of the flit in
which it began is discarded alone (16 R414). -/
def takePacket (n : Nat) (mc : Bool) (ddev : Nat) (bs : List Byte) (s : State) : State :=
  if mc then enterMulticast n (BitVec.ofNat 512 (leNat (bs.take 64))) (wirePacket s true (bs.drop 64)) s
  else
    let p := wirePacket s false bs
    if p.ddev ≠ ddev then postRecord 1 .port 0x44 (portSite n) n 0 0 s else enterDevice n p s

/-- The body of an accepted data flit. -/
def acceptData (n : Nat) (w0 : Word) (body : List Byte) (s : State) : State :=
  let mc := bit w0 57
  let cc := fld w0 61 58
  let first := fld w0 46 42
  let key := cc + (if mc then 16 else 0)
  let p := mget (getPort s n).data.partials key ⟨[], [], 0⟩
  let o := openBody mc first (fld w0 41 37) p.bytes body
  let pool := if bit w0 36 then 9 else cc
  let put := fun (l : LinkSeq) => (heldPools p first pool o).2.foldl (fun l c => oweCredit c l)
    { l with
      accepted := some (BitVec.ofNat 16 (fld w0 31 16)), nakSent := false, partials := mset l.partials key (leftOver p first pool (fld w0 55 47) o) }
  let s1 := modPort n (fun q => { q with data := put q.data }) s
  o.2.1.foldl (fun st b => takePacket n mc (fld w0 55 47) b st) (o.1.foldl (fun st b => takePacket n mc p.ddev b st) s1)

/-- A flit discarded under R414 returns the credit of the pool that its header names (16 R417). -/
def returnDiscarded (w0 : Word) (l : LinkSeq) : LinkSeq :=
  if fld w0 63 62 = 1 && decide (fld w0 61 58 < 9) then oweCredit (if bit w0 36 then 9 else fld w0 61 58) l else l

/-- A data flit arrives. -/
def dataFlit (n : Nat) (flit : BitVec 2048) (fecBad : Bool) (s : State) : State :=
  let q := getPort s n
  if !portCarries q then s
  else
    let bs := bytesOf flit 256
    let w0 : Word := flit.setWidth 64
    let w1 : Word := (flit >>> 64).setWidth 64
    let s0 := if fecBad then modPort n (fun q => { q with uncorr := satInc q.uncorr }) s else s
    if fecBad || crc64 (bs.take 248) ≠ (flit >>> 1984).setWidth 64 || badDataHeader w0 w1 then
      modPort n (fun q => sendNak false { q with crcErr := satInc q.crcErr, data := returnDiscarded w0 q.data }) s0
    else
      let s1 := modPort n (fun q => { q with data := addCredits (fld w1 45 42) (fld w1 41 32) (addCredits (fld w1 59 56) (fld w1 55 46) q.data) }) s0
      let s2 := if bit w1 63 then modPort n (ackData (BitVec.ofNat 16 (fld w0 15 0))) s1 else s1
      let s3 := if bit w1 62 then replayLink n false s2 else s2
      let s4 := if fld w0 63 62 = 0 then s3
        else if BitVec.ofNat 16 (fld w0 31 16) = nextSeqOf (getPort s3 n).data then acceptData n w0 ((bs.drop 16).take 232) s3
        else modPort n (sendNak false) s3
      drainCheck n (modPort n (fun q => trySleep (emitAcks q)) (pumpPort n s4))

def execDataFlitArrival (port : Fin 16) (flit : BitVec 2048) (fecBad : Bool) (s : State) : Host.Outcome State Fault Refusal :=
  .next (dataFlit port flit fecBad s)

/-! ### Control flits (16 R415) -/

/-- The header of a control flit breaks Table 16.4. -/
def badCtrlHeader (w : Word) : Bool :=
  let kind := fld w 63 62
  let fill := fld w 57 55
  let first := fld w 61 58
  fld w 40 32 != 0 || decide (32 < fld w 52 47) || decide (32 < fld w 46 41) || (decide (5 < first) && first != 15) ||
  (if kind == 0 || kind == 3 then fill != 0 || fld w 31 16 != 0 else fill == 0 || decide (6 < fill))

/-- HCTL types that a host sends (17 Table 17.4). -/
def hctlListed (t : Nat) : Bool := t = 1 || t = 3 || t = 4 || t = 6

/-- A sequenced control flit is accepted: its number, and the credits of the flits that have left the buffer. -/
def acceptCtrlSeq (w : Word) (pools : List Nat) (q : Port) : Port :=
  { q with ctrl := pools.foldl (fun l c => oweCredit c l) { q.ctrl with accepted := some (BitVec.ofNat 16 (fld w 31 16)), nakSent := false } }

/-- A MGMT packet at a port: while no image runs, the loader takes IMGDATA and IMGCMD of device 0 straight from the link, and nothing else
is accepted (18 R471). -/
def enterMgmt (n : Nat) (p : Packet) (s : State) : State :=
  if s.img.present then enterDevice n p s
  else match p.body with
    | .imgPacket opc _ => if p.sdev = 0 && !p.hdrBad && (opc = 0x70 || opc = 0x72) then injectDirect { p with dsite := 23 } s else s
    | _ => s

/-- The packets of a MGMT flit enter the mesh. -/
def acceptMgmt (n : Nat) (w : Word) (body : List Byte) (s : State) : State :=
  let first := if fld w 61 58 = 15 then 31 else fld w 61 58
  let p := mget (getPort s n).ctrl.partials 0 ⟨[], [], 0⟩
  let o := openBody false first (fld w 57 55) p.bytes body
  let s1 := modPort n (fun q =>
    let q1 := acceptCtrlSeq w (heldPools p first 0 o).2 q
    { q1 with ctrl := { q1.ctrl with partials := mset q1.ctrl.partials 0 (leftOver p first 0 0 o) } }) s
  (o.1 ++ o.2.1).foldl (fun st b => enterMgmt n (wirePacket st false b) st) s1

/-- An HCTL flit: only the host-facing port takes it, and an unlisted type is dropped and counted (17 R460). What a listed message
does is its own command. -/
def acceptHctl (n : Nat) (w : Word) (body : List Byte) (s : State) : State :=
  let s1 := modPort n (acceptCtrlSeq w [1]) s
  if hostPort s ≠ some n then postRecord 1 .port 0x44 (portSite n) n 0 1 s1
  else if hctlListed (leAt body 0 1) && fld w 61 58 = 0 && fld w 57 55 = 6 then s1
  else { s1 with grp := { s1.grp with dbdrop := satInc s1.grp.dbdrop } }

/-- The same on the control link. -/
def returnDiscardedCtrl (w : Word) (l : LinkSeq) : LinkSeq :=
  let kind := fld w 63 62
  if kind = 1 || kind = 2 then oweCredit (kind - 1) l else l

/-- A control flit arrives. LM flits are commands of their own. -/
def controlFlit (n : Nat) (flit : BitVec 512) (s : State) : State :=
  let q := getPort s n
  if !portCtrlUp q then s
  else
    let bs := bytesOf flit 64
    let w : Word := flit.setWidth 64
    if crc64 (bs.take 56) ≠ (flit >>> 448).setWidth 64 || badCtrlHeader w then
      modPort n (fun q => sendNak true { q with crcErr := satInc q.crcErr, ctrl := returnDiscardedCtrl w q.ctrl }) s
    else
      let s1 := modPort n (fun q => { q with ctrl := addCredits 1 (fld w 46 41) (addCredits 0 (fld w 52 47) q.ctrl) }) s
      let s2 := if bit w 54 then modPort n (ackCtrl (BitVec.ofNat 16 (fld w 15 0))) s1 else s1
      let s3 := if bit w 53 then replayLink n true s2 else s2
      let kind := fld w 63 62
      let body := (bs.drop 8).take 48
      let s4 := if kind = 0 || kind = 3 then s3
        else if BitVec.ofNat 16 (fld w 31 16) ≠ nextSeqOf (getPort s3 n).ctrl then modPort n (sendNak true) s3
        else if kind = 1 then acceptMgmt n w body s3 else acceptHctl n w body s3
      drainCheck n (modPort n emitCtrlAcks (pumpPort n s4))

def execControlFlitArrival (port : Fin 16) (flit : BitVec 512) (s : State) : Host.Outcome State Fault Refusal :=
  .next (controlFlit port flit s)

/-! ### Sparing, sleep and the partner's requests (16 R428 to R432) -/

/-- The codeword counter of a port (16 R409): 0 at the DCHECK that synchronised it, and 25 codeword periods of 51.2 ns in 32 always-on counts
(DESIGN CHOICE, assumption log 84). -/
def codewords (s : State) (q : Port) : BitVec 32 := BitVec.ofNat 32 ((s.aoc - q.cwSince.getD s.aoc) * 25 / 32)

/-- The codeword period from which a spare takes over: the one asked for, if it lies at least 8 periods ahead (16 R429). -/
def sparePeriod (s : State) (q : Port) (period : BitVec 32) : BitVec 32 :=
  let ahead := (period - codewords s q).toNat
  if 8 ≤ ahead && ahead < 2 ^ 31 then period else codewords s q + 8

/-- A receiver declares a data lane failed: the spare takes it, or the link enters RECOVER (16 R428 to R430). -/
def laneFails (n lane : Nat) (period : BitVec 32) (s : State) : State :=
  let q := getPort s n
  if q.state ≠ .active then s
  else if q.spRx = 0xF && !q.spBad && q.lm.all (fun r => match r with | .spare _ _ => false | _ => true) then
    modPort n (askLm (.spare lane (sparePeriod s q period))) s
  else enterRecover n s

def execDataLaneFailure (port : Fin 16) (lane : Fin 8) (period : BitVec 32) (s : State) : Host.Outcome State Fault Refusal :=
  .next (laneFails port lane period s)

/-- SPARE reaches the sender: from the period named the lane's stream runs on the spare too. -/
def spareArrives (n lane : Nat) (period : BitVec 32) (s : State) : State :=
  modPort n (fun q => if q.state = .active then sendLm 6 (bytesOf period 4) { q with spTx := BitVec.ofNat 4 lane } else q) s

def execLmSpare (port : Fin 16) (lane : Fin 8) (period : BitVec 32) (s : State) : Host.Outcome State Fault Refusal :=
  .next (spareArrives port lane period s)

/-- SPAREACK: the receiver takes the lane from the spare. -/
def spareAcked (n : Nat) (period : BitVec 32) (s : State) : State :=
  let q := getPort s n
  match q.lm.find? (fun r => match r with | .spare _ c => c == period | _ => false) with
  | some (.spare lane c) =>
    if q.state = .active then
      postRecord 2 .port 0x40 (portSite n) n 0 lane
        (modPort n (fun q => { q with spRx := BitVec.ofNat 4 lane, spares := satInc q.spares,
                                      lm := q.lm.filter (fun r => r != .spare lane c) }) s)
    else s
  | _ => s

def execLmSpareack (port : Fin 16) (period : BitVec 32) (s : State) : Host.Outcome State Fault Refusal :=
  .next (spareAcked port period s)

/-- PWR arrives: SLEEP is accepted or refused, and waits while a sparing is under way; ACTIVE wakes the link. -/
def pwrArrives (n : Nat) (sleep : Bool) (s : State) : State :=
  modPort n (fun q =>
    if sleep then
      (if q.state = .active then
        (if q.lm.any (fun r => match r with | .spare _ _ => true | _ => false) then q
         else if maySleep q then sendLm 8 [1] { q with state := .sleep } else sendLm 8 [0] q)
       else if q.state = .sleep then sendLm 8 [1] q else q)
    else if q.state = .sleep then sendLm 8 [1] { q with state := .dtrain, waking := true, recTrained := false }
    else if q.waking then sendLm 8 [1] q else q) s

def execLmPwr (port : Fin 16) (sleep : Bool) (s : State) : Host.Outcome State Fault Refusal := .next (pwrArrives port sleep s)

/-- PWRACK: the data link sleeps if it was accepted and nothing has been queued since. -/
def pwrAcked (n : Nat) (accept : Bool) (s : State) : State :=
  modPort n (fun q =>
    if q.lm.contains (.pwr true) then
      let q1 := { q with lm := q.lm.filter (fun r => r != .pwr true) }
      let q2 := { q1 with state := .sleep }
      if accept && q1.state = .active then (if q1.queue.isEmpty && q1.sent.isEmpty then q2 else wakePort q2) else q1
    else { q with lm := q.lm.filter (fun r => r != .pwr false) }) s

def execLmPwrack (port : Fin 16) (accept : Bool) (s : State) : Host.Outcome State Fault Refusal := .next (pwrAcked port accept s)

/-- RETRAIN: the partner asks for RECOVER. -/
def retrainArrives (n : Nat) (s : State) : State := if (getPort s n).state = .active then enterRecover n s else s
def execLmRetrain (port : Fin 16) (s : State) : Host.Outcome State Fault Refusal := .next (retrainArrives port s)

/-- DOWN: the port drains and enters OFF as on EN = 0. -/
def downArrives (n : Nat) (s : State) : State := if portThere s n then beginDrain n s else s
def execLmDown (port : Fin 16) (s : State) : Host.Outcome State Fault Refusal := .next (downArrives port s)

/-- A drain not complete in 1 ms ends as a loss. -/
def drainTimeout (n : Nat) (s : State) : State :=
  let q := getPort s n
  if q.state = .draining then
    modPort n (fun r => if q.ctl.pend then { toDetect r with ctl := ⟨true, false, .on⟩ }
                        else { toDetect r with ctl := Enable.off, state := .off }) (loseCtrl n (loseLink n s))
  else s

def execPortDrainTimeout (port : Fin 16) (s : State) : Host.Outcome State Fault Refusal := .next (drainTimeout port s)

/-- The spare lane's check fails. -/
def spareFails (n : Nat) (s : State) : State := modPort n (fun q => { q with spBad := true }) s
def execSpareLaneFailure (port : Fin 16) (s : State) : Host.Outcome State Fault Refusal := .next (spareFails port s)

/-- An unanswered request is sent again. -/
def repeatLm (n k : Nat) (s : State) : State :=
  modPort n (fun q => match q.lm[k]? with
    | some .cap => sendLm 1 (ownCap s n q) q
    | some r => sendLm (lmMessage r).1 (lmMessage r).2 q
    | none => q) s

def execLmRequestRepeat (port : Fin 16) (n : Nat) (s : State) : Host.Outcome State Fault Refusal := .next (repeatLm port n s)

end Sys2Proof.Machine
end

