-- ==== Sys2Proof/Machine/Group.lean ====
section
/-! DEFINITION. Groups (17): collective engines, the GRP_ block, the host bridge and its HCTL messages. -/

namespace Sys2Proof.Machine

open Sys2Proof

/-! ### Collectives (17 R447 to R452) -/

/-- Bytes of an element in a format. -/
def collElem (fmt : Nat) : Nat := if fmt = 5 then 2 else 4

/-- The descriptor of 17 Table 17.2. -/
def parseColl (b : List Byte) : CollDesc :=
  { src := leAt b 0 8, dst := leAt b 8 8, count := leAt b 16 4, op := leAt b 20 1 % 16, fmt := leAt b 20 1 / 16,
    evb := BitVec.ofNat 5 (leAt b 21 1), cseq := BitVec.ofNat 16 (leAt b 22 2), evthid := leAt b 24 4 }

/-- A thread that is in service. -/
def threadServed (s : State) (thid : Nat) : Bool :=
  match siteOfThid s thid with
  | some (site, t) => hasThread site t && windowServed s site
  | none => false

/-- A descriptor is malformed (17 R447). -/
def collMalformed (s : State) (t : Nat) (b : List Byte) : Bool :=
  let d := parseColl b
  let n := d.count * collElem d.fmt
  !bit (treeWord s t) 63 || d.src % 256 != 0 || d.dst % 256 != 0 || decide (2 ^ 48 ≤ d.src) || decide (2 ^ 48 ≤ d.dst) ||
  d.count == 0 || decide (2 ^ 28 < d.count) || decide (4 < d.op) || !(d.fmt == 5 || d.fmt == 7 || d.fmt == 8) ||
  (d.src != d.dst && decide (d.src < d.dst + n) && decide (d.dst < d.src + n)) ||
  decide (d.evb.toNat < 8) || leAt b 21 1 / 32 != 0 || !threadServed s d.evthid || (b.drop 28).any (· != 0) ||
  decide (mappedSize s < d.src + n) || decide (mappedSize s < d.dst + n)

/-- Chunks of a vector. -/
def collChunks (d : CollDesc) : Nat := (d.count + 63) / 64

/-- Address of a chunk, and its elements below COUNT. -/
def chunkAddr (base : Nat) (d : CollDesc) (j : Nat) : Nat := base + j * 64 * collElem d.fmt
def chunkCount (d : CollDesc) (j : Nat) : Nat := min 64 (d.count - 64 * j)

/-- `n` bytes of HBM lie on nodes in service. -/
def hbmServed (s : State) (a n : Nat) : Bool := (List.range n).all (fun i => (hbmNodeFor s (a + i)).isSome)

/-- Own SRC chunk as 32-bit values, and whether it is errored (17 R448, R451). -/
def sourceChunk (s : State) (d : CollDesc) (j : Nat) : List (BitVec 32) × Bool :=
  let a := chunkAddr d.src d j
  let n := collElem d.fmt
  if (hbmFirstBad s a (chunkCount d j * n)).isSome then
    (List.replicate 64 (if d.fmt = 8 then 0 else 0x7FC00000), true)
  else
    ((List.range 64).map (fun i =>
      let v := leNat (hbmReadN s (a + i * n) n)
      if d.fmt = 5 then BitVec.ofNat 32 (v * 65536) else BitVec.ofNat 32 v), false)

/-- The reads of an own SRC chunk are counted where they meet uncorrectable sectors (11 R293). -/
def sourceNotes (s : State) (d : CollDesc) (j : Nat) : State :=
  countKnownBad (chunkAddr d.src d j) (chunkCount d j * collElem d.fmt) s

/-- One element added to another (17 R450). -/
def collSum (fmt : Nat) (a b : BitVec 32) : BitVec 32 :=
  if fmt = 8 then a + b
  else BitVec.ofNat 32 (roundNum 7 0 false 0 (numAdd (decodeFloat 7 a.toNat) (decodeFloat 7 b.toNat))).1

/-- The larger of two elements under 06 R162; INT32 is signed. -/
def collMax (fmt : Nat) (a b : BitVec 32) : BitVec 32 :=
  if fmt = 8 then (if a.slt b then b else a)
  else
    let x := decodeFloat 7 a.toNat
    let y := decodeFloat 7 b.toNat
    if isNan x || isNan y then 0x7FC00000 else if ordLt x y then b else a

/-- Chunk values combined, the own first and then each child's in increasing device ID. -/
def collCombine (d : CollDesc) (acc : List (BitVec 32)) (vs : List (BitVec 32)) : List (BitVec 32) :=
  if d.op = 4 then acc
  else (List.range 64).map (fun i =>
    let f := if d.op = 0 || d.op = 2 then collSum d.fmt else collMax d.fmt
    f (acc.getD i 0) (vs.getD i 0))

/-- Payload of a chunk. -/
def chunkBytes (vs : List (BitVec 32)) : List Byte := vs.flatMap (fun v => bytesOf v 4)
def chunkValues (bs : List Byte) : List (BitVec 32) := (List.range 64).map (fun i => BitVec.ofNat 32 (leAt bs (4 * i) 4))

/-- An engine sends a chunk to an engine of a tree neighbour (17 R448). -/
def sendChunk (t dev : Nat) (up err : Bool) (cseq : BitVec 16) (j : Nat) (data : List Byte) (s : State) : State :=
  inject { mkPacket s 2 .machine (engineSite t) (engineSite t) (cseq.toNat * 2 ^ 32 + j) (.coll up err cseq j data) with ddev := dev } s

/-- DST is written by this device (17 R450). -/
def writesDst (s : State) (t : Nat) (d : CollDesc) : Bool := d.op = 0 || d.op = 1 || d.op = 4 || isRoot s t

/-- The result elements of a chunk in FMT. -/
def resultBytes (d : CollDesc) (vs : List (BitVec 32)) : List Byte :=
  vs.flatMap (fun v =>
    if d.fmt = 5 then leBytes 2 (roundNum 5 0 false 0 (decodeFloat 7 v.toNat)).1 else bytesOf v 4)

/-- Every chunk done ends the collective, with DATAERR where one was errored. -/
def collCheckEnd (t : Nat) (s : State) : State :=
  let e := getEngine s t
  match e.desc with
  | some d => if e.state = 1 && e.chunks = collChunks d then collEnd t (if e.errored then 3 else 0) d s else s
  | none => s

/-- A DOWN chunk at an engine: DST is written where R450 requires it, and the chunk goes to each child (17 R449). -/
def emitDown (t j : Nat) (d : CollDesc) (vs : List (BitVec 32)) (err : Bool) (s : State) : State :=
  let data := if d.op = 2 || d.op = 3 then [] else chunkBytes vs
  let s1 := (childrenOf s t).foldl (fun st c => sendChunk t c false err d.cseq j data st) s
  let s2 := modEngine t (fun e => { e with errored := e.errored || err }) s1
  if writesDst s t d then
    let bytes := (resultBytes d vs).take (chunkCount d j * collElem d.fmt)
    let a := chunkAddr d.dst d j
    if hbmServed s a bytes.length then
      modEngine t (fun e => { e with dstWait := e.dstWait ++ [j] }) (hbmWriteN a bytes s2)
    else collEnd t 2 d s2
  else modEngine t (fun e => { e with chunks := e.chunks + 1 }) s2

/-- UP of chunk j from a child of the current collective. -/
def upFrom (e : Engine) (child j : Nat) : Option (List (BitVec 32) × Bool) :=
  (e.ups.find? (fun u => u.1 == child && u.2.1 == e.cseq && u.2.2.1 == j)).map (fun u => (u.2.2.2.1, u.2.2.2.2))

/-- This engine reads its own SRC chunks: in BCAST only the root does. -/
def readsSource (s : State) (t : Nat) (d : CollDesc) : Bool := !(d.op == 4 && !isRoot s t)

/-- The own chunk j: in BCAST only the root's is read. -/
def ownChunk (s : State) (t : Nat) (d : CollDesc) (j : Nat) : List (BitVec 32) × Bool :=
  if readsSource s t d then sourceChunk s d j else ([], false)

/-- Send what can be sent: UP j, or DOWN j at the root, while every child's UP is there and j < D + 16. -/
def collPump (t : Nat) : Nat → State → State
  | 0, s => s
  | n + 1, s =>
    let e := getEngine s t
    match e.desc with
    | none => s
    | some d =>
      let j := e.sentUp
      let kids := childrenOf s t
      if e.state ≠ 1 || collChunks d ≤ j || e.chunks + 16 ≤ j || !kids.all (fun c => (upFrom e c j).isSome) then s
      else if readsSource s t d && !hbmServed s (chunkAddr d.src d j) (chunkCount d j * collElem d.fmt) then collEnd t 2 d s
      else
        let own := ownChunk s t d j
        let ups := kids.filterMap (fun c => upFrom e c j)
        let vs := ups.foldl (fun acc u => collCombine d acc u.1) own.1
        let err := own.2 || ups.any (·.2)
        let s1 := modEngine t (fun e => { e with
          sentUp := j + 1, errored := e.errored || err, ups := e.ups.filter (fun u => !(u.2.1 == e.cseq && u.2.2.1 == j)) })
          (if readsSource s t d then sourceNotes s d j else s)
        let s2 := if isRoot s t then collCheckEnd t (emitDown t j d vs err s1)
          else sendChunk t (fld (treeWord s t) 40 32) true err d.cseq j (if d.op = 4 then [] else chunkBytes vs) s1
        collPump t n s2

/-- The engine is in service: a unit of half-domain H0, neither fenced, disabled at start nor isolated (01 R23, 00 R6). -/
def engineThere (s : State) (t : Nat) : Bool :=
  !(getEngine s t).fenced && !(getEngine s t).isolated && !sliceOff s 8 t && halfOn s (engineSite t)

/-- GO (17 R447). -/
def collStart (t a : Nat) (s : State) : State :=
  let e := getEngine s t
  if !engineThere s t || e.state = 1 then s
  else match devRead s a 64 with
    | none => collEnd t 5 ⟨0, 0, 0, 0, 0, 0, 0, 0xFFFF⟩ (modEngine t (fun e => { e with chunks := 0 }) (devReadNotes a 64 s))
    | some b =>
      let d := parseColl b
      let s1 := modEngine t (fun e => { e with
        cseq := d.cseq, chunks := 0, sentUp := 0, dstWait := [], errored := false, ups := e.ups.filter (fun u => u.2.1 == d.cseq) }) s
      if collMalformed s t b then collEnd t 1 d s1
      else collPump t 17 (modEngine t (fun e => { e with
        state := 1, status := 0, desc := some d }) s1)

def execCollGo (t : Fin 4) (desc : BitVec 48) (s : State) : Host.Outcome State Fault Refusal :=
  .next (collStart t (desc.toNat / 64 * 64) s)

def execCollAbort (t : Fin 4) (s : State) : Host.Outcome State Fault Refusal := .next (collStop t 4 s)

/-- A child's UP chunk is held, and may be combined and sent on. -/
def collUp (n : Nat) (s : State) : State :=
  match arrived s n with
  | some p => match p.body, engineOf p.dsite with
    | .coll true err cseq j data, some t =>
      let s1 := dropPacket n s
      if engineThere s t then
        collPump t 17 (modEngine t (fun e => { e with ups := e.ups ++ [(p.sdev, cseq, j, chunkValues data, err)] }) s1)
      else s1
    | _, _ => s
  | none => s

def execCollUpArrival (pkt : Nat) (s : State) : Host.Outcome State Fault Refusal := .next (collUp pkt s)

/-- A DOWN chunk of the current collective is written and forwarded. -/
def collDown (n : Nat) (s : State) : State :=
  match arrived s n with
  | some p => match p.body, engineOf p.dsite with
    | .coll false err cseq j data, some t =>
      let s1 := dropPacket n s
      let e := getEngine s t
      (match e.desc with
       | some d => if engineThere s t && e.state = 1 && cseq = e.cseq then
           collPump t 17 (collCheckEnd t (emitDown t j d (chunkValues data) err s1))
         else s1
       | none => s1)
    | _, _ => s
  | none => s

def execCollDownArrival (pkt : Nat) (s : State) : Host.Outcome State Fault Refusal := .next (collDown pkt s)

/-- A DST write is acknowledged: D rises. -/
def collAck (t j : Nat) (s : State) : State :=
  if (getEngine s t).dstWait.contains j then
    collPump t 17 (collCheckEnd t (modEngine t (fun e => { e with dstWait := e.dstWait.erase j, chunks := e.chunks + 1 }) s))
  else s

def execCollDstWriteAck (t : Fin 4) (chunk : Nat) (s : State) : Host.Outcome State Fault Refusal := .next (collAck t chunk s)

/-! ### GRP_ registers (17 Table 17.5) -/

/-- The host bridge of this device. -/
def bridgeThere (s : State) : Bool := s.top.hbridge

/-- A write of GRP_HCTL at a level (17 Table 17.14, R459). -/
def hctlWrite (lvl : Level) (v : Word) (s : State) : State :=
  if bridgeThere s then
    modGrp (fun g => { g with hlvl := levelOf (min (fld v 9 8) (levelCode lvl)), hctl := enableWrite (bit v 0) true g.hctl }) s
  else s

def execGrpHctlEn (lvl : Level) (v : BitVec 64) (s : State) : Host.Outcome State Fault Refusal := .next (hctlWrite lvl v s)

/-- The bridge's drain completes when no request through it awaits its reply. -/
def bridgeDrained (s : State) : State :=
  if s.grp.bridge = [] then modGrp (fun g => { g with hctl := drainDone true g.hctl }) s else s

def execBridgeDrainComplete (s : State) : Host.Outcome State Fault Refusal := .next (bridgeDrained s)

/-- An HCTL message leaves for the host: the host-facing port's control link sends it once it holds a credit (16 R415, R416). -/
def sendHctl (m : List Byte) (s : State) : State :=
  let s1 := modGrp (fun g => { g with hctlOut := m :: g.hctlOut }) s
  match hostPort s with
  | some n => pumpPort n (modPort n (fun q => { q with hctl := q.hctl ++ [m] }) s1)
  | none => s1

/-- A store to GRP_HINT (17 Tables 17.4, 17.16). -/
def hintStore (v : Word) (s : State) : State :=
  if bridgeThere s then sendHctl ([2, 0] ++ leBytes 2 (fld v 9 0) ++ leBytes 4 (fld v 63 32) ++ leBytes 40 0) s else s

def execGrpHintStore (v : BitVec 64) (s : State) : Host.Outcome State Fault Refusal := .next (hintStore v s)

def grpStatClear (s : State) : State := modGrp (fun g => { g with inref := 0, spoof := 0 }) s
def execGrpStatClr (s : State) : Host.Outcome State Fault Refusal := .next (grpStatClear s)

def grpHstatClear (s : State) : State := modGrp (fun g => { g with refin := 0, refout := 0, dbdrop := 0 }) s
def execGrpHstatClr (s : State) : Host.Outcome State Fault Refusal := .next (grpHstatClear s)

/-- A window register as a write stores it: LSZ 12 to `top`, BASE cleared below LSZ; `keep` is the mask of its other bits. -/
def windowStore (top : Nat) (keep v : Word) : Word :=
  let lsz := clampNat 12 top (fld v 55 50)
  (v &&& keep) ||| mk 55 50 lsz ||| mk 47 0 (fld v 47 0 / 2 ^ lsz * 2 ^ lsz)

/-- A word with the bits below `n` cleared. -/
def clearBelow (n : Nat) (v : Word) : Word := BitVec.ofNat 64 (v.toNat / 2 ^ n * 2 ^ n)

/-- The number of an element of an array of registers `stride` apart, and 0 for its lowest offset. -/
def inArray (off base stride count : Nat) : Option Nat :=
  if base ≤ off && off < base + stride * count && (off - base) % stride = 0 then some ((off - base) / stride) else none

/-- The fields of GRP_GMCTn and GRP_TREEt that are not reserved (17 Tables 17.10, 17.11). -/
def gmctFields : Word := 0x9F9F9F9F9F9F9F9F
def treeFields : Word := mk 63 62 3 ||| mk 52 48 31 ||| mk 40 32 511

/-- Value of a GRP_ register, none at a reserved offset. -/
def grpRead (s : State) (off : Nat) : Option Word :=
  let g := s.grp
  if off = 0 then some (mk 63 32 g.gid.toNat ||| mk 8 0 g.ndev.toNat)
  else if off = 8 then some (mk 9 8 (levelCode g.inlvl))
  else if off = 0x10 then some (mk 63 32 g.inref.toNat ||| mk 31 16 g.spoof.toNat)
  else match inArray off 0x40 8 8, inArray off 0x80 8 8, inArray off 0xC0 8 8, inArray off 0x100 8 64, inArray off 0x400 8 4 with
  | some n, _, _, _, _ => some (mget g.ureach n 0)
  | _, some n, _, _, _ => some (mget g.inacc n 0)
  | _, _, some n, _, _ => some (mget g.peer n 0)
  | _, _, _, some n, _ => some (mget g.gmct n 0 &&& gmctFields)
  | _, _, _, _, some n => some (mget g.tree n 0 &&& treeFields)
  | _, _, _, _, _ =>
    match inArray off 0x500 16 4, inArray off 0x508 16 4, inArray off 0x1000 8 512 with
    | some _, _, _ => some 0
    | _, some t, _ => some (cestatWord (getEngine s t))
    | _, _, some i => some (mget g.bdmask i 0)
    | _, _, _ =>
      if off = 0x8000 then
        some (mk 9 8 (levelCode g.hlvl) ||| mk 3 2 (gateCode g.hctl.gate) ||| bitAt 1 g.hctl.pend ||| bitAt 0 g.hctl.en)
      else if off = 0x8008 then some (mk 63 48 g.refin.toNat ||| mk 47 32 g.refout.toNat ||| mk 31 16 g.dbdrop.toNat)
      else if off = 0x8010 then some 0
      else match inArray off 0x8040 8 8, inArray off 0x8100 16 16, inArray off 0x8108 16 16 with
        | some n, _, _ => some (mget g.hreach n 0)
        | _, some w, _ => some (mget g.hwin w windowRegReset)
        | _, _, some w => some (mget g.haddr w 0)
        | _, _, _ => none

/-- A store to a GRP_ register by a request of a level; read-only registers and reserved offsets are left as they are. -/
def grpWrite (off : Nat) (lvl : Level) (v : Word) (s : State) : State :=
  if off = 8 then modGrp (fun g => { g with inlvl := levelOf (min (fld v 9 8) (levelCode lvl)) }) s
  else if off = 0x10 then (if bit v 0 then grpStatClear s else s)
  else match inArray off 0x40 8 8, inArray off 0x80 8 8, inArray off 0x500 16 4, inArray off 0x1000 8 512 with
  | some n, _, _, _ => modGrp (fun g => { g with ureach := mset g.ureach n v }) s
  | _, some n, _, _ => modGrp (fun g => { g with inacc := mset g.inacc n v }) s
  | _, _, some t, _ =>
    if bit v 62 then collStop t 4 s else if bit v 63 then collStart t (fld v 47 6 * 64) s else s
  | _, _, _, some i => modGrp (fun g => { g with bdmask := mset g.bdmask i v }) s
  | _, _, _, _ =>
    if off = 0x8000 then hctlWrite lvl v s
    else if off = 0x8008 then (if bit v 0 then grpHstatClear s else s)
    else if off = 0x8010 then hintStore v s
    else match inArray off 0x8040 8 8, inArray off 0x8100 16 16, inArray off 0x8108 16 16 with
      | some n, _, _ => modGrp (fun g => { g with hreach := mset g.hreach n v }) s
      | _, some w, _ => modGrp (fun g =>
          let r := windowStore 47 (3#64 <<< 62) v
          { g with
            hwin := mset g.hwin w r, haddr := mset g.haddr w (clearBelow (fld r 55 50) (mget g.haddr w 0)) }) s
      | _, _, some w => modGrp (fun g =>
          { g with haddr := mset g.haddr w (clearBelow (fld (mget g.hwin w windowRegReset) 55 50) v) }) s
      | _, _, _ => s

/-! ### HCTL messages of the host (17 R460): only a host-facing port takes them (16 R415) -/

def hostLinked (s : State) : Bool := (hostPort s).isSome

def dropDoorbell (s : State) : State := modGrp (fun g => { g with dbdrop := satInc g.dbdrop }) s

/-- DBELL: a store to CORE_EVSETt at HLVL, of this device or through the group. -/
def hostDbell (dev site : Nat) (t : Fin 4) (bits : BitVec 32) (s : State) : State :=
  if dev = ownDev s then
    (if hasThread site t && windowServed s site then setEvents site t s.grp.hlvl bits s else dropDoorbell s)
  else if (peerMask s).getLsbD dev then
    let from_ := portSite ((hostPort s).getD 0)
    inject { mkPacket s 3 s.grp.hlvl from_ site 0 (.eventSet t bits) with ddev := dev, sdev := 511, ssite := 0 } s
  else dropDoorbell s

def execHctlDbell (dev : BitVec 9) (site : BitVec 11) (thr : Fin 4) (bits : BitVec 32) (s : State) :
    Host.Outcome State Fault Refusal := .next (if hostLinked s then hostDbell dev.toNat site.toNat thr bits s else s)

/-- REGRSP: TAG, status and value. -/
def regResponse (tag : BitVec 32) (status : Nat) (v : Word) : List Byte :=
  [5, 0, 0, 0] ++ bytesOf tag 4 ++ [BitVec.ofNat 8 status] ++ leBytes 7 0 ++ bytesOf v 8 ++ leBytes 24 0

/-- An offset of a host-bridge register. -/
def bridgeOffset (s : State) (off : Nat) : Bool := decide (0x8000 ≤ off) && (grpRead s off).isSome

def hostRegrd (off : Nat) (tag : BitVec 32) (s : State) : State :=
  if bridgeOffset s off then sendHctl (regResponse tag 0 ((grpRead s off).getD 0)) s else sendHctl (regResponse tag 1 0) s

def execHctlRegrd (off : BitVec 16) (tag : BitVec 32) (s : State) : Host.Outcome State Fault Refusal :=
  .next (if hostLinked s then hostRegrd off.toNat tag s else s)

/-- REGWR: stored at HLVL, which must reach the supervisor level as every store to the GRP_ block must. -/
def hostRegwr (off : Nat) (tag : BitVec 32) (v : Word) (s : State) : State :=
  if !bridgeOffset s off then sendHctl (regResponse tag 1 0) s
  else if s.grp.hlvl = .user then sendHctl (regResponse tag 2 0) s
  else sendHctl (regResponse tag 0 0) (grpWrite off s.grp.hlvl v s)

def execHctlRegwr (off : BitVec 16) (tag : BitVec 32) (v : BitVec 64) (s : State) : Host.Outcome State Fault Refusal :=
  .next (if hostLinked s then hostRegwr off.toNat tag v s else s)

/-- SRESET: the notice of R443 for one stream of the host. -/
def hostSreset (dev site strm : Nat) (s : State) : State :=
  let from_ := portSite ((hostPort s).getD 0)
  inject { mkPacket s 0 .machine from_ site 0 (.streamReset 0) with ddev := dev, sdev := 511, ssite := 0, strm := strm } s

def execHctlSreset (dev : BitVec 9) (site : BitVec 11) (strm : BitVec 4) (s : State) : Host.Outcome State Fault Refusal :=
  .next (if hostLinked s then hostSreset dev.toNat site.toNat strm.toNat s else s)

end Sys2Proof.Machine
end

