-- ==== Sys2Proof/Machine/Security.lean ====
section
/-! DEFINITION. The security engine: life cycle, identity, attestation, debug unlock and alarms (20). A command is one write of
SEC_CMD by machine-level software and runs whole (assumption log 10). -/

namespace Sys2Proof.Machine

open Sys2Proof

/-- The end of a command: RESULT and CMD of SEC_CMDSTAT. -/
def secResult (cmd res : Nat) (s : State) : State :=
  { s with sec := { s.sec with result := BitVec.ofNat 8 res, cmd := BitVec.ofNat 4 cmd } }

def modSec (f : Sec → Sec) (s : State) : State := { s with sec := f s.sec }

/-- The parameter block address: bits [47:6] (20 Table 20.8). -/
def secAddr (a : BitVec 48) : Nat := a.toNat / 64 * 64

def asciiBytes (l : List Nat) : List Byte := l.map (BitVec.ofNat 8)
/-- "RETURN" -/
def txtReturn : List Byte := asciiBytes [0x52, 0x45, 0x54, 0x55, 0x52, 0x4E]
/-- "IZMET-RTN" -/
def idReturn : List Byte := asciiBytes [0x49, 0x5A, 0x4D, 0x45, 0x54, 0x2D, 0x52, 0x54, 0x4E]
/-- "IZMET-DEBUG" -/
def idDebug : List Byte := asciiBytes [0x49, 0x5A, 0x4D, 0x45, 0x54, 0x2D, 0x44, 0x45, 0x42, 0x55, 0x47]
/-- "IZMET-ATTEST" -/
def idAttest : List Byte := asciiBytes [0x49, 0x5A, 0x4D, 0x45, 0x54, 0x2D, 0x41, 0x54, 0x54, 0x45, 0x53, 0x54]

/-- The identity public key. -/
def idPublic (s : State) : BitVec 512 := Config.sm2Public s.sec.idpriv

/-! ### Fuse words (20 R507, R508, R515) -/

/-- A fuse word as a command programs it: the bits set under a mask of those that take, and whether it then reads back right. -/
structure FuseStep where
  put : BitVec 256 → Sec → Sec
  good : Sec → Bool

/-- Bits of 64-bit word i of a field of 256 (assumption log 30). -/
def fuseLane (i : Nat) : BitVec 256 := BitVec.ofNat 256 (2 ^ 64 - 1) <<< (64 * i)

/-- Bit b of the LC code. -/
def lcStep (b : Nat) : FuseStep :=
  { put := fun m x => if m.getLsbD 0 then { x with lc := x.lc ||| BitVec.ofNat 4 (2 ^ b) } else x, good := fun x => x.lc.getLsbD b }

def killStep : FuseStep := { put := fun m x => { x with kill := x.kill || m.getLsbD 0 }, good := fun x => x.kill }
def revokeStep : FuseStep := { put := fun m x => { x with revoke := x.revoke || m.getLsbD 0 }, good := fun x => x.revoke }
def idgenStep : FuseStep := { put := fun m x => { x with idgen := x.idgen || m.getLsbD 0 }, good := fun x => x.idgen }

def ownkhStep (h : BitVec 256) (i : Nat) : FuseStep :=
  { put := fun m x => { x with ownkh := x.ownkh ||| (h &&& fuseLane i &&& m) }, good := fun x => x.ownkh &&& fuseLane i == h &&& fuseLane i }

def idprivStep (k : BitVec 256) (i : Nat) : FuseStep :=
  { put := fun m x => { x with idpriv := x.idpriv ||| (k &&& fuseLane i &&& m) },
    good := fun x => x.idpriv &&& fuseLane i == k &&& fuseLane i }

/-- OWNREQ and DBGEN. -/
def ownerFlagsStep (req dbg : Bool) : FuseStep :=
  { put := fun m x => { x with ownreq := x.ownreq || (req && m.getLsbD 0), dbgen := x.dbgen || (dbg && m.getLsbD 1) },
    good := fun x => x.ownreq == req && x.dbgen == dbg }

def svnStep (v : BitVec 64) : FuseStep :=
  { put := fun m x => { x with svn := x.svn ||| (v &&& m.setWidth 64) }, good := fun x => x.svn &&& v == v }

/-- Fuse words from number `i` on, with the RESULT in which the programming ends: 0, 7 for a word that reads back wrong, which may have taken
in part, or 8 for an alarm; the words already programmed stay (20 R515, R521). -/
def programFuses (e : FuseEnd) : Nat → List FuseStep → State → Nat × State
  | i, [], s => (if e = .alarm i then 8 else 0, s)
  | i, w :: r, s =>
    if e = .alarm i then (8, s)
    else if e = .mismatch i then
      let f := drawFree 256 s
      (7, modSec (w.put f.1) f.2)
    else
      let s1 := modSec (w.put (BitVec.allOnes 256)) s
      if w.good s1.sec then programFuses e (i + 1) r s1 else (7, s1)

/-- A command that programs fuse words and then ends. -/
def secProgram (cmd : Nat) (e : FuseEnd) (steps : List FuseStep) (s : State) : State :=
  let r := programFuses e 0 steps s
  secResult cmd r.1 r.2

/-- LCADV (20 Table 20.4). -/
def lcadvEffect (e : FuseEnd) (s : State) : State :=
  if s.sec.state ≠ 0 then secResult 1 1 s else secProgram 1 e [lcStep 0] s

def execLcadv (fuses : FuseEnd) (s : State) : Host.Outcome State Fault Refusal := .next (lcadvEffect fuses s)

/-- GENID: the engine draws a key pair, programs IDPRIV and then IDGEN, and shows the public key (20 Table 20.4). -/
def genidEffect (e : FuseEnd) (s : State) : State :=
  if s.sec.state ≠ 1 || s.sec.idgen then secResult 2 1 s
  else
    let priv := Config.entropy s.freeCtr
    let r := programFuses e 0 [idprivStep priv 0, idprivStep priv 1, idprivStep priv 2, idprivStep priv 3, idgenStep]
      { s with freeCtr := s.freeCtr + 1 }
    secResult 2 r.1 (modSec (fun x => if x.idgen then { x with idpub := Config.sm2Public x.idpriv } else x) r.2)

def execGenid (fuses : FuseEnd) (s : State) : Host.Outcome State Fault Refusal := .next (genidEffect fuses s)

/-- PROVISION (20 R515, R508): OWNKH, OWNREQ and DBGEN, then the LC bit. -/
def provisionEffect (a : BitVec 48) (e : FuseEnd) (s : State) : State :=
  if s.sec.state ≠ 1 || !s.sec.idgen then secResult 3 1 s
  else match devRead s (secAddr a) 64 with
    | none => secResult 3 9 (devReadNotes (secAddr a) 64 s)
    | some bs =>
      let hash := BitVec.ofNat 256 (leAt bs 0 32)
      let fl := leAt bs 32 1
      if 4 ≤ fl || (bs.drop 33).any (· != 0) then secResult 3 2 s
      else if s.sec.ownkh &&& ~~~ hash ≠ 0 then secResult 3 3 s
      else secProgram 3 e [ownkhStep hash 0, ownkhStep hash 1, ownkhStep hash 2, ownkhStep hash 3,
        ownerFlagsStep (fl.testBit 0) (fl.testBit 1), lcStep 1] s

def execProvision (addr : BitVec 48) (fuses : FuseEnd) (s : State) : Host.Outcome State Fault Refusal :=
  .next (provisionEffect addr fuses s)

/-- RETURN (20 Table 20.4). -/
def returnEffect (a : BitVec 48) (e : FuseEnd) (s : State) : State :=
  if s.sec.state ≠ 2 then secResult 4 1 s
  else match devRead s (secAddr a) 128 with
    | none => secResult 4 9 (devReadNotes (secAddr a) 128 s)
    | some bs =>
      let key := bs.take 64
      let sig := BitVec.ofNat 512 (leAt bs 64 64)
      if Config.sm3 key ≠ s.sec.ownkh ||
          !Config.sm2Verify (BitVec.ofNat 512 (leNat key)) idReturn (bytesOf (idPublic s) 64 ++ txtReturn) sig then
        secResult 4 4 s
      else secProgram 4 e [revokeStep, lcStep 2] (modSec (fun x => { x with ownerKeys := [] }) s)

def execReturnDev (addr : BitVec 48) (fuses : FuseEnd) (s : State) : Host.Outcome State Fault Refusal :=
  .next (returnEffect addr fuses s)

/-- EOL: KILL, then END_OF_LIFE, its LC bits from the highest to the lowest (20 R508). -/
def eolEffect (e : FuseEnd) (s : State) : State :=
  if s.sec.state = 4 then secResult 5 1 s else secProgram 5 e [killStep, lcStep 3, lcStep 2, lcStep 1, lcStep 0] s

def execEol (fuses : FuseEnd) (s : State) : Host.Outcome State Fault Refusal := .next (eolEffect fuses s)

/-- The fused security version: the count of ones (20 Table 20.1). -/
def svnFused (s : State) : Nat := countBits 64 (fun i => s.sec.svn.getLsbD i)

/-- ADVSVN raises the fused SVN to the running image's. -/
def advsvnEffect (e : FuseEnd) (s : State) : State :=
  if s.sec.state ≠ 1 && s.sec.state ≠ 2 then secResult 6 1 s
  else secProgram 6 e (if svnFused s < s.sec.svnr.toNat then [svnStep (BitVec.ofNat 64 (2 ^ s.sec.svnr.toNat - 1))] else []) s

def execAdvsvn (fuses : FuseEnd) (s : State) : Host.Outcome State Fault Refusal := .next (advsvnEffect fuses s)

/-- KILL, in any state. -/
def killEffect (e : FuseEnd) (s : State) : State := secProgram 8 e [killStep] s

def execKill (fuses : FuseEnd) (s : State) : Host.Outcome State Fault Refusal := .next (killEffect fuses s)

/-! ### Attestation (20 R518, R519) -/


/-- The bytes that FUSEMEAS hashes. -/
def fuseBytes (x : Sec) : List Byte :=
  leBytes 1 x.lc.toNat ++ bytesOf x.svn 8 ++ bytesOf x.ownkh 32 ++
  leBytes 1 (boolBit x.ownreq 0 + boolBit x.dbgen 1 + boolBit x.idgen 2 + boolBit x.revoke 3 + boolBit x.kill 4)

def optionBytes (s : State) : List Byte := mapBytes s.rst.opt 64

/-- Always-on counts since start. -/
def aocSince (s : State) : Nat := s.aoc - s.rst.startMark

/-- Bytes 0 to 255 of the report (20 Table 20.5). -/
def reportBody (s : State) (nonce : List Byte) : List Byte :=
  asciiBytes [0x49, 0x5A, 0x41, 0x54, 1] ++
  leBytes 1 s.sec.state.toNat ++ leBytes 1 s.top.part.toNat ++
  leBytes 1 (boolBit s.sec.owncs 0 + boolBit s.sec.alarmSeen 1 + boolBit s.sec.unlockSeen 2) ++
  bytesOf s.img.serial 8 ++ leBytes 1 s.sec.svnr.toNat ++ leBytes 1 (svnFused s) ++ leBytes 2 s.top.devid.toNat ++
  leBytes 4 0 ++ nonce ++ bytesOf s.sec.fwmeas 32 ++ bytesOf s.img.meas 32 ++
  bytesOf (Config.sm3 (optionBytes s)) 32 ++ bytesOf s.sec.fuseMeas 32 ++ bytesOf (idPublic s) 64 ++
  leBytes 8 (aocSince s)

/-- RESULT of an ATTEST before anything is signed, 0 where it may sign (20 R514, R518). -/
def attestCheck (s : State) : Nat :=
  if s.sec.state = 0 || s.sec.state = 4 then 1
  else if s.sec.kill then 6
  else if !s.sec.idgen then 0xA
  else if s.sec.idblk then 5
  else 0

/-- The signed report, and the state that has drawn for the signature. -/
def signReport (nonce : List Byte) (s : State) : List Byte × State :=
  let body := reportBody s nonce
  (body ++ bytesOf (Config.sm2Sign s.sec.idpriv idAttest body (Config.entropy s.freeCtr)) 64,
   { s with freeCtr := s.freeCtr + 1 })

/-- ATTEST by SEC_CMD. An alarm that arrives during it ends it before it has written anything (20 R521; assumption log 87). -/
def attestEffect (a : BitVec 48) (alarmed : Bool) (s : State) : State :=
  if attestCheck s ≠ 0 then secResult 7 (attestCheck s) s
  else match devRead s (secAddr a) 32 with
    | none => secResult 7 9 (devReadNotes (secAddr a) 32 s)
    | some nonce =>
      let r := signReport nonce s
      if alarmed then secResult 7 8 r.2 else secResult 7 0 (devWrite (secAddr a + 64) r.1 r.2)

def execSecAttest (run : AttestRun) (s : State) : Host.Outcome State Fault Refusal :=
  .next (attestEffect run.addr run.alarmed s)

/-! ### Alarms (20 R520, R521) -/

/-- An alarm of source `b`. -/
def alarm (b : Nat) (s : State) : State :=
  let act := optAlarm s b
  let s1 := modSec (fun x => { x with src := x.src ||| BitVec.ofNat 5 (2 ^ b),
                                      count := if x.count = 255 then 255 else x.count + 1, alarmSeen := true }) s
  if act = 0 then s1
  else if act = 1 || s.sec.state.toNat < 2 then deviceReset 9 0 s1
  else deviceReset 9 0 (modSec (fun x => { x with ownerKeys := [], idblk := true }) s1)

def execAlarmVolt (s : State) : Host.Outcome State Fault Refusal := .next (alarm 0 s)
def execAlarmTemp (s : State) : Host.Outcome State Fault Refusal := .next (alarm 1 s)

/-- TAMPER_N low for at least 1 µs. -/
def tamper (s : State) : State := alarm 3 { s with io := { s.io with tamperLow := true } }

def execAlarmTamper (s : State) : Host.Outcome State Fault Refusal := .next (tamper s)

/-! ### Debug access (20 R516, Table 20.2) -/

/-- SEC_LC.DBG: open outside DEPLOYED (20 Table 20.2), there the scope of an unlock. -/
def dbgMode (s : State) : Nat := if s.sec.state = 2 then s.sec.dbg.toNat else 3

end Sys2Proof.Machine
end

