-- ==== Sys2Proof/Machine/Image.lean ====
section
/-! DEFINITION. Structure images (18): their layout and checks, how a full image takes force at a start (R470, 10 R281 to R283, 11 R287,
22 R553 to R556), and the loader's commands. -/

namespace Sys2Proof.Machine

open Sys2Proof

def modImg (f : Img → Img) (s : State) : State := { s with img := f s.img }
def modTop (f : Top → Top) (s : State) : State := { s with top := f s.top }

/-! ### Layout (18 R462, R463) -/

def imgTot (b : List Byte) : Nat := leAt b 8 4
def imgPartial (b : List Byte) : Bool := leAt b 6 1 == 1
def imgRegion (b : List Byte) : Nat := leAt b 14 2 / 4096
def imgUnit (b : List Byte) : Nat := leAt b 14 2 % 4096
def imgRole (b : List Byte) : Nat := leAt b 20 2 / 512 % 4
def imgDev (b : List Byte) : Nat := leAt b 20 2 % 512

/-- A section table entry: TYPE, OFFSET, LENGTH and its zero fields. -/
structure Sect where
  type : Nat
  off : Nat
  len : Nat
  zero : Nat
  deriving DecidableEq, Repr

def sectAt (b : List Byte) (i : Nat) : Sect :=
  let e := 128 + 16 * i
  ⟨leAt b e 2, leAt b (e + 4) 4, leAt b (e + 8) 4, leAt b (e + 2) 2 + leAt b (e + 12) 4⟩

def imgSects (b : List Byte) : List Sect := (List.range (min 16 (leAt b 12 2))).map (sectAt b)

def findSect (b : List Byte) (ty : Nat) : Option Sect := (imgSects b).find? (fun e => e.type == ty)

/-- Bytes of the section of a type, none where the image has none. -/
def sectBytes (b : List Byte) (ty : Nat) : Option (List Byte) := (findSect b ty).map (fun e => (b.drop e.off).take e.len)

def sectOr (b : List Byte) (ty : Nat) : List Byte := (sectBytes b ty).getD []

/-- Bytes of a router record of a type of section. -/
def recordLen (ty : Nat) : Nat := if ty = 3 then 4104 else if ty = 4 then 1032 else if ty = 5 then 264 else 16

/-- Router records of a section: the site's two bytes, and the entries. -/
def imgRecords (b : List Byte) (ty : Nat) : List (Nat × List Byte) :=
  let bs := sectOr b ty
  (List.range (bs.length / recordLen ty)).map (fun i =>
    let r := (bs.drop (i * recordLen ty)).take (recordLen ty)
    (leAt r 0 2, r.drop 8))

def entryOf (es : List Byte) (i : Nat) : BitVec 16 := BitVec.ofNat 16 (leAt es (2 * i) 2)
def bitsOf (w : Nat) (bs : List Byte) : BitVec w := BitVec.ofNat w (leNat bs)

/-- The sites of the region of a partial image (18 Table 18.7). -/
def inRegion (b : List Byte) (site : Nat) : Bool :=
  let r := imgRegion b
  if r = 1 then (bitsOf 128 ((sectOr b 0xE).take 16)).getLsbD (clusterOf site)
  else if r = 2 then halfOf site == imgUnit b
  else if r = 3 then site == portSite (imgUnit b)
  else if r = 4 then site == nodeSite (imgUnit b)
  else false

def regionSites (b : List Byte) : List Nat := (List.range 2048).filter (inRegion b)

/-! ### Checks, in the order of Table 18.4: true where the image fails -/

def badFormat (b : List Byte) : Bool :=
  let kind := leAt b 6 1
  let r := imgRegion b
  let u := imgUnit b
  leAt b 0 4 != 0x53544944 || leAt b 4 2 != 1 || decide (1 < kind) || (kind == 0) != (r == 0) || decide (4 < r) ||
  ((r == 0 || r == 1) && u != 0) || (r == 2 && decide (7 < u)) || (r == 3 && decide (15 < u)) || (r == 4 && decide (95 < u)) ||
  leAt b 20 2 / 2048 != 0 || leAt b 22 2 != 0 || leAt b 24 8 == 0 || (kind == 0 && leAt b 32 8 != 0) ||
  ((b.drop 40).take 88).any (· != 0)

def badLength (staged : Nat) (b : List Byte) : Bool :=
  let n := imgTot b
  n % 64 != 0 || decide (n < 256) || decide (2 ^ 24 < n) || decide (staged < n)

/-- The key hash that the life-cycle state accepts (18 R465). -/
def imageKey (s : State) : Option (BitVec 256) :=
  if s.sec.state = 1 || s.sec.state = 3 then some Config.romVendorHash
  else if s.sec.state = 2 then some s.sec.ownkh
  else none

def imgKeyBytes (b : List Byte) : List Byte := (b.drop (imgTot b - 128)).take 64

def badSigner (s : State) (b : List Byte) : Bool := imageKey s != some (Config.sm3 (imgKeyBytes b))

def idImage : List Byte := asciiBytes [0x49, 0x5A, 0x4D, 0x45, 0x54, 0x2D, 0x44, 0x49, 0x54, 0x55, 0x53]

def badSignature (b : List Byte) : Bool :=
  !Config.sm2Verify (BitVec.ofNat 512 (leNat (imgKeyBytes b))) idImage (b.take (imgTot b - 128))
    (BitVec.ofNat 512 (leAt b (imgTot b - 64) 64))

def badState (s : State) (b : List Byte) : Bool :=
  if imgPartial b then !s.img.present || leAt b 32 8 != s.img.serial.toNat else s.img.present

/-- Length of a section, where its type gives one that is right. -/
def sectLenOk (b : List Byte) (e : Sect) : Bool :=
  match e.type with
  | 1 => e.len == 256
  | 2 => e.len == 752
  | 3 => e.len % 4104 == 0
  | 4 => e.len % 1032 == 0
  | 5 => e.len % 264 == 0
  | 6 => e.len % 16 == 0
  | 7 => e.len == 12992
  | 8 => decide (leAt b e.off 4 ≤ 65536) && e.len == 8 + 8 * leAt b e.off 4
  | 9 => e.len == 256
  | 10 => e.len == 736
  | 11 => e.len == 64
  | 12 => e.len == 128
  | 13 => e.len == 64
  | 14 => e.len == 64
  | 15 => e.len == 64
  | _ => false

/-- A type may appear in this kind of image and region (18 Table 18.3). -/
def sectAllowed (b : List Byte) (ty : Nat) : Bool :=
  let r := imgRegion b
  if !imgPartial b then decide (1 ≤ ty) && decide (ty ≤ 12)
  else if ty = 1 || ty = 2 then r == 1 || r == 2
  else if ty = 3 || ty = 4 || ty = 5 || ty = 6 then true
  else if ty = 8 || ty = 15 then r == 4
  else if ty = 9 || ty = 10 then r == 3
  else if ty = 13 then r == 2
  else if ty = 14 then r == 1
  else false

/-- Types that must be there. -/
def sectRequired (b : List Byte) : List Nat :=
  if !imgPartial b then [1, 2, 3, 4, 5, 6, 7, 9, 10, 11]
  else if imgRegion b = 1 then [14] else if imgRegion b = 2 then [13] else []

/-- The children of a tree stand in increasing order, zeros after them. -/
def childrenOrdered (g : List Byte) (t : Nat) : Bool :=
  let c := fun i => leAt g (608 + 32 * t + 2 * i) 2
  let n := fld (BitVec.ofNat 64 (leAt g (576 + 8 * t) 8)) 52 48
  decide (n ≤ 16) && (List.range 16).all (fun i => if i < n then i = 0 || decide (c (i - 1) < c i) else c i == 0)

/-- Reserved bytes inside sections are zero, and children in order. -/
def sectZeros (b : List Byte) : Bool :=
  let ports := sectOr b 9
  let ilv := sectOr b 7
  let retire := sectOr b 8
  (List.range 16).all (fun n => leAt ports (16 * n + 1) 1 == 0 && leAt ports (16 * n + 6) 10 == 0) &&
  (List.range 32).all (fun r => leAt ilv (96 + 16 * r + 8) 8 == 0) && leAt retire 4 4 == 0 &&
  (List.range 4).all (childrenOrdered (sectOr b 10)) &&
  (List.range (leAt retire 0 4)).all (fun i => leAt retire (8 + 8 * i) 8 / 2 ^ 22 % 2 ^ 31 == 0) &&
  ((sectOr b 11).drop 1).all (· == 0) && ((sectOr b 12).drop 72).all (· == 0) && ((sectOr b 13).drop 1).all (· == 0) &&
  ((sectOr b 14).drop 16).all (· == 0) && ((sectOr b 15).drop 1).all (· == 0)

/-- Index of the first section table entry that is wrong. -/
def badSect (b : List Byte) : Option Nat :=
  let es := imgSects b
  let endOf := fun i => if i = 0 then 128 + 16 * leAt b 12 2 else (sectAt b (i - 1)).off + (sectAt b (i - 1)).len
  (List.range es.length).find? (fun i =>
    let e := sectAt b i
    !sectAllowed b e.type || e.zero != 0 || e.off % 64 != 0 || decide (e.off < endOf i) || decide (imgTot b - 128 < e.off + e.len) ||
    !sectLenOk b e || ((b.drop (endOf i)).take (e.off - endOf i)).any (· != 0) ||
    (List.range i).any (fun j => (sectAt b j).type == e.type))

/-- R463 is broken, or a required type is missing. -/
def badSections (b : List Byte) : Option (Option Nat) :=
  let n := leAt b 12 2
  if n = 0 || 16 < n then some none
  else match badSect b with
    | some i => some (some i)
    | none =>
      let last := sectAt b (n - 1)
      let tail := (b.drop (last.off + last.len)).take (imgTot b - 128 - (last.off + last.len))
      if !(sectRequired b).all (fun t => (findSect b t).isSome) || tail.any (· != 0) || !sectZeros b then some none else none

/-- Index of the section of a type, for IMG_STAT.SECT. -/
def sectIndex (b : List Byte) (ty : Nat) : Option Nat := (List.range 16).find? (fun i => i < leAt b 12 2 && (sectAt b i).type == ty)

/-- A standalone image binds no port and has no valid device-table entry (17 R434). -/
def bindsNothing (b : List Byte) : Bool :=
  (List.range 16).all (fun n => leAt (sectOr b 9) (16 * n) 1 == 0) &&
  (imgRecords b 4).all (fun r => (List.range 512).all (fun i => !entryValid (entryOf r.2 i)))

/-- `link`: the image came from device 0 over a link. -/
def badIdentity (s : State) (link : Bool) (b : List Byte) : Bool :=
  (imgPartial b && (leAt b 16 4 != s.grp.gid.toNat || imgDev b != ownDev s || imgRole b != s.top.role.toNat)) ||
  (imgRole b == 0 && (imgDev b != 0 || !bindsNothing b)) ||
  (imgRole b == 1 && (!s.top.mgr || !s.top.hbridge)) || imgRole b == 3 ||
  (link && (imgDev b == 0 || imgDev b == 511 || imgRole b != 2))

/-- Enable map of the image, or the running one. -/
def imgEnable (s : State) (b : List Byte) : BitVec 2048 :=
  match sectBytes b 1 with | some e => bitsOf 2048 e | none => s.img.enable
def imgExpress (s : State) (b : List Byte) : BitVec 1920 :=
  match sectBytes b 2 with | some e => bitsOf 1920 (e.take 240) | none => s.img.express
def imgBondE (s : State) (b : List Byte) : BitVec 2048 :=
  match sectBytes b 2 with | some e => bitsOf 2048 ((e.drop 240).take 256) | none => s.img.bondE
def imgBondS (s : State) (b : List Byte) : BitVec 2048 :=
  match sectBytes b 2 with | some e => bitsOf 2048 ((e.drop 496).take 256) | none => s.img.bondS

/-- The express link that starts at a site, by its bit of LINKS. -/
def expressBit (site : Nat) : Nat := 120 * siteRow site + siteCol site

/-- The counts of 01 R17. -/
def countsOk (part : BitVec 8) (en : BitVec 2048) : Bool :=
  let per := fun (f : Nat → Bool) => countBits 2048 (fun s => en.getLsbD s && f s)
  let lo := if part = 2 then 8 else 12
  (List.range 8).all (fun h => per (fun s => halfOf s == h) == if part = 2 then 160 else 224) &&
  (List.range 128).all (fun c => let n := per (fun s => clusterOf s == c); decide (lo ≤ n) && decide (n ≤ lo + 4))

/-- A router port is present under the image's links (12 R310). -/
def portPresent (ex : BitVec 1920) (site p : Nat) : Bool :=
  if p = 0 then true
  else if p = 5 then siteCol site < 120 && ex.getLsbD (expressBit site)
  else if p = 6 then 8 ≤ siteCol site && ex.getLsbD (expressBit (site - 128))
  else if p = 7 then site == anchorOf (clusterOf site)
  else (neighbour site p).isSome

/-- An entry has a zero field set or names an absent port. -/
def badEntry (ex : BitVec 1920) (site : Nat) (mc : Bool) (e : BitVec 16) : Bool :=
  (if mc then e.toNat % 4096 != 0 else e.toNat % 32 != 0) ||
  (entryValid e && (!portPresent ex site (entryPri e) ||
    (!mc && (!portPresent ex site (entryAlt e) || !portPresent ex site (entryEsc e)))))

/-- A TREES record: each tree's parent port and child ports. -/
def badTrees (ex : BitVec 1920) (site : Nat) (es : List Byte) : Bool :=
  (List.range 4).any (fun t =>
    let p := leAt es (2 * t) 1
    let c := leAt es (2 * t + 1) 1
    (p != 0xFF && (decide (7 < p) || !portPresent ex site p)) ||
    (List.range 8).any (fun q => c.testBit q && !portPresent ex site q))

/-- Records of one section are wrong: sites out of range or named twice, a router in service without one in a full image, or a
bad entry. -/
def badRecords (s : State) (b : List Byte) (ty n : Nat) : Bool :=
  let rs := imgRecords b ty
  let ex := imgExpress s b
  rs.any (fun r => decide (2048 ≤ r.1)) || (rs.map (·.1)).eraseDups.length != rs.length ||
  (!imgPartial b && (List.range 2048).any (fun x => (getRouter s x).inService && !rs.any (fun r => r.1 == x))) ||
  rs.any (fun r => if ty = 6 then badTrees ex r.1 r.2 else (List.range n).any (fun i => badEntry ex r.1 (ty == 5) (entryOf r.2 i))) ||
  (List.range rs.length).any (fun i => leAt (sectOr b ty) (i * recordLen ty + 2) 6 != 0)

/-- A bond link joins enabled core sites of one die. -/
def badBonds (s : State) (b : List Byte) : Bool :=
  let en := imgEnable s b
  (List.range 2048).any (fun x =>
    let join := fun y ok => !(ok && en.getLsbD x && en.getLsbD y && isCoreSite x && isCoreSite y && siteDie x == siteDie y)
    ((imgBondE s b).getLsbD x && join (x + 16) (decide (siteCol x < 127))) ||
    ((imgBondS s b).getLsbD x && join (x + 1) (decide (siteRow x < 15))))

/-- The type of a failing table section, 2 for the bond links. -/
def badTables (s : State) (b : List Byte) : Option Nat :=
  if badRecords s b 3 2048 then some 3
  else if badRecords s b 4 512 then some 4
  else if badRecords s b 5 128 then some 5
  else if badRecords s b 6 8 then some 6
  else if badBonds s b then some 2
  else none

/-- A node is there: fused present, and its stack in service once it has been measured. `measured` lists the stacks out of service. -/
def nodePresent (s : State) (out : List Nat) (k : Nat) : Bool :=
  decide (k < 96) && !partLacksStack s.top.part (k / 4) && !out.contains (k / 4)

/-- HBM_ILVr and its valid regions in an ILV section. -/
def secIlv (ilv : List Byte) (r : Nat) : Word := BitVec.ofNat 64 (leAt ilv (96 + 16 * r) 8)
def secNbase (ilv : List Byte) (k r : Nat) : Nat := leAt ilv (608 + 4 * (32 * k + r)) 4
def secReserve (ilv : List Byte) (k : Nat) : Nat := leAt ilv (12896 + k) 1
def regionBase (w : Word) : Nat := fld w 12 0 * 2 ^ 28
def regionSize (w : Word) : Nat := fld w 44 32 * 2 ^ 28

/-- Nodes of a region in ring order. -/
def regionNodes (ilv : List Byte) (r : Nat) : List Nat :=
  let w := secIlv ilv r
  (List.range (fld w 58 52)).map (fun i => leAt ilv ((fld w 51 45 + i) % 96) 1)

/-- The interleave map breaks 11 R292. RING positions that no valid region uses are not checked (DESIGN CHOICE, assumption log 81). -/
def badIlv (s : State) (out : List Nat) (ilv : List Byte) : Bool :=
  let vs := (List.range 32).filter (fun r => bit (secIlv ilv r) 63)
  let w := fun r => secIlv ilv r
  let n := fun r => fld (w r) 58 52
  let share := fun k r => (secNbase ilv k r * 256, regionSize (w r) / n r)
  vs.any (fun r => n r == 0 || decide (96 < n r) || decide (8 < fld (w r) 62 59) ||
    regionSize (w r) % (n r * 2 ^ (8 + fld (w r) 62 59)) != 0 ||
    regionBase (w r) != (vs.filter (fun q => decide (regionBase (w q) < regionBase (w r)))).foldl (fun m q => m + regionSize (w q)) 0 ||
    vs.any (fun q => q != r && decide (regionBase (w r) < regionBase (w q) + regionSize (w q)) &&
      decide (regionBase (w q) < regionBase (w r) + regionSize (w r))) ||
    (regionNodes ilv r).any (fun k => !nodePresent s out k) || (regionNodes ilv r).eraseDups.length != n r ||
    (regionNodes ilv r).any (fun k =>
      decide ((if secReserve ilv k = 0xFF then 8 else 7) * 2684354560 < (share k r).1 + (share k r).2) ||
      vs.any (fun q => q != r && (regionNodes ilv q).contains k && rangesMeet (share k r) (share k q)))) ||
  (List.range 96).any (fun k => secReserve ilv k != 0xFF && (decide (7 < secReserve ilv k) || !nodePresent s out k))

/-- Entries of a RETIRE section. -/
def retireEntries (b : List Byte) : List Word :=
  let r := sectOr b 8
  (List.range (leAt r 0 4)).map (fun i => BitVec.ofNat 64 (leAt r (8 + 8 * i) 8))

/-- A RETIRE entry names an absent node or row. -/
def badRetire (s : State) (out : List Nat) (b : List Byte) : Bool :=
  (retireEntries b).any (fun e => !nodePresent s out (fld e 63 57) || decide (2621440 ≤ fld e 21 0))

def badMemory (s : State) (out : List Nat) (b : List Byte) : Option Nat :=
  if (findSect b 7).isSome && badIlv s out (sectOr b 7) then some 7 else if badRetire s out b then some 8 else none

/-- BIND, DEVID, port and EN of a PORTS entry. -/
def portEntry (b : List Byte) (n : Nat) : Nat × Nat × Nat × Bool :=
  let p := sectOr b 9
  (leAt p (16 * n) 1, leAt p (16 * n + 2) 2, leAt p (16 * n + 4) 1, leAt p (16 * n + 5) 1 % 2 == 1)

/-- Bindings break 01 R22 or name an absent port. -/
def badBinding (s : State) (b : List Byte) : Bool :=
  (findSect b 9).isSome &&
  (let host := (List.range 16).filter (fun n => (portEntry b n).1 == 2)
   (decide (host ≠ []) && imgRole b != 1) || decide (1 < host.length) ||
   (List.range 16).any (fun n => (portEntry b n).1 != 0 && (decide (2 < (portEntry b n).1) || partLacksPort s.top.part n)))

/-- The designated unit of the image. -/
def imgDesig (s : State) (b : List Byte) : Nat := match sectBytes b 11 with | some e => leAt e 0 1 | none => s.img.desig

def badSync (s : State) (b : List Byte) : Bool :=
  (findSect b 11).isSome && (decide (127 < imgDesig s b) || !(getRouter s (anchorOf (imgDesig s b))).inService)

/-- Option bytes that an image may override (21 Table 21.2). -/
def overridable (i : Nat) : Bool := i = 9 || (14 ≤ i && i ≤ 18)

def badOptions (b : List Byte) : Bool := (List.range 64).any (fun i => (leAt (sectOr b 12) 0 8).testBit i && !overridable i)

def powersOff (b : List Byte) : Bool := leAt (sectOr b 13) 0 1 == 1
def powersOn (b : List Byte) : Bool := (findSect b 13).isSome && leAt (sectOr b 13) 0 1 == 0

def badRegion (s : State) (b : List Byte) : Bool :=
  imgPartial b && imgRegion b == 2 && powersOff b &&
  (halfOf (anchorOf s.img.desig) == imgUnit b ||
   (s.top.role == 1 && (match hostPort s with | some n => halfOf (portSite n) == imgUnit b | none => false)))

/-- Bits of ENABLE that concern no site of the region equal the running ones (18 R464). -/
def enableSame (s : State) (b : List Byte) : Bool :=
  (List.range 2048).all (fun x => inRegion b x || (imgEnable s b).getLsbD x == s.img.enable.getLsbD x)

/-- So do the bits of LINKS. -/
def linksSame (s : State) (b : List Byte) : Bool :=
  (List.range 2048).all (fun x =>
    (inRegion b x || inRegion b (x + 16) || (imgBondE s b).getLsbD x == s.img.bondE.getLsbD x) &&
    (inRegion b x || inRegion b (x + 1) || (imgBondS s b).getLsbD x == s.img.bondS.getLsbD x) &&
    (120 ≤ siteCol x || inRegion b x || inRegion b (x + 128) ||
      (imgExpress s b).getLsbD (expressBit x) == s.img.express.getLsbD (expressBit x)))

/-- PORTS changes an entry of a port outside the region. -/
def portsOutside (s : State) (b : List Byte) : Bool :=
  (findSect b 9).isSome && (List.range 16).any (fun n => n != imgUnit b &&
    (let q := getPort s n
     let e := portEntry b n
     let kind := if !q.bindEn then 0 else if q.bindDev = 511 then 2 else 1
     e.1 != kind || e.2.2.2 != s.img.portEn.getLsbD n || (kind == 1 && (e.2.1 != q.bindDev || e.2.2.1 != q.bindPort))))

/-- The type of the section that breaks 01 R17, enables a site that is none of a core, or breaks R464. -/
def badEnable (s : State) (b : List Byte) : Option Nat :=
  if (findSect b 1).isSome && (!countsOk s.top.part (imgEnable s b) ||
      (List.range 2048).any (fun x => (imgEnable s b).getLsbD x && !isCoreSite x)) then some 1
  else if !imgPartial b then none
  else if !enableSame s b then some 1
  else if !linksSame s b then some 2
  else if (retireEntries b).any (fun e => fld e 63 57 != imgUnit b) then some 8
  else if portsOutside s b then some 9
  else none

/-- Code and failing section of the first check that an image fails (18 R467). -/
def imageCheck (s : State) (link : Bool) (out : List Nat) (staged : Nat) (b : List Byte) : Option (Nat × Nat) :=
  let at_ := fun ty => (sectIndex b ty).getD 0xFF
  if badFormat b then some (1, 0xFF)
  else if badLength staged b then some (2, 0xFF)
  else if badSigner s b then some (3, 0xFF)
  else if badSignature b then some (4, 0xFF)
  else if leAt b 7 1 ≠ s.top.part.toNat then some (5, 0xFF)
  else if badState s b then some (6, 0xFF)
  else match badSections b with
    | some i => some (7, i.getD 0xFF)
    | none =>
      if badIdentity s link b then some (8, 0xFF)
      else match badEnable s b with
        | some ty => some (9, at_ ty)
        | none => match badTables s b with
          | some ty => some (0xA, at_ ty)
          | none => match badMemory s out b with
            | some ty => some (0xB, at_ ty)
            | none =>
              if badBinding s b then some (0xC, at_ 9)
              else if badSync s b then some (0xD, at_ 11)
              else if badOptions b then some (0xE, at_ 12)
              else if badRegion s b then some (0xF, at_ 13)
              else none

/-! ### What an image writes -/

/-- A table of entries, those that are zero left out. -/
def tableOf (n : Nat) (es : List Byte) : Map (BitVec 16) :=
  ((List.range n).map (fun i => (i, entryOf es i))).filter (fun e => e.2 != 0)

/-- The router tables of an image (12 R336). -/
def applyTables (b : List Byte) (s : State) : State :=
  let put := fun (ty : Nat) (f : List Byte → Router → Router) (st : State) =>
    (imgRecords b ty).foldl (fun x r => modRouter r.1 (f r.2) x) st
  let s1 := put 3 (fun es r => { r with siteTable := tableOf 2048 es }) s
  let s2 := put 4 (fun es r => { r with devTable := tableOf 512 es }) s1
  let s3 := put 5 (fun es r => { r with mcTable := tableOf 128 es }) s2
  modImg (fun i => { i with trees := (imgRecords b 6).foldl (fun m r =>
    foldN 8 (fun j (m : Map Byte) => mset m (8 * r.1 + j) (r.2.getD j 0)) m) i.trees }) s3

/-- State of a router link after a change: absent without a link, down where either end is out of service, up where it is new or its
half-domain has come back, else as it was. -/
def linkCode (s : State) (fresh : Bool) (site p : Nat) : BitVec 2 :=
  if !(p != 0 && p != 7 && portPresent s.img.express site p) then 0
  else match neighbour site p with
    | none => 0
    | some d =>
      if !(getRouter s site).inService || !(getRouter s d).inService then 3
      else
        let old := mget (getRouter s site).link p 0
        if old = 0 || fresh then 1 else old

/-- Links of one router that touch a site of a set. -/
def routerLinks (s : State) (fresh : Bool) (touched : Nat → Bool) (site : Nat) (m : Map (BitVec 2)) : Map (BitVec 2) :=
  foldN 7 (fun p (m : Map (BitVec 2)) =>
    match neighbour site p with
    | some d => if touched site || touched d then mset m p (linkCode s fresh site p) else m
    | none => m) m

/-- Links of every router that touch a site of a set. -/
def refreshLinks (fresh : Bool) (touched : Nat → Bool) (s : State) : State :=
  foldN 2048 (fun site st => modRouter site (fun r => { r with link := routerLinks s fresh touched site r.link }) st) s

/-- Ports bound by PORTS, LNK_CTL.EN for each. -/
def bindPorts (b : List Byte) (which : Nat → Bool) (s : State) : State :=
  foldN 16 (fun n st =>
    if which n && (findSect b 9).isSome then
      let e := portEntry b n
      let s1 := modPort n (fun q => { q with
        bindEn := e.1 != 0, bindDev := if e.1 = 2 then 511 else e.2.1, bindPort := if e.1 = 2 then 0 else e.2.2.1, bind := e.1 }) st
      modImg (fun i => { i with portEn := (i.portEn &&& ~~~ (1#16 <<< n)) ||| (if e.2.2.2 then 1#16 <<< n else 0) }) s1
    else st) s

/-- GROUP: peers, multicast ports, trees and children. -/
def applyGroup (b : List Byte) (s : State) : State :=
  match sectBytes b 10 with
  | none => s
  | some g =>
    let words := fun off n => (List.range n).map (fun i => (i, (BitVec.ofNat 64 (leAt g (off + 8 * i) 8) : Word)))
    let peers := words 0 8
    modGrp (fun x => { x with
      peer := peers, gmct := words 64 64, tree := words 576 4,
      ndev := BitVec.ofNat 9 (countBits 512 (fun d => (leAt g 0 64).testBit d)),
      children := (List.range 4).map (fun t => (t, (List.range 16).map (fun c => leAt g (608 + 32 * t + 2 * c) 2))) }) s

/-- ILV: ring, regions, bases and reserves. -/
def applyIlv (b : List Byte) (s : State) : State :=
  let ilv := sectOr b 7
  modImg (fun i => { i with
    ring := (List.range 96).map (fun k => (k, BitVec.ofNat 8 (leAt ilv k 1))),
    ilv := (List.range 32).map (fun r => (r, secIlv ilv r)),
    nbase := (List.range 3072).map (fun j => (j, BitVec.ofNat 32 (leAt ilv (608 + 4 * j) 4))),
    reserve := (List.range 96).map (fun k => (k, BitVec.ofNat 8 (secReserve ilv k))) }) s

/-- OPTIONS override the option block until the next device reset (21 R528). -/
def applyOptions (b : List Byte) (s : State) : State :=
  match sectBytes b 12 with
  | none => s
  | some o =>
    let s1 := { s with rst := { s.rst with opt := foldN 64 (fun i (m : Map Byte) =>
      if (leAt o 0 8).testBit i then mset m i (o.getD (8 + i) 0) else m) s.rst.opt } }
    { s1 with pwr := { s1.pwr with
        plim := BitVec.ofNat 16 (optPlim s1), slew := BitVec.ofNat 16 (optSlew s1), throt := BitVec.ofNat 8 (optThrot s1) } }

/-- A retirement of an image that is in force before HBM is used (11 R287 step 6). -/
def applyRetire (e : Word) (s : State) : State :=
  let k := fld e 63 57
  let p := fld e 56 54
  if bit e 53 then
    (match freeReserve (getNode s k) with
     | some r => modNode k (fun n => { n with pc := mset (mset n.pc p 3) r 4, reserveFor := some p }) s
     | none => s)
  else modNode k (fun n => { n with
    sparesUsed := mset n.sparesUsed p (min 1024 (mget n.sparesUsed p 0 + 1)), redirected := n.redirected ++ [(p, fld e 21 0)] }) s

/-! ### A start's measurements and tests (11 R287, 22 R553 to R556) -/

/-- Result of a slice at start under the repair policy: 1 SOFT, 2 FUSED, 3 DISABLED. -/
def startResult (s : State) (r : Option Repair) : Nat :=
  let pol := optKiln s
  let fuse := pol = 1 && (s.sec.state = 1 || s.sec.state = 3) && decide (s.kln.fuses.length < 4096)
  match r with
  | none => 3
  | some _ => if pol = 2 then 3 else if fuse then 2 else 1

def klnLog (slice result phase detail : Nat) (s : State) : State :=
  { s with kln := if s.kln.log.length < 512 then
      { s.kln with log := s.kln.log ++ [(slice, result, phase, detail, aocSince s)] }
    else { s.kln with lost := satInc s.kln.lost } }

/-- DETAIL of a repair (22 Table 22.3). -/
def repairDetail : Repair → Nat
  | .column c => 0x100 + c.toNat
  | .spare d => d.toNat

/-- A repair takes its spare: the spare column of a core shows in CORE_MXRES (22 R556), and a row of a pseudo-channel takes a spare
row (22 Table 22.1, 11 R296). -/
def takeSpare (slice : Nat) (r : Repair) (s : State) : State :=
  let i := slice % 4096
  match slice / 4096, r with
  | 1, .column c => modCore i (fun k => { k with mx := { k.mx with spare := true, scol := c } }) s
  | 5, .spare d => modNode (i / 8) (fun n => { n with
      sparesUsed := mset n.sparesUsed (i % 8) (min 1024 (mget n.sparesUsed (i % 8) 0 + 1)),
      redirected := n.redirected ++ [(i % 8, fld (d.setWidth 64) 21 0)] }) s
  | _, _ => s

/-- The matrix unit of a core that kiln has tested: counts of zero, and the spare column as the repairs in force assign it (07 R210, 22 R554,
R558). -/
def testedMatrix (s : State) (slice : Nat) : Matrix :=
  (s.kln.fuses ++ s.kln.soft).foldl (fun m e => match e.2 with
    | .column c => if e.1 = slice then { m with spare := true, scol := c } else m
    | .spare _ => m) Matrix.reset

/-- The spares of a repair are taken and the repair is kept: in the fuses, or until the next device reset. -/
def keepRepair (fused : Bool) (slice : Nat) (r : Repair) (s : State) : State :=
  let s1 := takeSpare slice r s
  { s1 with kln := if fused then { s1.kln with fuses := s1.kln.fuses ++ [(slice, r)] }
                   else { s1.kln with soft := s1.kln.soft ++ [(slice, r)] } }

/-- One failing slice at start; `exceeded` tells whether it was over its budget. -/
def startSlice (slice : Nat) (r : Option Repair) (exceeded : Bool) (s : State) : State :=
  let res := startResult s r
  match (if res = 3 then none else r) with
  | none =>
    let s1 := klnLog slice 3 (if exceeded then 2 else 0) 0 s
    { s1 with kln := { s1.kln with off := slice :: s1.kln.off, disabled := satInc s1.kln.disabled } }
  | some x => keepRepair (res == 2) slice x (klnLog slice res (if exceeded then 2 else 0) (repairDetail x) s)

/-- A stack goes out of service at start (11 R287): its nodes and their units are absent, and the record is posted. -/
def stackOut (i reason : Nat) (s : State) : State :=
  if (getNode s (4 * i)).inService then
    postRecord 4 .node 0x26 (nodeSite (4 * i)) i 0 reason
      (foldN 4 (fun j x => modNode (4 * i + j) (fun n => { n with
        inService := false, gruFused := false, reason := BitVec.ofNat 8 reason, pc := [] }) x) s)
  else s

/-- A pseudo-channel that fails at start goes into its node's reserve, if it has one that is free; otherwise its stack is out of service
(11 R287 step 5). -/
def failedAtStart (inst : Nat) (s : State) : State :=
  let k := inst / 8
  let p := inst % 8
  if (match freeReserve (getNode s k) with | some r => r != p && mget (getNode s k).pc p 7 == 0 | none => false) then
    applyRetire (mk 63 57 k ||| mk 56 54 p ||| bitAt 53 true) s
  else stackOut (k / 4) 5 s

/-- Stacks that the start took out of service: their nodes are absent until the next one (11 R287). -/
def stacksOut (s : State) : List Nat := (List.range 24).filter (fun i => (getNode s (4 * i)).reason != 0)

/-- Nodes at start: stacks measured, pseudo-channels mapped, reserves set aside, tested and retired (11 R287). -/
def startNodes (b : List Byte) (s : State) : State :=
  let s1 := foldN 96 (fun k st =>
    if partLacksStack st.top.part (k / 4) || st.rst.forceHbm then
      modNode k (fun n => { n with reason := if partLacksStack st.top.part (k / 4) then 6 else 1 }) st
    else modNode k (fun n => { n with
      inService := true, height := 15, dens := 40, gruFused := !sliceOff s 6 k,
      pc := (List.range 8).map (fun p => (p, if secReserve (sectOr b 7) k = p then 1 else 0)),
      temp := (match s.rst.meas.temps.find? (fun e => e.1.val == k / 4) with | some e => e.2 | none => n.temp) }) st) s
  let s2 := s.rst.meas.heights.foldl (fun st e => stackOut e.1.val e.2.toNat st) s1
  let s3 := (s.kln.off.reverse.filter (fun x => x / 4096 == 5)).foldl (fun st x => failedAtStart (x % 4096) st) s2
  (retireEntries b).foldl (fun st e => applyRetire e st) s3

/-- Routers and synchronisation units at start. -/
def startRouters (s : State) : State :=
  let s1 := foldN 2048 (fun x st => modRouter x (fun r => { r with inService := !sliceOff s 3 x }) st) s
  foldN 128 (fun c st => modUnit c (fun u => { u with inService := !sliceOff s 4 c }) st) s1

/-- The ports that a part has and that kiln has not disabled. -/
def startPorts (s : State) : State :=
  foldN 16 (fun n st => modPort n (fun q => { q with present := !partLacksPort s.top.part n && !sliceOff s 7 n && !s.rst.forceSds }) st) s

/-- Cores that take part: enabled by the image, not disabled. -/
def coreEnabled (s : State) (site : Nat) : Bool := isCoreSite site && s.img.enable.getLsbD site && !sliceOff s 1 site
def ccEnabled (s : State) (c : Nat) : Bool := !partLacksCc s.top.part c && !sliceOff s 2 c

/-! ### The topology block (10 R279 to R283, 00 R3) -/

/-- Code of a site (10 R280). -/
def siteCode (s : State) (site : Nat) : Nat :=
  if !(getRouter s site).inService then 3
  else match attachOf site with
    | .core => if (getCore s site).power = .fenced then 2 else if (getCore s site).power = .absent then 0 else 1
    | .cc c => if !ccEnabled s c then 0 else if (getCore s site).power = .fenced then 2 else if (getCore s site).power = .absent then 0 else 1
    | .node k => if (getNode s k).fenced then 2 else if nodeServed s k then 1 else 0
    | .port n => if (getPort s n).fenced then 2 else if (getPort s n).present then 1 else 0
    | .island => 1

/-- Mask of the numbers below n that satisfy f. -/
def maskBelow (w n : Nat) (f : Nat → Bool) : BitVec w := foldN n (fun i (m : BitVec w) => if f i then m ||| (1#w <<< i) else m) 0

/-- The maps of units in service. -/
def fillMaps (s : State) : State :=
  mapUpdate (fun t => { t with
    stackMap := maskBelow 24 24 (stackLive s),
    ccMap := maskBelow 16 16 (fun c => ccEnabled s c && (getCore s (ccSite c)).power != .fenced && (getCore s (ccSite c)).power != .absent),
    portMap := maskBelow 16 16 (fun n => (getPort s n).present && !(getPort s n).fenced && halfOn s (portSite n)),
    gruMap := maskBelow 96 96 (fun k => nodeServed s k && (getNode s k).gruFused && !(getNode s k).gruFenced),
    siteMap := (List.range 2048).map (fun x => (x, BitVec.ofNat 2 (siteCode s x))) }) s

/-- Logical cores and the counts of the feature register, fixed until the next start (01 R18, 00 R3). -/
def fillCounts (s : State) : State :=
  let sites := (List.range 2048).filter (coreEnabled s)
  modTop (fun t => { t with
    cores := BitVec.ofNat 11 sites.length,
    l2s := (List.range sites.length).zip (sites.map (BitVec.ofNat 16)),
    s2l := sites.zip ((List.range sites.length).map (BitVec.ofNat 16)),
    hbm := BitVec.ofNat 5 (countBits 24 (stackLive s)),
    ports := BitVec.ofNat 5 (countBits 16 (fun n => (getPort s n).present)),
    ctrlc := BitVec.ofNat 5 (countBits 16 (ccEnabled s)),
    gru := BitVec.ofNat 7 (countBits 96 (fun k => (getNode s k).inService && (getNode s k).gruFused)) }) s

/-! ### A full image takes force (18 R470) -/

/-- Every present port trains its control lane (18 R471). -/
def trainControl (s : State) : State := foldN 16 (fun n st => if portThere st n then modPort n toDetect st else st) s

/-- AWAITING, with the code of the image that was refused. The start budget stands still (21 R535). -/
def enterAwaiting (last sect : Nat) (s : State) : State :=
  let s1 := modImg (fun i => { i with
    state := .awaiting, last := BitVec.ofNat 8 last, sect := BitVec.ofNat 8 sect, staging := [], stagedLen := 0, held := [],
    run := false, present := false, owner := false }) s
  trainControl { s1 with rst := { s1.rst with
    budgetUsed := s1.rst.budgetUsed + (match s1.rst.budgetSince with | some t => s1.aoc - t | none => 0), budgetSince := none } }

/-- The firmware's MACH and RT sections are copied to their load addresses, and the cores are released (20 R512 step 6, 21 R532). -/
def releaseCores (s : State) : State :=
  let fw := fun off n => Memory.readN s.rst.fw off n
  let copy := fun (h : Nat) (st : State) =>
    devWrite (leNat (fw (h + 8) 8)) (fw (leNat (fw h 4)) (leNat (fw (h + 4) 4))) st
  let s1 := copy 40 (copy 24 s)
  let entry := s1.rst.entry
  let on := fun (x : Nat) (st : State) =>
    let c := getCore st x
    setCore st x { Core.reset .on entry with mx := { Matrix.reset with spare := c.mx.spare, scol := c.mx.scol } }
  let s2 := foldN 2048 (fun x st => if coreEnabled st x then on x st else st) s1
  foldN 16 (fun c st => if ccEnabled st c then on (ccSite c) st else st) s2

/-- Steps 3 to 5 of R470 for an image that has passed its checks: tables, enables, links, map, bindings and overrides; measurement and
kiln; MEMORY and SYNC again; the topology block and the ports; and the release of the cores. -/
def applyFull (b : List Byte) (s : State) : State :=
  let s1 := applyOptions b (applyIlv b (applyGroup b (bindPorts b (fun _ => true) (applyTables b s))))
  let s2 := modImg (fun i => { i with
    enable := imgEnable s b, express := imgExpress s b, bondE := imgBondE s b, bondS := imgBondS s b, desig := imgDesig s b,
    serial := BitVec.ofNat 64 (leAt b 24 8), meas := Config.sm3 (b.take (imgTot b)), present := true }) s1
  let s3 := modTop (fun t => { t with role := BitVec.ofNat 2 (imgRole b), devid := BitVec.ofNat 9 (imgDev b) })
    (modGrp (fun g => { g with gid := BitVec.ofNat 32 (leAt b 16 4) }) s2)
  let s4 := s.rst.meas.slices.foldl (fun st e => startSlice e.1.toNat e.2.1 e.2.2 st)
    (s.kln.fuses.foldl (fun st e => takeSpare e.1 e.2 st) s3)
  let s5 := startPorts (startNodes b (startRouters s4))
  let out := stacksOut s5
  match badMemory s5 out b with
  | some ty => enterAwaiting 0xB ((sectIndex b ty).getD 0xFF) { s with kln := s5.kln, mgt := s5.mgt }
  | none =>
    if badSync s5 b || !(getUnit s5 (imgDesig s b)).inService then
      enterAwaiting 0xD ((sectIndex b 11).getD 0xFF) { s with kln := s5.kln, mgt := s5.mgt }
    else
      let s6 := refreshLinks true (fun _ => true) { s5 with hbm := [], hbmBad := [] }
      let s7 := foldN 16 (fun n st =>
        let off := modPort n (fun q => { q with state := .off }) st
        if st.img.portEn.getLsbD n && (getPort st n).bindEn then portEnable n true off else off) s6
      let s8 := fillMaps (releaseCores (fillCounts s7))
      let s9 := modImg (fun i => { i with
        state := .idle, last := 0, sect := 0xFF, staging := [], stagedLen := 0, held := [], owner := false }) s8
      { s9 with
        kln := { s9.kln with state := 0 },
        rst := { s9.rst with budgetSince := match s9.rst.budgetSince with
                                             | some t => some t
                                             | none => if s9.rst.bootdone then none else some s9.aoc } }

/-! ### Loader commands (18 R468, R469) -/

/-- The loader is free: no load is owned. -/
def loaderFree (s : State) : Bool := s.img.state == .idle || s.img.state == .awaiting

def setLast (n : Nat) (s : State) : State := modImg (fun i => { i with last := BitVec.ofNat 8 n }) s

/-- IMG_STAT.STATE code. -/
def imgCode : ImgState → Nat
  | .idle => 0 | .awaiting => 1 | .loading => 2 | .staged => 3 | .draining => 4 | .drained => 5 | .applying => 6 | .applied => 7
  | .undraining => 8

/-- An image packet for device 0. Before an image runs there are no routes: it leaves by the lowest port whose control link is up
(18 R471, assumption log 85). -/
def sendManager (opc : Nat) (payload : List Byte) (s : State) : State :=
  let p := { mkPacket s 5 .machine 23 23 0 (.imgPacket opc payload) with ddev := 0 }
  if s.img.present then inject p s
  else match firstBit 16 (fun n => portCtrlUp (getPort s n)) with
    | some n => pumpPort n (modPort n (fun q => { q with queue := q.queue ++ [⟨{ p with id := s.nextPkt }, 0⟩] }) { s with nextPkt := s.nextPkt + 1 })
    | none => s

/-- IMGRPT to device 0 at the end of a command that it owns (18 R472). -/
def reportCmd (cmd last : Nat) (s : State) : State :=
  let payload := [BitVec.ofNat 8 cmd, BitVec.ofNat 8 last, BitVec.ofNat 8 (imgCode s.img.state)] ++ leBytes 5 0 ++
    leBytes 8 (leNat (Memory.readN s.img.staging 24 8))
  sendManager 0x73 payload s

/-- Report where device 0 issued the command. -/
def endCmd (cmd : Nat) (mgr : Bool) (s : State) : State := if mgr then reportCmd cmd s.img.last.toNat s else s

/-- The staged image's bytes. -/
def stagedImage (s : State) : List Byte := Memory.readN s.img.staging 0 s.img.stagedLen

/-- Copy of an image from IMG_SRC (18 R468): its header, then TOTLEN bytes; none on a read error. An uncorrectable sector that the copy
meets is counted (11 R293). -/
def copyImage (s : State) : Option (List Byte) × State :=
  match devRead s s.img.src 128 with
  | none => (none, devReadNotes s.img.src 128 s)
  | some h =>
    if imgTot h < 128 || 2 ^ 24 < imgTot h then (some h, s)
    else (devRead s s.img.src (imgTot h), devReadNotes s.img.src (imgTot h) s)

/-- LOAD, of the bytes already staged or of those at IMG_SRC. -/
def loadImage (mgr staged : Bool) (s : State) : State :=
  if s.img.state ≠ .idle && s.img.state ≠ .awaiting then setLast 0x20 s
  else
    let was := s.img.state
    let got := if staged then (some (stagedImage s), s) else copyImage s
    match got.1 with
    | none => setLast 0x21 got.2
    | some b =>
      let s1 := modImg (fun i => { i with
        staging := Memory.writeN [] 0 b, stagedLen := b.length, owner := mgr, sect := 0xFF }) got.2
      match imageCheck s1 mgr (if s.img.present then stacksOut s else []) b.length b with
      | some (code, sec) => modImg (fun i => { i with
          state := was, last := BitVec.ofNat 8 code, sect := BitVec.ofNat 8 sec, owner := false }) s1
      | none => if imgPartial b then modImg (fun i => { i with state := .staged, last := 0 }) s1 else applyFull b s1

/-- Units that a region drains (18 Table 18.7), of those in service. -/
def regionUnits (s : State) (b : List Byte) : List Drained :=
  let gates := ((regionSites b).filter (fun x => (getRouter s x).inService)).map Drained.gate
  let nodes := (List.range 96).filter (fun k => gruThere s k && inRegion b (nodeSite k))
  let ports := (List.range 16).filter (fun n => portThere s n && inRegion b (portSite n))
  let r := imgRegion b
  if r = 1 then gates
  else if r = 2 then gates ++ nodes.map .gru ++ ports.map .port
  else if r = 3 then ports.map .port
  else gates ++ nodes.map .gru

/-- EN of a unit as the loader writes it. -/
def loaderEnable (en : Bool) (d : Drained) (s : State) : State :=
  match d with
  | .gate x => gateEnable x en s
  | .gru k => gruEnable k en s
  | .port n => if en then portEnable n (s.img.portEn.getLsbD n) s else portEnable n false s

/-- A unit reads OFF, or counts as drained (18 R474). -/
def unitDrained (s : State) : Drained → Bool
  | .gate x => (getRouter s x).gate.gate == .off || !(getRouter s x).inService
  | .gru k => (getNode s k).gru.gate == .off || !gruThere s k
  | .port n => (getPort s n).ctl.gate == .off || !portThere s n

/-- DRAIN. -/
def drainImage (run : Bool) (s : State) : State :=
  if s.img.state ≠ .staged then setLast 0x20 s
  else
    let us := regionUnits s (stagedImage s)
    us.foldl (fun st d => loaderEnable false d st)
      (modImg (fun i => { i with state := .draining, held := us, drainSince := s.aoc, run := run, last := 0 }) s)

/-- A drained unit that remains in service (18 R476). -/
def unitRemains (s : State) : Drained → Bool
  | .gate x => (getRouter s x).inService
  | .gru k => gruThere s k
  | .port n => portThere s n

/-- The loader lets go of its units: each that remains in service is enabled again. -/
def releaseUnits (s : State) : State :=
  (s.img.held.filter (unitRemains s)).foldl (fun st d => loaderEnable true d st) (modImg (fun i => { i with held := [] }) s)

/-- The staged image is discarded and the loader is IDLE. -/
def discardImage (last : Nat) (s : State) : State :=
  modImg (fun i => { i with
    state := .idle, last := BitVec.ofNat 8 last, staging := [], stagedLen := 0, run := false, owner := false }) s

/-- A core site after an image's enables: it leaves service, enters it, or stays (18 Table 18.7). -/
def applyCore (b : List Byte) (was : BitVec 2048) (site : Nat) (s : State) : State :=
  if !isCoreSite site || !inRegion b site || sliceOff s 1 site then s
  else
    let now := s.img.enable.getLsbD site && !(imgRegion b == 2 && powersOff b)
    match was.getLsbD site && (getCore s site).power != .absent, now with
    | true, false => if (getCore s site).power = .fenced then s
                     else sendResetNotices site (noticeSource s site) (setCore s site (coreAfter (getCore s site) .absent 0 none))
    | false, true => if (getCore s site).power = .fenced then s else coreReset site s
    | _, _ => s

/-- The management view holds a unit fenced. -/
def viewHolds (s : State) (kind inst : Nat) : Bool := s.mgt.fenced.contains (kind, inst)

/-- A half-domain's routers leave service with its rail, and those neither fenced nor disabled at start come back with it (12 R333). -/
def powerRouters (h : Nat) (on : Bool) (s : State) : State :=
  foldN 2048 (fun x st =>
    let r := getRouter st x
    if halfOf x = h && !r.inService == on && !(on && (sliceOff s 3 x || viewHolds s 2 x)) then
      modRouter x (fun _ => { Router.reset with
        inService := on, siteTable := r.siteTable, devTable := r.devTable, mcTable := r.mcTable }) st
    else st) s

/-- Its synchronisation units: one that comes back starts anew under the next EPOCH, but for what it knows to be lost (15 R402, R590). -/
def powerUnits (h : Nat) (on : Bool) (s : State) : State :=
  foldN 128 (fun c st =>
    if halfOf (anchorOf c) ≠ h || sliceOff s 4 c || viewHolds s 6 c then st
    else modUnit c (fun u =>
      if on then { SyncUnit.reset with epoch := u.epoch + 1, desigLost := u.desigLost, groupLost := u.groupLost }
      else { u with inService := false }) (if on then st else abandonWatches c st)) s

/-- Its control cores, gather-reduce units and ports; those fused off, disabled at start or fenced stay as they are (00 R6). -/
def powerUnitsOfSites (h : Nat) (on : Bool) (s : State) : State :=
  let s1 := foldN 16 (fun c st =>
    let site := ccSite c
    if halfOf site ≠ h || !ccEnabled s c || (getCore st site).power = .fenced then st
    else if on then coreReset site st
    else sendResetNotices site (noticeSource st site) (setCore st site (coreAfter (getCore st site) .absent 0 none))) s
  let s2 := foldN 96 (fun k st => if halfOf (nodeSite k) = h && !on then modNode k (fun n => { n with gru := Enable.off }) (gruAbandon k st) else st) s1
  foldN 16 (fun n st => if halfOf (portSite n) = h && !on && (getPort st n).present then
      modPort n (fun q => { q with state := .off, ctl := Enable.off }) (loseCtrl n (loseLink n st))
    else st) s2

/-- The collective engines go with half-domain H0 (01 R23). -/
def powerEngines (on : Bool) (s : State) : State :=
  foldN 4 (fun t st => if on then modEngine t (fun e => { Engine.reset with fenced := e.fenced, isolated := e.isolated }) st
                       else collStop t 2 st) s

/-- A half-domain is powered on, its rail at 0.70 V, or off (01 R16, R30; 12 R333, 15 R402, 21 R529, R541). -/
def applyPower (h : Nat) (on : Bool) (s : State) : State :=
  let mv : BitVec 16 := if on then 700 else 0
  let s1 := modRail h (fun r => { r with off := !on, vset := mv, vmeas := mv, limited := false, duty := 128 })
    { s with pwr := { s.pwr with low := s.pwr.low.filter (· != h + 8), thr := s.pwr.thr &&& ~~~ (1#8 <<< h) } }
  let s2 := if on then s1 else modPace h (fun p => { p with rate := 0 }) s1
  let s3 := powerUnitsOfSites h on (powerUnits h on (powerRouters h on s2))
  if h = 0 then powerEngines on s3 else s3

/-- RETIRE entries in service act as retirements (18 R475, 11 R296, R297). -/
def retireNow (e : Word) (s : State) : State :=
  if bit e 53 then startMigration (fld e 63 57) (fld e 56 54) s else retirePage (fld e 63 57) (fld e 56 54) (fld e 21 0) s

/-- The changes of APPLY (18 R475, Table 18.7). -/
def applyRegion (b : List Byte) (s : State) : State :=
  let r := imgRegion b
  let s1 := if powersOn b then applyPower (imgUnit b) true s else s
  let s2 := applyTables b s1
  let was := s2.img.enable
  let s3 := if r = 1 || r = 2 then
      let s4 := modImg (fun i => { i with
        enable := imgEnable s b, express := imgExpress s b, bondE := imgBondE s b, bondS := imgBondS s b }) s2
      (List.range 2048).foldl (fun st x => applyCore b was x st) s4
    else if r = 3 then applyGroup b (bindPorts b (fun n => n == imgUnit b) s2)
    else
      let s4 := if (findSect b 15).isSome then
          modNode (imgUnit b) (fun n => { n with inService := leAt (sectOr b 15) 0 1 == 0 && n.reason == 0 }) s2
        else s2
      (retireEntries b).foldl (fun st e => retireNow e st) s4
  let s5 := if r = 2 && powersOff b then applyPower (imgUnit b) false s3 else s3
  if r = 1 || r = 2 then refreshLinks (powersOn b) (inRegion b) s5 else s5

/-- APPLY. -/
def applyImage (s : State) : State :=
  if s.img.state ≠ .drained then setLast 0x20 s
  else modImg (fun i => { i with state := .applied, last := 0 }) (applyRegion (stagedImage s) s)

/-- UNDRAIN (18 R476, R466). -/
def undrainImage (s : State) : State :=
  if s.img.state ≠ .applied then setLast 0x20 s
  else
    let b := stagedImage s
    let s1 := releaseUnits s
    discardImage 0 (fillMaps (modImg (fun i => { i with
      serial := BitVec.ofNat 64 (leAt b 24 8),
      meas := Config.sm3 (bytesOf i.meas 32 ++ bytesOf (Config.sm3 (b.take (imgTot b))) 32) }) s1))

/-- Every drained unit reads OFF: DRAINED, and the rest of RUN. -/
def drainComplete (s : State) : State :=
  if s.img.state = .draining && s.img.held.all (unitDrained s) then
    let mgr := s.img.owner
    let s1 := modImg (fun i => { i with state := .drained }) s
    if s.img.run then endCmd 5 mgr (undrainImage (applyImage s1)) else endCmd 2 mgr s1
  else s

def execImgDrainComplete (s : State) : Host.Outcome State Fault Refusal := .next (drainComplete s)

/-- IMG_DRAINLIM expires. -/
def imgDrainTimeout (s : State) : State :=
  if s.img.state = .draining && s.img.drainSince + 1024 * s.img.lim.toNat ≤ s.aoc then
    let mgr := s.img.owner
    endCmd (if s.img.run then 5 else 2) mgr (discardImage 0x22 (releaseUnits s))
  else s

def execImgDrainTimeout (s : State) : Host.Outcome State Fault Refusal := .next (imgDrainTimeout s)

/-- ABORT. -/
def abortImage (s : State) : State :=
  match s.img.state with
  | .staged | .draining | .drained => discardImage 0x24 (releaseUnits s)
  | _ => setLast 0x20 s

/-- The management controller runs the loader: not before the start has reached it, nor in minimal recovery mode (20 R512, 21 R536). -/
def loaderRuns (s : State) : Bool := s.rst.phase == .running && !s.rst.recovery

/-- A command of Table 18.5 from a local source or from device 0 (18 R469); `staged`: a LOAD takes the bytes already staged, as the
manager's does, and as that of I3C does, which has staged them (23 R564). -/
def loaderCommandBy (cmd : Nat) (mgr staged : Bool) (s : State) : State :=
  if cmd = 0 || 6 < cmd || !loaderRuns s then s
  else if !loaderFree s && s.img.owner ≠ mgr then setLast 0x23 s
  else match cmd with
    | 1 => endCmd 1 mgr (loadImage mgr staged s)
    | 2 => if s.img.state = .staged then drainImage false s else endCmd 2 mgr (setLast 0x20 s)
    | 3 => endCmd 3 mgr (applyImage s)
    | 4 => endCmd 4 mgr (undrainImage s)
    | 5 => if s.img.state = .staged then drainImage true s else endCmd 5 mgr (setLast 0x20 s)
    | _ => endCmd 6 mgr (abortImage s)

def loaderCommand (cmd : Nat) (mgr : Bool) (s : State) : State := loaderCommandBy cmd mgr mgr s

def execImgLoad (s : State) : Host.Outcome State Fault Refusal := .next (loaderCommand 1 false s)
def execImgDrain (s : State) : Host.Outcome State Fault Refusal := .next (loaderCommand 2 false s)
def execImgApply (s : State) : Host.Outcome State Fault Refusal := .next (loaderCommand 3 false s)
def execImgUndrain (s : State) : Host.Outcome State Fault Refusal := .next (loaderCommand 4 false s)
def execImgRun (s : State) : Host.Outcome State Fault Refusal := .next (loaderCommand 5 false s)
def execImgAbort (s : State) : Host.Outcome State Fault Refusal := .next (loaderCommand 6 false s)

/-- The MGMT packet of an image command is taken from the mesh. -/
def dropImgPacket (opc : Nat) (s : State) : State :=
  match s.packets.find? (fun p => p.delivered && (match p.body with | .imgPacket o _ => o == opc | _ => false)) with
  | some p => dropPacket p.id s
  | none => s

/-- Bytes are staged at an offset (18 R472). -/
def stageBytes (off : Nat) (data : List Byte) (s : State) : State :=
  modImg (fun i => { i with staging := Memory.writeN i.staging off data, stagedLen := max i.stagedLen (off + data.length) }) s

/-- IMGDATA from device 0: written in IDLE and AWAITING, and acknowledged. -/
def imgDataArrives (sdev off : Nat) (data : List Byte) (s : State) : State :=
  let s0 := dropImgPacket 0x70 s
  if sdev ≠ 0 then s0
  else
    let ok := loaderRuns s && loaderFree s && off % 256 = 0 && data.length ≤ 256 && off + data.length ≤ 2 ^ 24
    let s1 := if ok then stageBytes off data s0 else s0
    sendManager 0x71 (BitVec.ofNat 8 (if ok then 0 else 0x20) :: leBytes 15 0) s1

def execImgdata (sdev : BitVec 9) (off : BitVec 48) (data : List Byte) (s : State) : Host.Outcome State Fault Refusal :=
  .next (imgDataArrives sdev.toNat off.toNat data s)

/-- IMGCMD from device 0: one that names another image changes nothing and is answered with ORDER. -/
def imgCmdArrives (sdev cmd : Nat) (serial : Word) (s : State) : State :=
  let s0 := dropImgPacket 0x72 s
  if sdev ≠ 0 then s0
  else if serial.toNat ≠ leNat (Memory.readN s.img.staging 24 8) then reportCmd cmd 0x20 s0
  else loaderCommand cmd true s0

def execImgcmd (sdev : BitVec 9) (cmd : BitVec 8) (serial : BitVec 64) (s : State) : Host.Outcome State Fault Refusal :=
  .next (imgCmdArrives sdev.toNat cmd.toNat serial s)

/-- Device 0 receives a worker's report, or its acknowledgement of staged bytes. -/
def imgReport (dev : Nat) (cmd last st : BitVec 8) (serial : Word) (s : State) : State :=
  let s1 := dropImgPacket 0x73 s
  if ownDev s = 0 then modImg (fun i => { i with reports := (dev, cmd, last, st, serial) :: i.reports }) s1 else s1

def execImgrptArrival (dev : BitVec 9) (cmd last : BitVec 8) (state : BitVec 8) (serial : BitVec 64) (s : State) :
    Host.Outcome State Fault Refusal := .next (imgReport dev.toNat cmd last state serial s)

def imgAck (dev : Nat) (status : BitVec 8) (s : State) : State :=
  let s1 := dropImgPacket 0x71 s
  if ownDev s = 0 then modImg (fun i => { i with acks := (dev, status) :: i.acks }) s1 else s1

def execImgackArrival (dev : BitVec 9) (status : BitVec 8) (s : State) : Host.Outcome State Fault Refusal :=
  .next (imgAck dev.toNat status s)

end Sys2Proof.Machine
end

