-- ==== Sys2Proof/Machine/Faults.lean ====
section
/-! DEFINITION. Faults and recovery (19): error records and their queue, fences, the health view, and the restart of the management
controller. -/

namespace Sys2Proof.Machine

open Sys2Proof

def modMgt (f : Mgt → Mgt) (s : State) : State := { s with mgt := f s.mgt }

/-! ### Fences (19 R492, R493, Table 19.10) -/

/-- Map entries as the controller writes them within an update. -/
def mapEdit (f : Top → Top) (s : State) : State := { s with top := f s.top }

def viewFence (kind inst : Nat) (s : State) : State := modMgt (fun m => { m with fenced := (kind, inst) :: m.fenced }) s

/-- A gather-reduce unit: its requests end ABSENT and its map bit is cleared. -/
def fenceGruNow (k : Nat) (s : State) : State :=
  let n := getNode s k
  if n.gruFenced || !n.gruFused || !n.inService then s
  else
    let s1 := modNode k (fun x => { x with gruFenced := true, gru := Enable.off }) (gruAbandon k s)
    let s2 := mapEdit (fun t => { t with gruMap := t.gruMap &&& ~~~ (1#96 <<< k) }) (viewFence 4 k s1)
    postRecord 4 .gru 0x50 (nodeSite k) k 0 0 s2

/-- A memory attach node, with its gather-reduce unit. -/
def fenceNodeNow (k : Nat) (s : State) : State :=
  if (getNode s k).fenced || !(getNode s k).inService then s
  else
    let s1 := modNode k (fun n => { n with fenced := true }) (fenceGruNow k s)
    let s2 := if stackLive s1 (k / 4) then s1 else mapEdit (fun t => { t with stackMap := t.stackMap &&& ~~~ (1#24 <<< (k / 4)) }) s1
    viewFence 3 k (setSiteState (nodeSite k) (if siteState s (nodeSite k) = 3 then 3 else 2) s2)

/-- A Gofin port: both links OFF and dark, handled as a loss. -/
def fencePortNow (n : Nat) (s : State) : State :=
  if !(getPort s n).present || (getPort s n).fenced then s
  else
    let s1 := modPort n (fun q => { toDetect q with
      fenced := true, state := .off, ctl := Enable.off }) (loseCtrl n (loseLink n s))
    viewFence 5 n (mapEdit (fun t => { t with
      portMap := t.portMap &&& ~~~ (1#16 <<< n), siteMap := mset t.siteMap (portSite n) (if siteState s (portSite n) = 3 then 3 else 2) }) s1)

/-- A synchronisation unit: what it held is lost, what was on its way to it counts as accepted, and the unit-lost notice goes out
(19 Table 19.10, 15 R590). -/
def fenceSyncNow (c : Nat) (s : State) : State :=
  if !(getUnit s c).inService then s
  else
    let s0 := (getUnit s c).watches.foldl (fun st e => freeWatch c e.1 st) s
    let s1 := modUnit c (fun u => { u with inService := false, locks := [], bars := [] }) s0
    let lost := fun (p : Packet) => p.cls == 0 && p.mc.isNone && p.ddev == ownDev s && p.dsite == anchorOf c &&
      (match p.body with
       | .lockReq _ _ _ | .unlock _ _ _ | .arrive _ _ _ _ _ | .watchReg _ _ _ _ | .unwatch _ _ | .combined _ _ _ | .wordMatch _ _ => true
       | _ => false)
    let s2 := (s1.packets.filter lost).foldl (fun st p => match syncParty p with
      | some (x, t) => modThr x t (fun h => { h with comm := { h.comm with lostSync := c :: h.comm.lostSync } }) st
      | none => st) { s1 with packets := s1.packets.filter (fun p => !lost p) }
    let s3 := multicast 23 allClusters (.unitLost c) s2
    let s4 := if c = s.img.desig && s.top.role = 1 then
        deviceMulticast 23 (peerMask s &&& ~~~ (1#512 <<< ownDev s)) (.unitLost c) s3
      else s3
    postRecord 4 .sync 0x52 (anchorOf c) c 0 0 (viewFence 6 c s4)

/-- A collective engine: its collective ends ABSENT. -/
def fenceEngineNow (t : Nat) (s : State) : State :=
  if (getEngine s t).fenced then s
  else viewFence 7 t (modEngine t (fun e => { e with fenced := true }) (collStop t 2 s))

/-- A router: its attachment is fenced, its neighbours mark their links to it down, and its site reads 0b11. The unit of an anchor
goes with it (12 R311). -/
def fenceRouterNow (site : Nat) (s : State) : State :=
  if !(getRouter s site).inService then s
  else
    let s1 := modRouter site (fun r => { r with inService := false, gate := Enable.off }) s
    let s2 := match attachOf site with
      | .core | .cc _ => fenceCoreBy site 3 s1
      | .node k => fenceNodeNow k s1
      | .port n => fencePortNow n s1
      | .island => (match engineOf site with | some t => fenceEngineNow t s1 | none => s1)
    let s3 := if site = anchorOf (clusterOf site) then fenceSyncNow (clusterOf site) s2 else s2
    let s4 := [1, 2, 3, 4, 5, 6].foldl (fun st p => match neighbour site p with
      | some d => modRouter d (fun r => if mget r.link (oppositePort p) 0 = 0 then r
                                        else { r with link := mset r.link (oppositePort p) 3 }) st
      | none => st) s3
    postRecord 4 .router 0x33 site 0 0 0 (viewFence 2 site (setSiteState site 3 s4))

/-- A slice of kiln has been fenced. -/
def sliceFenced (s : State) (slice : Nat) : Bool :=
  let inst := slice % 4096
  match slice / 4096 with
  | 1 => (getCore s inst).power == .fenced
  | 2 => (getCore s (ccSite inst)).power == .fenced
  | 6 => (getNode s inst).gruFenced
  | 7 => (getPort s inst).fenced
  | 8 => (getEngine s inst).fenced
  | _ => false

/-- The test under way ends, with its log entry (22 R560). -/
def kilnEnd (result phase detail : Nat) (s : State) : State :=
  let s1 := klnLog s.kln.slice.toNat result phase detail s
  { s1 with kln := { s1.kln with state := 0, last := BitVec.ofNat 8 result } }

/-- A fence that reaches the slice under test ends the test with result 5 (22 R558). -/
def kilnAbandon (s : State) : State :=
  if s.kln.state = 2 && sliceFenced s s.kln.slice.toNat then kilnEnd 5 1 0 s else s

/-- A fence by kind and instance of MGT_FENCE (19 Table 19.9); `detail` is the reason recorded for a core. -/
def fenceUnit (kind inst detail : Nat) (s : State) : State :=
  commitMaps s <| kilnAbandon <|
  if kind = 1 then (if hasThreads inst then fenceCoreBy inst detail s else s)
  else if kind = 2 then (if inst < 2048 then fenceRouterNow inst s else s)
  else if kind = 3 then (if inst < 96 then fenceNodeNow inst s else s)
  else if kind = 4 then (if inst < 96 then fenceGruNow inst s else s)
  else if kind = 5 then (if inst < 16 then fencePortNow inst s else s)
  else if kind = 6 then (if inst < 128 then fenceSyncNow inst s else s)
  else if kind = 7 then (if inst < 4 then fenceEngineNow inst s else s)
  else s

/-- The controller's fence waits while it restarts (19 R497). -/
def controllerFence (kind inst detail : Nat) (s : State) : State :=
  if s.mgt.restarting then modMgt (fun m => { m with deferred := m.deferred ++ [.fence kind inst detail] }) s
  else fenceUnit kind inst detail s

def execFenceCore (site : Site) (s : State) : Host.Outcome State Fault Refusal := .next (controllerFence 1 site 2 s)
def execFenceRouter (site : Site) (s : State) : Host.Outcome State Fault Refusal := .next (controllerFence 2 site 2 s)
def execFenceNode (node : Fin 96) (s : State) : Host.Outcome State Fault Refusal := .next (controllerFence 3 node 2 s)
def execFenceGru (node : Fin 96) (s : State) : Host.Outcome State Fault Refusal := .next (controllerFence 4 node 2 s)
def execFencePort (port : Fin 16) (s : State) : Host.Outcome State Fault Refusal := .next (controllerFence 5 port 2 s)
def execFenceSyncUnit (cluster : Fin 128) (s : State) : Host.Outcome State Fault Refusal := .next (controllerFence 6 cluster 2 s)
def execFenceCollEngine (t : Fin 4) (s : State) : Host.Outcome State Fault Refusal := .next (controllerFence 7 t 2 s)

/-! ### The error queue (19 R485 to R491) -/

/-- Records that the queue holds. -/
def queueSize (m : Mgt) : Nat := 2 ^ (m.rlog.toNat + 4)

/-- QERR: the queue lies neither in HBM below the mapped size nor in the local memory of a control core in service. -/
def queueBad (s : State) : Bool :=
  let n := 64 * queueSize s.mgt
  s.mgt.en &&
  !(match regionOf s.mgt.base with
    | .hbm => decide (s.mgt.base + n ≤ mappedSize s)
    | .window site off => isCcSite site && windowServed s site && decide (off + n ≤ lmBytes)
    | _ => false)

/-- The 64 B of a record (19 Table 19.2). -/
def recordBytes (s : State) (r : List Nat) : List Byte :=
  let f := fun i => r.getD i 0
  leBytes 4 s.mgt.prod.toNat ++ [BitVec.ofNat 8 (f 0), BitVec.ofNat 8 (f 1)] ++ leBytes 2 (f 2) ++ leBytes 2 (f 3) ++
  leBytes 2 (ownDev s) ++ leBytes 2 (f 4) ++ leBytes 2 (f 5) ++ leBytes 8 (f 6) ++ leBytes 8 (f 7) ++ leBytes 8 (aocSince s) ++
  leBytes 8 (f 8) ++ leBytes 1 (f 9) ++ leBytes 15 0

/-- A record's bytes are appended, or counted in DROPPED; `true` where they were appended. -/
def appendBytes (bs : List Byte) (s : State) : Bool × State :=
  let m := s.mgt
  if (m.prod - m.cons).toNat = queueSize m || queueBad s then
    (false, modMgt (fun m => { m with qerr := queueBad s, dropped := satInc m.dropped }) s)
  else
    (true, modMgt (fun m => { m with prod := m.prod + 1, qerr := false })
      (devWrite (m.base + 64 * (m.prod.toNat % queueSize m)) (leBytes 4 m.prod.toNat ++ bs.drop 4) s))

/-- ERR in every thread of the core that a record names, at once or once the core leaves reset (19 R489). -/
def errToCore (site : Nat) (s : State) : State :=
  match (getCore s site).power with
  | .reset => modMgt (fun m => { m with errAfterReset := if m.errAfterReset.contains site then m.errAfterReset else site :: m.errAfterReset }) s
  | .on => (if isCcSite site then [0] else threadsOf).foldl (fun st t => setEventBit site t .machine 1 st) s
  | _ => s

/-- ERRFWD to device 0 (19 R490). -/
def forwardRecord (bs : List Byte) (s : State) : State :=
  inject { mkPacket s 5 .machine 23 23 0 (.errRec ((List.range 8).map (fun i => BitVec.ofNat 64 (leAt bs (8 * i) 8)))) with ddev := 0 } s

/-- What follows the append of a record: ERR in the notified thread, and in the core that the record names (19 R489). -/
def afterAppend (kind site : Nat) (s : State) : State :=
  let s1 := notify 1 s
  if (kind = 0 || kind = 1) && hasThreads site then errToCore site s1 else s1

/-- On a worker, a record of a class that MGT_ERRNOTE.FWD names goes to device 0 as well (19 R490). -/
def copyForward (cls : Nat) (bs : List Byte) (s : State) : State :=
  if s.top.role = 2 && s.mgt.fwd.getLsbD cls then forwardRecord bs s else s

/-- Two links of a router marked down within 1,024 counts. -/
def twoLinksDown (s : State) (site : Nat) : Bool :=
  let ts := (s.mgt.linkDowns.filter (fun e => e.1 == site)).map (·.2)
  ts.any (fun a => decide (2 ≤ (ts.filter (fun b => a ≤ b && b ≤ a + 1024)).length))

/-- A core's third lock-up within 25 × 10⁶ counts. -/
def thirdLockup (c : Core) : Bool :=
  match c.lockups with
  | a :: _ :: b :: _ => decide (a ≤ b + 25000000)
  | _ => false

/-- What the controller does about a record it has received (19 R492). -/
def actOnRecord (r : List Nat) (s : State) : State :=
  let code := r.getD 2 0
  let site := r.getD 3 0
  if code = 0x13 && r.getD 7 0 = 0 then viewFenceCore site s
  else if code = 0x32 && twoLinksDown s site then fenceUnit 2 site 3 s
  else if (code = 0x14 || code = 0x15) && hasThreads site && thirdLockup (getCore s site) then fenceUnit 1 site 1 s
  else s

/-- One record from the island's buffer. -/
def takeRecord (r : List Nat) (s : State) : State :=
  let bs := recordBytes s r
  let a := appendBytes bs s
  let s1 := if a.1 then afterAppend (r.getD 1 0) (r.getD 3 0) a.2 else a.2
  actOnRecord r (copyForward (r.getD 0 0) bs s1)

/-- Another record of the same unit was raised before. -/
def earlierOfUnit (rs : List (List Nat)) (n : Nat) : Bool :=
  let r := rs.getD n []
  (rs.take n).any (fun q => q.getD 1 0 == r.getD 1 0 && q.getD 3 0 == r.getD 3 0)

/-- A record reaches the management island. While the queue is not enabled it waits in the island's buffer; during a restart it is put
off (19 R487, R497). -/
def recordArrives (n : Nat) (s : State) : State :=
  match s.mgt.raised[n]? with
  | none => s
  | some r =>
    if earlierOfUnit s.mgt.raised n then s
    else
      let s1 := modMgt (fun m => { m with raised := m.raised.eraseIdx n }) s
      if s.mgt.restarting then modMgt (fun m => { m with deferred := m.deferred ++ [.record (r.map (BitVec.ofNat 64))] }) s1
      else if !s.mgt.en then actOnRecord r s
      else takeRecord r s1

def execErrorRecordArrival (n : Nat) (s : State) : Host.Outcome State Fault Refusal := .next (recordArrives n s)

/-- MGT_ERRQ (19 Table 19.4): a change of EN from 0 to 1 sets PROD to CONS. -/
def errqWrite (v : Word) (s : State) : State :=
  let rlog := min 12 (fld v 55 52)
  let s1 := modMgt (fun m => { m with
    rlog := BitVec.ofNat 4 rlog, base := fld v 47 6 * 64 / 2 ^ (rlog + 10) * 2 ^ (rlog + 10), en := bit v 0,
    prod := if bit v 0 && !m.en then m.cons else m.prod }) s
  modMgt (fun m => { m with qerr := queueBad s1 }) s1

def execMgtErrqEnable (v : BitVec 64) (s : State) : Host.Outcome State Fault Refusal := .next (errqWrite v s)

/-- MGT_ERRCONS: CONS, and CLR clears DROPPED. -/
def errconsWrite (v : Word) (s : State) : State :=
  modMgt (fun m => { m with cons := v.setWidth 32, dropped := if bit v 63 then 0 else m.dropped }) s

def execMgtErrconsClr (v : BitVec 64) (s : State) : Host.Outcome State Fault Refusal := .next (errconsWrite v s)

/-- A worker's record is appended with its DEVID unchanged (19 R490). -/
def takeForwarded (rec_ : BitVec 512) (s : State) : State :=
  let a := appendBytes (bytesOf rec_ 64) s
  if a.1 then notify 1 a.2 else a.2

/-- A worker's record reaches device 0, which appends it. While the queue is not enabled it waits, and during a restart it is put off
(19 R487, R497). -/
def forwardedArrives (rec_ : BitVec 512) (s : State) : State :=
  let bs := bytesOf rec_ 64
  let words : List Word := (List.range 8).map (fun i => BitVec.ofNat 64 (leAt bs (8 * i) 8))
  let s1 := match s.packets.find? (fun p => p.delivered && p.body == .errRec words) with
    | some p => dropPacket p.id s
    | none => s
  if ownDev s = 0 && s.img.present then
    (if s.mgt.restarting then modMgt (fun m => { m with deferred := m.deferred ++ [.forwarded rec_] }) s1
     else if !s.mgt.en then s
     else takeForwarded rec_ s1)
  else s1

def execErrfwdArrival (record : BitVec 512) (s : State) : Host.Outcome State Fault Refusal := .next (forwardedArrives record s)

/-! ### The health view (19 R494 to R496) -/

/-- A router in service with a valid entry toward a site. -/
def routesTo (s : State) (site : Nat) : Option Nat :=
  firstBit 2048 (fun r => r != site && (getRouter s r).inService && entryValid (mget (getRouter s r).siteTable site 0))

/-- A router that the view holds out of service while entries still lead to it: its links are down at the neighbours, and the
disagreement is recorded once. -/
def disagreeRouter (site : Nat) (s : State) : State :=
  match routesTo s site with
  | none => s
  | some r =>
    if s.mgt.fenced.contains (8, site) then s
    else
      let s1 := [1, 2, 3, 4, 5, 6].foldl (fun st p => match neighbour site p with
        | some d => modRouter d (fun x => if mget x.link (oppositePort p) 0 = 0 then x
                                          else { x with link := mset x.link (oppositePort p) 3 }) st
        | none => st) (fenceRouterNow site s)
      commitMaps s (postRecord 1 .island 0x60 0xFFFF site 0 r (viewFence 8 site s1))

/-- A unit whose EN is set although the view holds it out of service. -/
def disagreeEnable (kind inst : Nat) (s : State) : State :=
  let bad := if kind = 4 then (getNode s inst).gruFenced && (getNode s inst).gru.gate != .off
    else if kind = 5 then (getPort s inst).fenced && (getPort s inst).ctl.gate != .off
    else if kind = 1 then (getCore s inst).power = .on
    else false
  if bad then
    let s1 := if kind = 4 then modNode inst (fun n => { n with gru := Enable.off }) s
      else if kind = 5 then modPort inst (fun q => { q with ctl := Enable.off, state := .off }) s
      else fenceCoreSelf inst 2 s
    postRecord 1 .island 0x60 0xFFFF inst 0 0xFFFF s1
  else s

/-- A core that has fenced itself while the view holds it in service. -/
def fencedUnseen (s : State) : List Nat :=
  (List.range 2048).filter (fun x => hasThreads x && (getCore s x).power == .fenced && siteState s x == 1)

/-- The comparison of every 1,024 counts. -/
def compareView (s : State) : State :=
  if s.mgt.restarting then s
  else
    let s1 := (fencedUnseen s).foldl (fun st x => viewFenceCore x st) s
    let s2 := ((List.range 2048).filter (fun x => siteState s1 x == 3)).foldl (fun st x => disagreeRouter x st) s1
    s2.mgt.fenced.foldl (fun st e => disagreeEnable e.1 e.2 st) s2

def execHealthViewCompare (s : State) : Host.Outcome State Fault Refusal := .next (compareView s)

/-! ### Restart and reference clock (19 R497, 21 R533, R538) -/

/-- What was put off proceeds; of the records, the 256 that the buffer holds. -/
def runDeferred : Nat → List Deferred → State → State
  | _, [], s => s
  | n, .fence k u d :: r, s => runDeferred n r (fenceUnit k u d s)
  | n, .record ws :: r, s =>
    if n < 256 then runDeferred (n + 1) r (takeRecord (ws.map BitVec.toNat) s)
    else runDeferred n r (modMgt (fun m => { m with dropped := satInc m.dropped }) s)
  | n, .forwarded b :: r, s =>
    if n < 256 then runDeferred (n + 1) r (takeForwarded b s)
    else runDeferred n r (modMgt (fun m => { m with dropped := satInc m.dropped }) s)

/-- The firmware memory still holds the image that SEC_FWMEAS measures (21 R538). -/
def firmwareIntact (s : State) : Bool :=
  Config.sm3 (Memory.readN s.rst.fw 0 (s.rst.fwLen - 256)) == s.sec.fwmeas

/-- A management restart ends once its stretch is over and the MGT section may be entered again (21 R524, R538). -/
def restartDone (s : State) : State :=
  if s.mgt.restarting && decide (s.mgt.restartAt + stretchCounts ≤ s.aoc) && firmwareIntact s then
    runDeferred 0 s.mgt.deferred (modMgt (fun m => { m with restarting := false, deferred := [], mwdSince := s.aoc }) s)
  else s

def execMgtRestartDone (s : State) : Host.Outcome State Fault Refusal := .next (restartDone s)

/-- A reference-clock failure in service (21 R533). -/
def clockFails (s : State) : State :=
  if s.rst.phase ≠ .running then s
  else if !optClkScope s then deviceReset 8 0 s
  else
    let s1 := foldN 96 (fun k st => fenceNodeNow k st) s
    let s2 := commitMaps s (kilnAbandon (foldN 16 (fun n st => fencePortNow n st) s1))
    { s2 with hbm := [], hbmBad := [], rst := { s2.rst with islandsHeld := true, cghbm := false, cgsds := false, cgmgt := false } }

def execRefclkFailure (s : State) : Host.Outcome State Fault Refusal := .next (clockFails s)

end Sys2Proof.Machine
end

