-- ==== Sys2Proof/Machine/Kiln.lean ====
section
/-! DEFINITION. Kiln: tests of one slice while the device serves (22 R550 to R560). What a test finds comes as a command. -/

namespace Sys2Proof.Machine

open Sys2Proof

/-- Budget of a slice in always-on counts (22 Table 22.1). -/
def sliceBudget (kind : Nat) : Nat :=
  if kind = 1 then 524288 else if kind = 2 then 1048576 else if kind = 7 then 262144 else 65536

/-- Site of a core or control core slice. -/
def sliceSite (kind inst : Nat) : Nat := if kind = 2 then ccSite inst else inst

/-- A core that runs or is held in reset. -/
def coreInService (s : State) (site : Nat) : Bool :=
  match (getCore s site).power with | .on | .reset => true | _ => false

/-- A unit in service matches INST. -/
def sliceThere (s : State) (kind inst : Nat) : Bool :=
  match kind with
  | 1 => isCoreSite inst && decide (inst < 2048) && coreInService s inst
  | 2 => decide (inst < 16) && coreInService s (ccSite inst)
  | 6 => decide (inst < 96) && gruThere s inst
  | 7 => decide (inst < 16) && portThere s inst
  | 8 => decide (inst < 4) && engineThere s inst
  | _ => false

/-- The unit is not OFF, or a collective engine is BUSY. -/
def sliceBusy (s : State) (kind inst : Nat) : Bool :=
  match kind with
  | 6 => (getNode s inst).gru.gate != .off
  | 7 => (getPort s inst).ctl.gate != .off
  | 8 => (getEngine s inst).state == 1
  | _ => false

/-- Why kiln refuses a test in service, 0 where it does not (22 R557). -/
def kilnRefusal (s : State) (issuer : Option Nat) (kind inst : Nat) : Nat :=
  if kind = 3 || kind = 4 || kind = 5 then 0x10
  else if !sliceThere s kind inst then 0x11
  else if sliceBusy s kind inst then 0x12
  else if (kind = 1 || kind = 2) && issuer = some (sliceSite kind inst) then 0x13
  else 0

/-- The boundary of a slice is shut (22 R551). -/
def isolate (kind inst : Nat) (s : State) : State :=
  match kind with
  | 1 | 2 => modCore (sliceSite kind inst) (fun c => { c with power := .isolated, resetEnds := none }) (coreReset (sliceSite kind inst) s)
  | 6 => modNode inst (fun n => { n with gruIsolated := true }) s
  | 7 => modPort inst (fun q => { q with isolated := true }) s
  | _ => modEngine inst (fun e => { e with isolated := true }) s

/-- A write of KLN_CMD with GO = 1. -/
def kilnGo (issuer : Option Nat) (kind inst : Nat) (s : State) : State :=
  let k := if 8 < kind then 0 else kind
  if k = 0 || s.kln.state ≠ 0 then s
  else
    let code := kilnRefusal s issuer k inst
    if code ≠ 0 then { s with kln := { s.kln with last := BitVec.ofNat 8 code } }
    else
      let s1 := isolate k inst s
      { s1 with kln := { s1.kln with state := 2, slice := BitVec.ofNat 16 (4096 * k + inst), since := s.aoc } }

def execKilnGo (issuer : Option Site) (kind : BitVec 4) (inst : BitVec 12) (s : State) : Host.Outcome State Fault Refusal :=
  .next (kilnGo (issuer.map (·.val)) kind.toNat inst.toNat s)

/-- ERR bits kept for a core that leaves reset (19 R489). -/
def releasedErr (site : Nat) (s : State) : State :=
  if s.mgt.errAfterReset.contains site then
    errToCore site (modMgt (fun m => { m with errAfterReset := m.errAfterReset.filter (· != site) }) s)
  else s

/-- A slice that passes is re-initialised and its boundary opened (22 R552). -/
def reopen (kind inst : Nat) (s : State) : State :=
  match kind with
  | 1 | 2 =>
    let site := sliceSite kind inst
    let c := getCore s site
    releasedErr site (setCore s site { Core.reset .on s.rst.entry with mx := testedMatrix s (4096 * kind + inst), lockups := c.lockups, lostUnits := c.lostUnits })
  | 6 => modNode inst (fun n => { n with gruIsolated := false, gru := Enable.off }) s
  | 7 => modPort inst (fun q => { q with isolated := false, state := .off, ctl := Enable.off }) s
  | _ => modEngine inst (fun e => { Engine.reset with fenced := e.fenced }) s

/-- A repair in service: policy 2 reads as 0 (22 R558). -/
def repairResult (s : State) : Nat :=
  if optKiln s = 1 && (s.sec.state = 1 || s.sec.state = 3) && decide (s.kln.fuses.length < 4096) then 2 else 1

/-- A slice that still fails is fenced as if by MGT_FENCE; the fence waits for the end of a restart of the controller (19 R497). -/
def fenceSlice (kind inst : Nat) (s : State) : State :=
  match kind with
  | 1 | 2 => controllerFence 1 (sliceSite kind inst) 2 s
  | 6 => controllerFence 4 inst 2 s
  | 7 => controllerFence 5 inst 2 s
  | _ => controllerFence 7 inst 2 s

/-- The test of the slice ends. -/
def kilnDone (r : SliceResult) (s : State) : State :=
  if s.kln.state ≠ 2 then s
  else
    let slice := s.kln.slice.toNat
    let kind := slice / 4096
    let inst := slice % 4096
    match r with
    | .pass => kilnEnd 0 1 0 (reopen kind inst s)
    | .repaired d =>
      let res := repairResult s
      kilnEnd res 1 (repairDetail d) (reopen kind inst (keepRepair (res == 2) slice d s))
    | .fails d => fenceSlice kind inst (kilnEnd 4 1 d.toNat s)

def execKilnSliceDone (r : SliceResult) (s : State) : Host.Outcome State Fault Refusal := .next (kilnDone r s)

/-- The slice under test exceeds its budget and has failed (22 R550). -/
def kilnBudget (s : State) : State :=
  let slice := s.kln.slice.toNat
  if s.kln.state = 2 && decide (s.kln.since + sliceBudget (slice / 4096) < s.aoc) then
    fenceSlice (slice / 4096) (slice % 4096) (kilnEnd 4 3 0 s)
  else s

def execKilnBudgetExpiry (s : State) : Host.Outcome State Fault Refusal := .next (kilnBudget s)

end Sys2Proof.Machine
end

