-- ==== Sys2Proof/Machine/Power.lean ====
section
/-! DEFINITION. Reset pins, supply monitoring, watchdogs and the power controller (21). What monitors and detectors observe comes
as commands. -/

namespace Sys2Proof.Machine

open Sys2Proof

def modRst (f : Rst → Rst) (s : State) : State := { s with rst := f s.rst }
def modPwr (f : Pwr → Pwr) (s : State) : State := { s with pwr := f s.pwr }

/-! ### Sources of a device reset -/

/-- The input rises through 30 V (21 R522, R529, R537; 20 R521; 24 R579): the always-on domain starts. -/
def powerOnEffect (straps : BitVec 4) (s : State) : State :=
  let s0 := { s with
    aoc := 0,
    pwr := { s.pwr with low := [] },
    rst := { s.rst with phase := .off },
    sec := { s.sec with fails := 0, count := 0, src := 0, idblk := false, alarmSeen := false, unlockSeen := false,
                        ownerKeys := [] } }
  let s1 := deviceReset 1 0 s0
  { s1 with mgt := { s1.mgt with modid := straps } }

def execPoweron (straps : BitVec 4) (s : State) : Host.Outcome State Fault Refusal := .next (powerOnEffect straps s)

def powered (s : State) : Bool := s.rst.phase != .off

def resetIfPowered (code detail : Nat) (s : State) : State := if powered s then deviceReset code detail s else s

/-- The input below 40 V for 1 µs: a fault shutdown (21 R541, R546). -/
def execInputUndervoltage (s : State) : Host.Outcome State Fault Refusal := .next (resetIfPowered 2 0 s)

/-- Rails of Table 21.4 other than the input. -/
def monitoredRail (r : Nat) : Bool := r = 1 || r = 2 || r = 3 || decide (8 ≤ r)

/-- A half-domain that a partial image has powered off is not monitored (21 R541). -/
def railWatched (s : State) (r : Nat) : Bool := monitoredRail r && !(decide (8 ≤ r) && (getRail s (r - 8)).off)

/-- A rail below its reset threshold for 200 ns. -/
def railUnder (r : Nat) (s : State) : State := if railWatched s r then resetIfPowered 3 r s else s

def execRailUndervoltage (rail : Fin 16) (s : State) : Host.Outcome State Fault Refusal := .next (railUnder rail s)

/-- The pin is ignored while the device drives it and for 64 counts after (21 R525). -/
def pinIgnored (s : State) : Bool :=
  !powered s || (s.rst.phase == .reset && !s.rst.thermTrip) || decide (s.aoc < s.rst.releasedAt + 64)

/-- Every junction is at 95 °C or below (21 R548). -/
def junctionsCool (s : State) : Bool := (List.range 8).all (fun h => decide ((getRail s h).tj.toInt ≤ 95))

/-- RESET_N low for 1 µs: a PIN reset, which also ends a thermal shutdown once every junction is cool. -/
def pinLow (s : State) : State :=
  if pinIgnored s then s
  else if s.rst.thermTrip then
    if junctionsCool s then
      let s1 := deviceReset 4 0 (modRst (fun r => { r with thermTrip := false, sources := r.sources.erase 0xB }) s)
      { s1 with io := { s1.io with resetLow := true } }
    else s
  else
    let s1 := deviceReset 4 0 s
    { s1 with io := { s1.io with resetLow := true } }

def execResetNLow (s : State) : Host.Outcome State Fault Refusal := .next (pinLow s)

/-- A low pulse of 20 ns to 1 µs raises RSTGL. -/
def pinGlitch (s : State) : State := if pinIgnored s then s else alarm 2 s

def execResetNGlitch (s : State) : Host.Outcome State Fault Refusal := .next (pinGlitch s)

/-- A source that lasted ends; after the last one the stretch runs (21 R524). THERM ends only by a reset (R548). -/
def sourceEnd (code : Nat) (s : State) : State :=
  if s.rst.phase = .reset && s.rst.sources.contains code && code ≠ 0xB then
    let rest := s.rst.sources.erase code
    let s1 := modRst (fun r => { r with sources := rest, stretchEnd := (if rest = [] then some (s.aoc + stretchCounts) else none) }) s
    if code = 4 then { s1 with io := { s1.io with resetLow := false } } else s1
  else s

def execResetSourceEnd (code : BitVec 8) (s : State) : Host.Outcome State Fault Refusal := .next (sourceEnd code.toNat s)

def execSwreset (s : State) : Host.Outcome State Fault Refusal := .next (resetIfPowered 6 0 s)

/-- Always-on counts of the start budget used (21 R535). -/
def budgetCounts (s : State) : Nat :=
  s.rst.budgetUsed + match s.rst.budgetSince with | some t => s.aoc - t | none => 0

def budgetExpired (s : State) : Bool :=
  s.rst.budgetSince.isSome && !s.rst.bootdone && !s.rst.recovery && decide (optStartLim s * 2 ^ 20 ≤ budgetCounts s)

def budgetEffect (s : State) : State := if budgetExpired s then deviceReset 0xC 0 s else s

def execStartBudgetExpiry (s : State) : Host.Outcome State Fault Refusal := .next (budgetEffect s)

/-- BOOTOK ends the start (21 R534). -/
def bootokEffect (s : State) : State :=
  if s.rst.phase = .running then modRst (fun r => { r with bootdone := true, failcnt := 0, budgetSince := none }) s else s

def execBootok (s : State) : Host.Outcome State Fault Refusal := .next (bootokEffect s)

/-- MKICK restarts the management watchdog (21 R538). -/
def mkickEffect (s : State) : State := { s with mgt := { s.mgt with mwdSince := s.aoc } }

def execMkick (s : State) : Host.Outcome State Fault Refusal := .next (mkickEffect s)

/-! ### Watchdogs -/

/-- The management watchdog expires (21 R538). -/
def mgtWatchdog (s : State) : State :=
  if s.rst.phase = .running && decide (s.mgt.mwdSince + optMwdPer s * 1024 ≤ s.aoc) then
    if !s.rst.bootdone || s.mgt.restarting then deviceReset 5 0 s
    else { s with mgt := { s.mgt with restarting := true, restartAt := s.aoc, mwdSince := s.aoc } }
  else s

def execMgtWatchdogExpiry (s : State) : Host.Outcome State Fault Refusal := .next (mgtWatchdog s)

/-- A control core's watchdog expires (21 R539). -/
def ccWatchdog (cc : Nat) (s : State) : State :=
  let c := getCore s (ccSite cc)
  if c.power = .on && c.ccwdEn && decide (c.ccwdSince + c.ccwdPeriod.toNat * 1024 ≤ s.aoc) then lockUp (ccSite cc) 1 0 s else s

def execCcWatchdogExpiry (cc : Fin 16) (s : State) : Host.Outcome State Fault Refusal := .next (ccWatchdog cc s)

/-! ### Warnings (21 R541, R542) -/

/-- The notified thread receives machine-level event bit WEVB. -/
def warnNotify (s : State) : State := notify s.pwr.wevb.toNat s

/-- DUTY a half-domain may have: 64 while its rail's warning limit holds. -/
def dutyCap (r : Rail) (d : BitVec 8) : BitVec 8 := if r.limited && decide (64 < d.toNat) then 64 else d

def setWarnBit (r : Nat) (p : Pwr) : Pwr :=
  if r = 0 then { p with iwarn := true }
  else if r = 1 then { p with mwarn := true }
  else if r = 2 then { p with bwarn := true }
  else if r = 3 then { p with swarn := true }
  else { p with hwarn := p.hwarn ||| (1#8 <<< (r - 8)) }

/-- A warning: sticky bit, event, and the protective limit. -/
def warn (r : Nat) (s : State) : State :=
  let s1 := modPwr (fun p => { setWarnBit r p with
    low := if p.low.contains r then p.low else r :: p.low, inputLimited := p.inputLimited || r == 0 }) s
  let s2 := if 8 ≤ r then modRail (r - 8) (fun x => { x with limited := true, duty := if 64 < x.duty.toNat then 64 else x.duty }) s1
            else s1
  warnNotify s2

def execInputWarning (s : State) : Host.Outcome State Fault Refusal := .next (if powered s then warn 0 s else s)

def railWarn (r : Nat) (s : State) : State := if powered s && railWatched s r then warn r s else s

def execRailWarning (rail : Fin 16) (s : State) : Host.Outcome State Fault Refusal := .next (railWarn rail s)

/-- A rail, or the input, reaches the level at which its warning clears: the limit ends, the bit stays. Pacing itself ends in a window that
has room for it (21 R544). -/
def railRecover (r : Nat) (s : State) : State :=
  let s1 := modPwr (fun p => { p with low := p.low.filter (· != r), inputLimited := p.inputLimited && r != 0 }) s
  if 8 ≤ r && (getRail s (r - 8)).limited then
    modRail (r - 8) (fun x => { x with limited := false }) s1
  else s1

def execRailRecovery (rail : Fin 16) (s : State) : Host.Outcome State Fault Refusal := .next (railRecover rail s)

/-! ### Thermal control (21 R547, R548) -/

def tripEffect (s : State) : State :=
  if powered s then modRst (fun r => { r with thermTrip := true }) (deviceReset 0xB 0 s) else s

def execThermalTrip (s : State) : Host.Outcome State Fault Refusal := .next (tripEffect s)

/-- A half-domain rail is set; its sense point follows (assumption log 14). -/
def railTo (mv : Nat) (r : Rail) : Rail := { r with vset := BitVec.ofNat 16 mv, vmeas := BitVec.ofNat 16 mv }

/-- A junction of a half-domain exceeds THROT. -/
def throttleBegin (h : Nat) (tj : BitVec 8) (s : State) : State :=
  let s1 := modRail h (fun r => { r with tj := tj }) s
  if s.pwr.throt.toNat < tj.toInt then modPwr (fun p => { p with thr := p.thr ||| (1#8 <<< h) }) s1 else s1

def execThrottleStart (h : Fin 8) (tj : BitVec 8) (s : State) : Host.Outcome State Fault Refusal := .next (throttleBegin h tj s)

/-- Each 1,024 counts a throttled rail falls by 10 mV to 0.70 V, and then DUTY halves while a junction is above 105 °C. -/
def throttleStep (h : Nat) (tj : BitVec 8) (s : State) : State :=
  let s1 := modRail h (fun r => { r with tj := tj }) s
  if s.pwr.thr.getLsbD h then
    modRail h (fun r =>
      if 700 < r.vset.toNat then railTo (max 700 (r.vset.toNat - 10)) r
      else if 105 < tj.toInt then { r with duty := BitVec.ofNat 8 (min r.duty.toNat (max 16 (r.duty.toNat / 2))) } else r) s1
  else s1

def execThrottleTick (h : Fin 8) (tj : BitVec 8) (s : State) : Host.Outcome State Fault Refusal := .next (throttleStep h tj s)

/-- The throttle ends at THROT − 5 °C or below; rails rise, and pacing ends, in the windows that have room for it (21 R544). -/
def throttleFinish (h : Nat) (tj : BitVec 8) (s : State) : State :=
  let s1 := modRail h (fun r => { r with tj := tj }) s
  if tj.toInt ≤ (s.pwr.throt.toNat : Int) - 5 && s.pwr.thr.getLsbD h then
    modPwr (fun p => { p with thr := p.thr &&& ~~~ (1#8 <<< h) }) s1
  else s1

def execThrottleEnd (h : Fin 8) (tj : BitVec 8) (s : State) : Host.Outcome State Fault Refusal := .next (throttleFinish h tj s)

/-! ### The power controller's 1 ms window (21 R542, R544, R545) -/

/-- The limit on the average draw of the next window. -/
def drawLimit (s : State) : Nat :=
  min (if s.pwr.inputLimited then min 2000 s.pwr.plim.toNat else s.pwr.plim.toNat) (s.pwr.draw.toNat + s.pwr.slew.toNat)

/-- The half-domain with the highest rail above 0.70 V. -/
def highestRail (s : State) : Option Nat :=
  (List.range 8).foldl (fun best h =>
    let v := (getRail s h).vset.toNat
    if 700 < v then
      match best with
      | some b => if (getRail s b).vset.toNat < v then some h else best
      | none => some h
    else best) none

/-- A half-domain's share of a window in which no limit holds: pacing ends first, and then its rail rises by 10 mV toward 0.90 V, unless it
is throttled, at its warning limit or powered off (01 R28). -/
def railRises (thr : Bool) (r : Rail) : Rail :=
  if thr then r
  else if r.duty ≠ dutyCap r 128 then { r with duty := dutyCap r 128 }
  else if r.off || r.limited || r.vset = 0 then r
  else if r.vset.toNat < 900 then railTo (min 900 (r.vset.toNat + 10)) r
  else r

/-- Demand above the limit lowers the highest rail by 10 mV, and with every rail at 0.70 V halves DUTY; in a window without it pacing ends
and rails rise (01 R28, 21 R544; the size of the steps: assumption log 14). -/
def holdLimit (above : Bool) (s : State) : State :=
  if above then
    match highestRail s with
    | some h => modRail h (fun r => railTo (max 700 (r.vset.toNat - 10)) r) s
    | none => foldN 8 (fun h st => modRail h (fun r => { r with duty := BitVec.ofNat 8 (max 1 (r.duty.toNat / 2)) }) st) s
  else foldN 8 (fun h st => modRail h (railRises (st.pwr.thr.getLsbD h)) st) s

/-- A fault shutdown is under way: a device reset with INPUT or THERM among its sources (21 R546). -/
def shutDown (s : State) : Bool :=
  s.rst.phase == .reset && (s.rst.src == 2 || s.rst.src == 0xB || s.rst.also.getLsbD 2 || s.rst.also.getLsbD 0xB)

/-- One window: `draw` is the demand of the module without ballast, `vin` the input in 10 mV. The ballast keeps the fall within
SLEW, but in a fault shutdown, which has removed it (21 R546). -/
def windowEffect (draw vin : BitVec 16) (s : State) : State :=
  let floor := if shutDown s then 0 else s.pwr.draw.toNat - s.pwr.slew.toNat
  let shown := max draw.toNat floor
  let above := drawLimit s < draw.toNat
  holdLimit above (modPwr (fun p => { p with
    draw := BitVec.ofNat 16 shown, ballast := BitVec.ofNat 16 (min 4000 (shown - draw.toNat)), vin := vin }) s)

def execPowerWindow (draw vin : BitVec 16) (s : State) : Host.Outcome State Fault Refusal := .next (windowEffect draw vin s)

end Sys2Proof.Machine
end

