-- ==== Sys2Proof/Machine/Start.lean ====
section
/-! DEFINITION. How a start proceeds: the reset stretch and the rails (21 R524, R529 to R531), the firmware image (20 R509 to R513),
the structure image of the flash (18 R470), minimal recovery mode (21 R536), and the end of a core reset. -/

namespace Sys2Proof.Machine

open Sys2Proof

/-! ### Firmware image (20 Table 20.3) -/

def fwTot (b : List Byte) : Nat := leAt b 8 4

/-- A section's offset and length. -/
def fwSection (b : List Byte) (at_ : Nat) : Nat × Nat := (leAt b at_ 4, leAt b (at_ + 4) 4)

/-- The header meets R509. -/
def fwHeaderGood (b : List Byte) : Bool :=
  let n := fwTot b
  let g := fwSection b 16
  let m := fwSection b 24
  let r := fwSection b 40
  leAt b 0 4 == 0x57465A49 && leAt b 4 2 == 1 && decide (leAt b 7 1 ≤ 64) && n % 64 == 0 && decide (512 ≤ n) && decide (n ≤ 2 ^ 24) &&
  leAt b 12 4 == 0 && leAt b 56 72 == 0 && g.1 % 64 == 0 && m.1 % 64 == 0 && r.1 % 64 == 0 && decide (1 ≤ g.2) &&
  decide (g.2 ≤ 2 ^ 21) && decide (128 ≤ g.1) && decide (g.1 + g.2 ≤ m.1) && decide (m.1 + m.2 ≤ r.1) &&
  decide (r.1 + r.2 ≤ n - 256) && leAt b 32 8 % 4096 == 0 && leAt b 48 8 % 4096 == 0

/-- "IZMET-FWIMG" -/
def idFirmware : List Byte := asciiBytes [0x49, 0x5A, 0x4D, 0x45, 0x54, 0x2D, 0x46, 0x57, 0x49, 0x4D, 0x47]

/-- The block of 128 bytes at `off` signs the bytes before it under a key with this hash (20 R510). -/
def fwSigned (b : List Byte) (off : Nat) (hash : BitVec 256) : Bool :=
  let key := (b.drop off).take 64
  Config.sm3 key == hash &&
  Config.sm2Verify (BitVec.ofNat 512 (leNat key)) idFirmware (b.take off) (BitVec.ofNat 512 (leAt b (off + 64) 64))

/-- The owner block is examined: in DEPLOYED, while OWNKH is trusted (20 R511). -/
def ownerExamined (s : State) : Bool := s.sec.state == 2 && !s.sec.revoke

def ownerBlockZero (b : List Byte) : Bool := ((b.drop (fwTot b - 128)).take 128).all (· == 0)

/-- The image is accepted (20 R511). -/
def fwAccepted (s : State) (b : List Byte) : Bool :=
  fwHeaderGood b && (leAt b 6 1).testBit s.top.part.toNat && decide (svnFused s ≤ leAt b 7 1) &&
  fwSigned b (fwTot b - 256) Config.romVendorHash &&
  (!ownerExamined s || (if ownerBlockZero b then !s.sec.ownreq else fwSigned b (fwTot b - 128) s.sec.ownkh))

/-! ### The controller starts -/

/-- The next start is one in minimal recovery mode (21 R536). -/
def recoveryStart (s : State) : Bool := decide (optFailMax s ≤ s.rst.failcnt.toNat) || s.rst.recoverNext

/-- Rails in the order of their ramp: islands, then half-domains (21 R529). In recovery only the management island is powered. -/
def rampOrder (s : State) : List Nat :=
  if (if s.rst.phase = .reset then recoveryStart s else s.rst.recovery) then [1] else [1, 2, 3, 8, 9, 10, 11, 12, 13, 14, 15]

/-- The firmware is refused: a failed start that waits for recovery (20 R513, 21 R534, R536). -/
def refuseFirmware (s : State) : State :=
  trainControl (startPorts (modRst (fun r => { r with
    failcnt := if r.failcnt = 15 then 15 else r.failcnt + 1, recovery := true, recoverNext := true, budgetSince := none }) s))

/-- The structure image of the flash slot (18 R470). -/
def loadSlot (s : State) : State :=
  let s1 := startPorts (startRouters s)
  let slot := 0x0C000000
  let h := flashRead s1 slot 128
  if (h.take 4).all (· == 0xFF) then enterAwaiting 0 0xFF s1
  else
    let n := imgTot h
    let b := if n < 128 || 2 ^ 24 < n then h else flashRead s1 slot n
    let s2 := modImg (fun i => { i with staging := Memory.writeN [] 0 b, stagedLen := b.length }) s1
    match imageCheck s2 false [] b.length b with
    | some (code, sec) => enterAwaiting code sec s2
    | none => applyFull b s2

/-- The copy of the firmware is verified and the loader runs (20 R512). -/
def runFirmware (s : State) : State :=
  let h := flashRead s 0x100000 128
  if !fwHeaderGood h then refuseFirmware s
  else
    let b := flashRead s 0x100000 (fwTot h)
    if !fwAccepted s b then refuseFirmware s
    else
      let s1 := modRst (fun r => { r with
        fw := Memory.writeN [] 0 b, fwLen := b.length, entry := BitVec.ofNat 64 (leAt b 32 8) }) s
      loadSlot (modSec (fun x => { x with
        fwmeas := Config.sm3 (b.take (fwTot b - 256)), fuseMeas := Config.sm3 (fuseBytes x), svnr := BitVec.ofNat 8 (leAt b 7 1),
        owncs := ownerExamined s && !ownerBlockZero b }) s1)

/-- The management controller starts from its ROM. The reset's cause, where retained SRAM kept it, is the first record (19 R491). -/
def startController (s : State) : State :=
  let s1 := { s with
    rst := { s.rst with phase := .running },
    mgt := { s.mgt with
      mwdSince := s.aoc,
      raised := (match s.rst.pendingCause with
        | some c => [recFields s 5 .island 0x70 0xFFFF 0 1 0 c.toNat]
        | none => []) ++ s.mgt.raised } }
  if s1.rst.recovery then trainControl (startPorts s1) else runFirmware s1

/-- Every clocked island that the start uses may leave reset (21 R530, R531). -/
def clocksAgree (s : State) : Bool :=
  s.rst.cgmgt && (s.rst.recovery || ((s.rst.cghbm || s.rst.forceHbm) && (s.rst.cgsds || s.rst.forceSds)))

/-- The controller starts once the stretch has ended, the rails are good and the clocks agree (21 R529). -/
def tryStart (s : State) : State :=
  if s.rst.phase = .waiting && decide ((rampOrder s).length ≤ s.rst.railsUp || s.rst.powerGood) && clocksAgree s then startController s
  else s

/-- A rail becomes good: a half-domain at 0.70 V. -/
def railUp (r : Nat) (s : State) : State :=
  if 8 ≤ r then modRail (r - 8) (fun x => { x with vset := 700, vmeas := 700 }) s
  else modPwr (fun p => { p with islandRails := mset p.islandRails r (if r = 2 then 1100 else 750) }) s

/-- The ramping rail becomes good and the next one ramps. -/
def railGood (r : Nat) (m : StartMeas) (s : State) : State :=
  let ramping := s.rst.phase = .waiting || (s.rst.phase = .reset && s.rst.sources = [])
  if ramping && (rampOrder s)[s.rst.railsUp]? == some r then
    tryStart (modRst (fun x => { x with
      railsUp := x.railsUp + 1, meas := m, powerGood := x.powerGood || decide (x.railsUp + 1 = 11) }) (railUp r s))
  else s

def execRailGood (rail : Fin 16) (m : StartMeas) (s : State) : Host.Outcome State Fault Refusal := .next (railGood rail m s)

/-- The stretch expires and RESET_N is released (21 R524). The start budget runs from here, but for recovery mode (R535). -/
def stretchOver (m : StartMeas) (s : State) : State :=
  match s.rst.stretchEnd with
  | none => s
  | some t =>
    if s.rst.phase = .reset && decide (t ≤ s.aoc) then
      let rec_ := recoveryStart s
      let up := decide ((rampOrder s).length ≤ s.rst.railsUp)
      tryStart (modRst (fun r => { r with
        phase := .waiting, stretchEnd := none, releasedAt := s.aoc, startMark := s.aoc, recovery := rec_, recoverNext := false,
        budgetUsed := 0, budgetSince := (if rec_ then none else some s.aoc), meas := m, powerGood := up && !rec_ }) s)
    else s

def execResetStretchEnd (m : StartMeas) (s : State) : Host.Outcome State Fault Refusal := .next (stretchOver m s)

/-- A clock-good detector agrees (21 R530). After a reference-clock failure in service the HBM and SerDes islands stay held
(R533). -/
def clockGood (g : Nat) (s : State) : State :=
  if g = 0 then tryStart (modRst (fun r => { r with cghbm := !r.islandsHeld }) s)
  else if g = 1 then tryStart (modRst (fun r => { r with cgsds := !r.islandsHeld }) s)
  else tryStart (modRst (fun r => { r with cgmgt := true }) s)

def execClockGood (group : Fin 3) (s : State) : Host.Outcome State Fault Refusal := .next (clockGood group s)

/-- RST_CTL.FORCE (21 R531): in MANUFACTURE an island group whose detector has not agreed is released behind a shut boundary, and its
nodes or ports read as absent. -/
def forceRelease (bits : BitVec 2) (s : State) : State :=
  if s.sec.state ≠ 1 then s
  else
    let h := bits.getLsbD 0 && !s.rst.cghbm
    let d := bits.getLsbD 1 && !s.rst.cgsds
    let s1 := if h then
        foldN 96 (fun k st => modNode k (fun n => { n with inService := false }) st)
          { s with top := { s.top with stackMap := 0, gruMap := 0 }, rst := { s.rst with forceHbm := true } }
      else s
    let s2 := if d then
        foldN 16 (fun p st => modPort p (fun q => { q with present := false }) st)
          { s1 with top := { s1.top with portMap := 0 }, rst := { s1.rst with forceSds := true } }
      else s1
    tryStart s2

def execForce (bits : BitVec 2) (s : State) : Host.Outcome State Fault Refusal := .next (forceRelease bits s)

/-- A core reset's stretch expires: the core leaves reset at the reset entry, with ERR set where a record waited for it (21 R524,
R532; 19 R489). -/
def coreResetOver (site : Nat) (s : State) : State :=
  let c := getCore s site
  match c.resetEnds with
  | none => s
  | some t =>
    if c.power = .reset && decide (t ≤ s.aoc) then releasedErr site (setCore s site (coreAfter c .on s.rst.entry none)) else s

def execCoreResetEnd (site : Site) (s : State) : Host.Outcome State Fault Refusal := .next (coreResetOver site s)

end Sys2Proof.Machine
end

