-- ==== Sys2Proof/Machine/Csrs.lean ====
section
/-! DEFINITION. Control and status registers (04 Table 4.9 and the tables that extend it): their levels, their values, what a
write stores (00 R9 to R12, 04 R117), and what a read or write does beside. -/

namespace Sys2Proof.Machine

open Sys2Proof

/-! ### Numbers and levels -/

/-- Lowest levels that read and that write a register (04 Table 4.9, 05 Table 5.2, 06 Table 6.8, 07 Table 7.5, 08 Table 8.2, 09 Table
9.2, 14 Table 14.8, 15 Table 15.12, 21 R539); none for a number that is unassigned there. A read-only register is written without
effect at the level that reads it. -/
def csrLevels (cc : Bool) (n : Nat) : Option (Level × Level) :=
  let u := Level.user
  let sv := Level.supervisor
  let m := Level.machine
  if n = 0x000 || n = 0x004 || n = 0x021 || n = 0x022 || n = 0x138 || n = 0x181 || (0x150 ≤ n && n ≤ 0x15F) then some (u, sv)
  else if n = 0x001 || n = 0x002 || n = 0x003 || n = 0x102 || n = 0x122 || n = 0x123 || n = 0x131 || n = 0x133 || n = 0x135 ||
      (0x140 ≤ n && n ≤ 0x143) || n = 0x160 then some (sv, sv)
  else if n = 0x010 || n = 0x011 || n = 0x020 || n = 0x0F0 || n = 0x101 || n = 0x110 || n = 0x111 || n = 0x120 || n = 0x121 ||
      n = 0x130 || (0x170 ≤ n && n ≤ 0x173) || n = 0x180 || n = 0x182 then some (u, u)
  else if n = 0x100 || n = 0x103 || n = 0x137 then some (u, m)
  else if n = 0x132 then some (sv, m)
  else if n = 0x134 || n = 0x136 || (0x139 ≤ n && n ≤ 0x13D) then some (m, m)
  else if cc && (n = 0x161 || n = 0x162) then some (sv, sv)
  else if cc && n = 0x190 then some (u, sv)
  else none

/-- Level `l` is at least `lo`. -/
def atLeast (l lo : Level) : Bool := decide (levelCode lo ≤ levelCode l)

/-- CSRs whose writing Table 8.1 keeps for the machine level (23 R571). -/
def csrMachineOnly (n : Nat) : Bool :=
  n = 0x132 || n = 0x134 || n = 0x136 || n = 0x13D || n = 0x137 || n = 0x139 || n = 0x13A || n = 0x100 || n = 0x103

/-! ### Values -/

/-- cs.features (00 Table 0.3). -/
def featuresWord (s : State) : Word :=
  mk 63 56 s.top.part.toNat ||| mk 55 48 s.top.stepping.toNat ||| mk 42 32 s.top.cores.toNat ||| bitAt 31 s.top.mgr |||
  bitAt 30 s.top.hbridge ||| mk 29 25 s.top.hbm.toNat ||| mk 24 20 s.top.ports.toNat ||| mk 19 15 s.top.ctrlc.toNat |||
  mk 14 8 s.top.gru.toNat

/-- cs.tconf of slot i (07 Table 7.7). -/
def tconfWord (c : Core) (i : Nat) : Word :=
  if i < 8 then mget c.mx.slots i 0
  else
    let a := mget c.mx.accs (i - 8) Acc.reset
    a.conf ||| bitAt 62 a.inc ||| bitAt 61 a.psn

/-- cs.lmslice: 0 on a control core (09 R243). -/
def sliceSize (site : Nat) (c : Core) : Nat := if isCcSite site then 0 else c.lmslice.toNat

/-- Private slice of a thread in 128 B units: start and end (05 R134). On a control core it is empty. -/
def sliceBounds (site : Nat) (c : Core) (t : Fin 4) : Nat × Nat :=
  (t.val * sliceSize site c * 256, (t.val + 1) * sliceSize site c * 256)

/-- cs.tstate (05 Table 5.4). -/
def tstateWord (c : Core) : Word :=
  mk 15 12 (threadCode c.thr3) ||| mk 11 8 (threadCode c.thr2) ||| mk 7 4 (threadCode c.thr1) ||| mk 3 0 (threadCode c.thr0)

/-- The oldest filled slot of the delivery point and its message (15 R399). -/
def oldestWatch (h : ThreadComm) : Option (Nat × Nat × Word) :=
  h.watches.foldl (fun best e => match e.2, best with
    | .holding o m, none => some (e.1, o, m)
    | .holding o m, some b => if o < b.2.1 then some (e.1, o, m) else some b
    | _, b => b) none

def boundsWord (base limit : Nat) : Word := mk 45 32 limit ||| mk 13 0 base

/-- Value of an assigned register; `none` where the number is unassigned. -/
def csrRead (s : State) (site : Nat) (t : Fin 4) (n : Nat) : Option Word :=
  let c := getCore s site
  let h := coreThr c t
  if (csrLevels (isCcSite site) n).isNone then none
  else some <|
    match n with
    | 0x000 => statusWord h.status
    | 0x001 => h.exc.epc
    | 0x002 => h.exc.ecause
    | 0x003 => h.exc.eaddr
    | 0x004 => h.exc.progress
    | 0x010 => h.fp.fpcsr
    | 0x011 => zext h.fp.srseed
    | 0x020 => mk 6 4 h.win.res ||| mk 2 0 h.win.pos.val
    | 0x021 => mk 20 7 h.win.wsp.toNat
    | 0x022 => boundsWord h.win.base.toNat h.win.limit.toNat
    | 0x0F0 => featuresWord s
    | 0x100 => BitVec.ofNat 64 (sliceSize site c)
    | 0x101 => mk 26 16 site ||| mk 12 0 (thidOf s site t)
    | 0x102 => tstateWord c
    | 0x103 => bitAt 16 c.idleEn ||| zext c.idleDelay
    | 0x110 => zext h.fp.ropeidx
    | 0x111 => mget c.rope h.fp.ropeidx.toNat 0
    | 0x120 => zext h.fp.tsel
    | 0x121 => tconfWord c h.fp.tsel.toNat
    | 0x122 => h.fp.tpend0
    | 0x123 => h.fp.tpend1
    | 0x130 => zext h.exc.event
    | 0x131 => zext h.exc.evmask
    | 0x132 => h.exc.sdeleg
    | 0x133 => h.exc.svec
    | 0x134 => h.exc.mvec
    | 0x135 => h.exc.sstk
    | 0x136 => h.exc.mstk
    | 0x137 => h.exc.gtab
    | 0x138 => boundsWord h.reach.gbase.toNat h.reach.glimit.toNat
    | 0x139 => h.reach.mrange
    | 0x13A => h.exc.depc
    | 0x13B => h.exc.dcause
    | 0x13C => h.exc.deaddr
    | 0x13D => h.exc.dfstk
    | 0x160 => zext c.caches.rlc.locked &&& 0xFF ||| (zext c.caches.icache.locked &&& 0xFF) <<< 8 |||
        (if isCcSite site then zext c.caches.l2.locked <<< 16 else 0)
    | 0x161 => c.mmu.ptbr
    | 0x162 => 0
    | 0x170 => setFld h.comm.chcfg 55 52 h.comm.sends.length
    | 0x171 => zext (readyMask s site t)
    | 0x172 => zext h.comm.chsbidx
    | 0x173 => mget h.comm.sendBuf h.comm.chsbidx.toNat 0
    | 0x180 => paceCopy s site
    | 0x181 => h.comm.syncev
    | 0x182 => match oldestWatch h.comm with | some (_, _, m) => m | none => 0
    | 0x190 => bitAt 16 c.ccwdEn ||| zext c.ccwdPeriod
    | k => if k < 0x150 then mget h.reach.uwin (k - 0x140) windowRegReset else mget c.caches.rat (k - 0x150) windowRegReset

/-- What reading does beside: cs.chsbdat advances the index, a CSRR of cs.wmsg frees its slot (14 R368, 15 R399). -/
def csrReadEffect (site : Nat) (t : Fin 4) (n : Nat) (s : State) : State :=
  if n = 0x173 then modThr site t (fun h => { h with comm := { h.comm with chsbidx := h.comm.chsbidx + 1 } }) s
  else if n = 0x182 then
    modThr site t (fun h => match oldestWatch h.comm with
      | some (k, _, _) => { h with comm := { h.comm with watches := mdel h.comm.watches k } }
      | none => h) s
  else s

/-! ### Writes -/

/-- Bits of a register that are cleared by writing 1. -/
def csrW1c (n : Nat) : Word := if n = 0x010 then 0xF else if n = 0x130 then 0xFFFFFFFF else 0

/-- The value that a CSR move writes (04 R117): in bits cleared by writing 1 it is the written bit itself. -/
def csrCombine (op : CsrOp) (n : Nat) (old a : Word) : Word :=
  let m := csrW1c n
  match op with
  | .w => a
  | .s => ((old ||| a) &&& ~~~ m) ||| (a &&& m)
  | .c => old &&& ~~~ a &&& ~~~ m

/-- BASE and LIMIT clamped into a slice (03 R76). -/
def clampBounds (b : Nat × Nat) (base limit : Nat) : Nat × Nat :=
  let lo := clampNat b.1 b.2 base
  (lo, max lo (clampNat b.1 b.2 limit))

/-- cs.wbound written: cs.wsp is clamped with it. -/
def setBounds (b : Nat × Nat) (base limit : Nat) (w : Window) : Window :=
  let r := clampBounds b base limit
  { w with base := BitVec.ofNat 14 r.1, limit := BitVec.ofNat 14 r.2, wsp := BitVec.ofNat 14 (clampNat r.1 r.2 w.wsp.toNat) }

/-- cs.lmguard written (08 R219). -/
def setGuard (b : Nat × Nat) (base limit : Nat) (r : Reach) : Reach :=
  let x := clampBounds b base limit
  { r with gbase := BitVec.ofNat 14 x.1, glimit := BitVec.ofNat 14 x.2 }

/-- CORE_TRCCTL.BASE within its legal positions (23 Table 23.10); where the shared region has none, what the field holds is not stated:
a free value (log 27). -/
def traceBase (site : Nat) (rlog base : Nat) (s : State) : Nat × State :=
  let a := 2 ^ (rlog + 4)
  let lo := (sharedStart site (getCore s site) + a - 1) / a * a
  if lo + a ≤ lmBytes then (clampNat lo (lmBytes - a) (base / a * a), s)
  else let r := drawFree 15 s; (r.1.toNat * 64, r.2)

/-- CORE_TRCCTL takes a value; a change of EN from 0 to 1 starts afresh. -/
def traceCtlWrite (site : Nat) (v : Word) (s : State) : State :=
  let rlog := clampNat 4 14 (fld v 47 44)
  let b := traceBase site rlog (fld v 20 6 * 64) s
  let w := bitAt 63 (bit v 63) ||| mk 55 48 (fld v 55 48) ||| mk 47 44 rlog ||| mk 20 6 (b.1 / 64)
  modCore site (fun c =>
    let fresh := bit v 63 && !bit c.dbg.trcctl 63
    { c with dbg := { c.dbg with trcctl := w, trcprod := if fresh then 0 else c.dbg.trcprod,
                                 trclost := if fresh then 0 else c.dbg.trclost } }) b.2

/-- A thread's bounds clamped again after a change of the slice size. -/
def reclamp (site : Nat) (c : Core) (t : Fin 4) : Core :=
  let h := coreThr c t
  let b := sliceBounds site c t
  coreSetThr c t { h with win := setBounds b h.win.base.toNat h.win.limit.toNat h.win,
                          reach := setGuard b h.reach.gbase.toNat h.reach.glimit.toNat h.reach }

/-- cs.lmslice written (05 R138, 08 R219, 23 Table 23.10); ignored on a control core. -/
def sliceWrite (site : Nat) (v : Word) (s : State) : State :=
  if isCcSite site then s
  else
    let s1 := modCore site (fun c =>
      threadsOf.foldl (reclamp site) { c with lmslice := BitVec.ofNat 4 (clampNat 1 11 (fld v 3 0)) }) s
    traceCtlWrite site (getCore s1 site).dbg.trcctl s1

/-- The matrix operation that a cs.tpend WORD spells, where it is legal (07 R596). -/
def parseTpend (w : Word) : Option TileOp :=
  let t := fld w 47 44
  if fld w 62 59 ≠ 5 || fld w 51 48 ≠ 0 || t < 8 then none
  else if fld w 58 52 = 0x10 then
    (if fld w 43 40 < 8 && fld w 39 36 < 8 && fld w 33 0 = 0 then
      some (.tmma (Fin.ofNat 16 t) (Fin.ofNat 16 (fld w 43 40)) (Fin.ofNat 16 (fld w 39 36)) (bit w 35) (bit w 34)) else none)
  else if fld w 58 52 = 0x11 then
    (if fld w 43 34 = 0 && fld w 28 0 = 0 then some (.tscale (Fin.ofNat 16 t) (Fin.ofNat 32 (fld w 33 29))) else none)
  else if fld w 58 52 = 0x18 then (if fld w 43 0 = 0 then some (.tzero (Fin.ofNat 16 t)) else none)
  else none

def tpendStore (v : Word) : Word := if (parseTpend v).isSome then v else v &&& ~~~ (1#64 <<< 63)

/-- TLB entries that a cs.tlbinv write leaves (09 Table 9.9). -/
def tlbKeeps (v : Word) (e : TlbEntry) : Bool :=
  let asid := fld v 61 48
  let same := e.vpn / 512 ^ e.level == fld v 47 12 / 512 ^ e.level
  match fld v 63 62 with
  | 0 => false
  | 1 => !(e.asid == asid && !bit e.pte 57)
  | 2 => !(same && (e.asid == asid || bit e.pte 57))
  | _ => !same

def tlbInvalidate (v : Word) (m : Mmu) : Mmu :=
  { m with itlb := m.itlb.filter (tlbKeeps v), dtlb := m.dtlb.filter (tlbKeeps v), stlb := m.stlb.filter (tlbKeeps v), nonleaf := [] }

/-- Writable bits of cs.sdeleg (08 R223). -/
def sdelegMask : Word := 0x0F007FFE

def modExc (site : Nat) (t : Fin 4) (f : ExcRegs → ExcRegs) (s : State) : State := modThr site t (fun h => { h with exc := f h.exc }) s
def modFp (site : Nat) (t : Fin 4) (f : FpRegs → FpRegs) (s : State) : State := modThr site t (fun h => { h with fp := f h.fp }) s
def modReach (site : Nat) (t : Fin 4) (f : Reach → Reach) (s : State) : State := modThr site t (fun h => { h with reach := f h.reach }) s
def modComm (site : Nat) (t : Fin 4) (f : ThreadComm → ThreadComm) (s : State) : State :=
  modThr site t (fun h => { h with comm := f h.comm }) s

/-- cs.chcfg as a write stores it (14 Table 14.9). -/
def chcfgStore (v old : Word) : Word :=
  setFld (setFld (setFld (setFld (setFld old 39 32 (max 1 (fld v 39 32))) 28 24 (fld v 28 24)) 15 15 (fld v 15 15)) 14 12 (fld v 14 12))
    3 0 (fld v 3 0)

/-- cs.ccwd written (21 Table 21.3). -/
def ccwdWrite (site : Nat) (v : Word) (s : State) : State :=
  modCore site (fun c => { c with
    ccwdEn := bit v 16, ccwdPeriod := BitVec.ofNat 16 (max 1 (fld v 15 0)),
    ccwdSince := if bit v 63 || (bit v 16 && !c.ccwdEn) then s.aoc else c.ccwdSince }) s

/-- A register takes the value that a move of level `l` writes. Read-only and unassigned numbers are left as they are. -/
def csrStore (site : Nat) (t : Fin 4) (l : Level) (n : Nat) (v : Word) (s : State) : State :=
  let b := sliceBounds site (getCore s site) t
  match n with
  | 0x000 => modThr site t (fun h => { h with status := statusWrite v h.status }) s
  | 0x001 => modExc site t (fun e => { e with epc := v &&& ~~~ 7#64 }) s
  | 0x004 => modExc site t (fun e => { e with progress := v &&& ~~~ maskOf 47 40 }) s
  | 0x010 => modFp site t (fun f => { f with
      fpcsr := mk 9 8 (min 2 (fld v 9 8)) ||| mk 7 7 (fld v 7 7) ||| (f.fpcsr &&& 0xF &&& ~~~ v) }) s
  | 0x011 => modFp site t (fun f => { f with srseed := if v.setWidth 32 = 0#32 then 1 else v.setWidth 32 }) s
  | 0x021 => modThr site t (fun h => { h with win := { h.win with
      wsp := BitVec.ofNat 14 (clampNat h.win.base.toNat h.win.limit.toNat (fld v 20 7)) } }) s
  | 0x022 => modThr site t (fun h => { h with win := setBounds b (fld v 13 0) (fld v 45 32) h.win }) s
  | 0x100 => sliceWrite site v s
  | 0x103 => modCore site (fun c => { c with idleEn := bit v 16, idleDelay := BitVec.ofNat 16 (max 1 (fld v 15 0)) }) s
  | 0x110 => modFp site t (fun f => { f with ropeidx := v.setWidth 8 }) s
  | 0x111 =>
    let i := (getThr s site t).fp.ropeidx
    modFp site t (fun f => { f with ropeidx := i + 1 }) (modCore site (fun c => { c with rope := mset c.rope i.toNat v }) s)
  | 0x120 => modFp site t (fun f => { f with tsel := v.setWidth 4 }) s
  | 0x122 => modFp site t (fun f => { f with tpend0 := tpendStore v }) s
  | 0x123 => modFp site t (fun f => { f with tpend1 := tpendStore v }) s
  | 0x130 => modExc site t (fun e => { e with event := e.event &&& ~~~ (v.setWidth 32 &&& eventMask l) }) s
  | 0x131 => modExc site t (fun e => { e with
      evmask := if l = .machine then v.setWidth 32 else (v.setWidth 32 &&& 0xFFFFFF00) ||| (e.evmask &&& 0xFF) }) s
  | 0x132 => modExc site t (fun e => { e with sdeleg := v &&& sdelegMask }) s
  | 0x133 => modExc site t (fun e => { e with svec := v &&& maskOf 47 6 }) s
  | 0x134 => modExc site t (fun e => { e with mvec := v &&& maskOf 47 6 }) s
  | 0x135 => modExc site t (fun e => { e with sstk := v }) s
  | 0x136 => modExc site t (fun e => { e with mstk := v }) s
  | 0x137 => modExc site t (fun e => { e with gtab := v &&& (maskOf 63 52 ||| maskOf 47 6) }) s
  | 0x138 => modReach site t (setGuard b (fld v 13 0) (fld v 45 32)) s
  | 0x139 => modReach site t (fun r => { r with mrange := windowStore 47 (1#64 <<< 63) v }) s
  | 0x13A => modExc site t (fun e => { e with depc := v &&& ~~~ 7#64 }) s
  | 0x13D => modExc site t (fun e => { e with dfstk := v }) s
  | 0x161 => modCore site (fun c => { c with mmu := { c.mmu with ptbr := v &&& ~~~ (maskOf 62 62 ||| maskOf 11 0) } }) s
  | 0x162 => modCore site (fun c => { c with mmu := tlbInvalidate v c.mmu }) s
  | 0x170 => modComm site t (fun k => { k with chcfg := chcfgStore v k.chcfg }) s
  | 0x172 => modComm site t (fun k => { k with chsbidx := v.setWidth 5 }) s
  | 0x173 => modComm site t (fun k => { k with sendBuf := mset k.sendBuf k.chsbidx.toNat v, chsbidx := k.chsbidx + 1 }) s
  | 0x181 => modComm site t (fun k => { k with syncev := BitVec.ofNat 64 (max 8 (fld v 4 0)) }) s
  | 0x190 => if isCcSite site then ccwdWrite site v s else s
  | k =>
    if 0x140 ≤ k && k ≤ 0x143 then
      modReach site t (fun r => { r with uwin := mset r.uwin (k - 0x140) (windowStore 47 (7#64 <<< 61) v) }) s
    else if 0x150 ≤ k && k ≤ 0x15F then
      modCore site (fun c => { c with caches := { c.caches with
        rat := mset c.caches.rat (k - 0x150)
          (windowStore 47 (1#64 <<< 63) v ||| mk 58 56 (if 4 < fld v 58 56 then 0 else fld v 58 56)) } }) s
    else s

end Sys2Proof.Machine
end

