-- ==== Sys2Proof/Machine/Debug.lean ====
section
/-! DEFINITION. The debugger's registers of a core: halts, steps, and access to a halted thread's state (23 R569 to R571). -/

namespace Sys2Proof.Machine

open Sys2Proof

/-! ### Halt, resume, step -/

/-- A halt may be taken: with an unlock of scope 1 only below the machine level (23 R569). -/
def mayHalt (s : State) (h : Thread) : Bool := dbgMode s != 1 || lvlOf h != .machine

/-- Threads that a debug mask names: thread 0 alone on a control core. -/
def dbgThreads (site : Nat) (mask : BitVec 4) : List (Fin 4) :=
  threadsOf.filter (fun t => mask.getLsbD t.val && hasThread site t)

/-- A pending halt is taken. -/
def takeHalt (site : Nat) (t : Fin 4) (s : State) : State :=
  if (getCore s site).dbg.pendHalt.getLsbD t.val && mayHalt s (getThr s site t) then haltThread site t s else s

/-- A halt is requested: at once for a thread that does not hold the slot, else at its next word boundary. -/
def requestHalt (site : Nat) (t : Fin 4) (s : State) : State :=
  if (getThr s site t).halted then s
  else
    let s1 := modCore site (fun c => { c with dbg := { c.dbg with pendHalt := c.dbg.pendHalt ||| (1#4 <<< t.val) } }) s
    if (getThr s site t).run = .running then s1 else takeHalt site t s1

/-- Messages that a halted thread has kept: the grant of its LOCK and the notice of its BAR. -/
def keptMessage (s : State) (site : Nat) (t : Fin 4) (p : Packet) : Bool :=
  p.delivered && p.dsite == site && p.ddev == ownDev s && p.mc.isNone &&
  match p.body with
  | .grant _ _ _ _ _ u => u == t
  | .notice _ _ _ _ w _ => w.getLsbD t.val
  | _ => false

/-- What a thread kept while it was halted acts now: messages, the answer to its blocking send, event bits, endpoints and the hod's
ring. -/
def reviewWait (site : Nat) (t : Fin 4) (s : State) : State :=
  let s1 := (s.packets.filter (keptMessage s site t)).foldl (fun st p =>
    releaseNotice p.id (grantArrival p.id st)) s
  afterEvent site t (serveReceiver site t (serveHodWait site t (useAnswer site t s1)))

def discardSendBuf (site : Nat) (t : Fin 4) (s : State) : State := modComm site t (fun c => { c with sendBuf := [] }) s

/-- A halted thread resumes, for one word if `step`. One that was parked stays parked, and a step of it is over at once. -/
def resumeThread (site : Nat) (step discard : Bool) (t : Fin 4) (s : State) : State :=
  let h := getThr s site t
  if !h.halted then s
  else
    let parked := h.run = .parked
    let s1 := if discard then discardSendBuf site t s else s
    let s2 := traceRec site 8 t 0 (modThr site t (fun h => { h with
      halted := false, stepOne := step && !parked, stepped := if step then parked else h.stepped }) s1)
    reviewWait site t (modCore site (fun c => { fillSlot c with idleSince := none }) s2)

/-- A write of CORE_DBGCTL (23 Table 23.5): HALT before the other bits of a thread, STEP before RESUME. -/
def dbgControl (site : Nat) (halt resume step discard : BitVec 4) (s : State) : State :=
  if (getCore s site).power = .on then
    let s1 := (dbgThreads site ((resume ||| step) &&& ~~~ halt)).foldl (fun st t =>
      resumeThread site (step.getLsbD t.val) (discard.getLsbD t.val) t st) s
    (dbgThreads site halt).foldl (fun st t => requestHalt site t st) s1
  else s

def execDbgHalt (site : Site) (mask : BitVec 4) (s : State) : Host.Outcome State Fault Refusal :=
  if hasThreads site then .next (dbgControl site mask 0 0 0 s) else .fault .noAgent
def execDbgResume (site : Site) (mask : BitVec 4) (s : State) : Host.Outcome State Fault Refusal :=
  if hasThreads site then .next (dbgControl site 0 mask 0 0 s) else .fault .noAgent
def execDbgStep (site : Site) (mask : BitVec 4) (s : State) : Host.Outcome State Fault Refusal :=
  if hasThreads site then .next (dbgControl site 0 0 mask 0 s) else .fault .noAgent
/-- DISCSB with RESUME: the send buffers are cleared as the threads resume. -/
def execDbgDiscsb (site : Site) (mask : BitVec 4) (s : State) : Host.Outcome State Fault Refusal :=
  if hasThreads site then .next (dbgControl site 0 mask 0 mask s) else .fault .noAgent
def execHaltTaken (site : Site) (thr : Fin 4) (s : State) : Host.Outcome State Fault Refusal :=
  if hasThread site thr then .next (takeHalt site thr s) else .fault .noAgent

/-- CORE_DBGSTAT (23 Table 23.6). -/
def dbgStat (site : Nat) (c : Core) : Word :=
  let set := fun (f : Fin 4 → Bool) => threadsOf.foldl (fun a t => a + (if hasThread site t && f t then 2 ^ t.val else 0)) 0
  mk 47 40 c.dbg.err.toNat ||| mk 15 12 c.dbg.pendHalt.toNat ||| mk 11 8 (set (fun t => (coreThr c t).stepped)) |||
  mk 3 0 (set (fun t => (coreThr c t).halted))

/-! ### CORE_DBGSEL and CORE_DBGDATA (23 Tables 23.7, 23.8) -/

/-- Highest index of a space. -/
def dbgLast (space : Nat) : Nat :=
  match space with
  | 0 => 31 | 1 => 0 | 2 => 0xFFF | 3 => 511 | 4 => 2047 | 5 => 31 | _ => 65535

def dbgSelWrite (site : Nat) (v : Word) (c : Core) : Core :=
  let space := if 6 < fld v 59 56 then 0 else fld v 59 56
  let thr := if isCcSite site then 0 else fld v 61 60
  { c with dbg := { c.dbg with dbgsel := mk 61 60 thr ||| mk 59 56 space ||| mk 31 0 (min (dbgLast space) (fld v 31 0)) } }

/-- IDX advances, and wraps past the range. -/
def dbgAdvance (c : Core) : Core :=
  let w := c.dbg.dbgsel
  let i := fld w 31 0
  { c with dbg := { c.dbg with dbgsel := setFld w 31 0 (if i < dbgLast (fld w 59 56) then i + 1 else 0) } }

/-- Rows and columns of an accumulator (07 Table 7.3). -/
def accRows (a : Acc) : Nat := 8 * fld a.conf 12 8
def accCols (a : Acc) : Nat := 8 * fld a.conf 3 0
def getAcc (s : State) (site n : Nat) : Acc := mget (getCore s site).mx.accs n Acc.reset
def modAcc (site n : Nat) (f : Acc → Acc) (s : State) : State :=
  modCore site (fun c => { c with mx := { c.mx with accs := mset c.mx.accs n (f (mget c.mx.accs n Acc.reset)) } }) s

/-- Accumulator that an operation names. -/
def opAcc : TileOp → Nat
  | .tmma t _ _ _ _ => t.val - 8
  | .tscale t _ => t.val - 8
  | .tzero t => t.val - 8

/-- A slot's configuration takes in register r of thread t (07 R184). -/
def slotHolds (conf : Word) (t : Fin 4) (r : Nat) : Bool :=
  let g := 2 ^ fld conf 53 52
  bit conf 63 && decide (fld conf 51 50 ≤ t.val) && decide (t.val < fld conf 51 50 + g) &&
  decide (fld conf 49 45 ≤ r) && decide (r < fld conf 49 45 + fld conf 44 39)

/-- A write to a register of a latched slot invalidates the latch. -/
def dropLatches (t : Fin 4) (r : Nat) (c : Core) : Core :=
  let keep := fun (l : Option Nat) => match l with
    | some k => if slotHolds (mget c.mx.slots k 0) t r then none else some k
    | none => none
  if c.mx.latchA.isNone && c.mx.latchB.isNone then c
  else { c with mx := { c.mx with latchA := keep c.mx.latchA, latchB := keep c.mx.latchB } }

/-- An element is written with its code (07 R206). -/
def putElem (i : Nat) (v : BitVec 32) (a : Acc) : Acc :=
  { a with elems := mset a.elems i v, codes := mset a.codes i (BitVec.ofNat 3 (v.toNat % 7)) }

/-- The stored code of an element fails to match it. -/
def codeBad (a : Acc) (i : Nat) : Bool := mget a.codes i 0 != BitVec.ofNat 3 ((mget a.elems i 0).toNat % 7)

/-- An operation on an accumulator is outstanding. -/
def accBusy (c : Core) (n : Nat) : Bool := c.mx.queue.any (fun o => opAcc o.op == n)

/-- Error code of an access (23 Table 23.6), 0 where it may be made. -/
def dbgError (s : State) (site : Nat) : Nat :=
  let c := getCore s site
  let w := c.dbg.dbgsel
  let t : Fin 4 := Fin.ofNat 4 (fld w 61 60)
  let space := fld w 59 56
  let i := fld w 31 0
  if space ≠ 4 && !(coreThr c t).halted then 1
  else if space = 2 then
    (if (csrLevels (isCcSite site) i).isNone then 2 else if dbgMode s = 1 && csrMachineOnly i then 3 else 0)
  else if space = 6 then
    let a := getAcc s site (i / 8192)
    if isCcSite site || !bit a.conf 63 || accRows a * accCols a ≤ i % 8192 then 2
    else if a.inc then 4 else 0
  else 0

/-- Item read. -/
def dbgItem (s : State) (site : Nat) (t : Fin 4) (space i : Nat) : Word :=
  let c := getCore s site
  let h := coreThr c t
  match space with
  | 0 => readGr h (Fin.ofNat 32 i)
  | 1 => zext h.preds ||| 1
  | 2 => (csrRead s site t i).getD 0
  | 3 => (readV h (Fin.ofNat 32 (i / 16)) >>> (64 * (i % 16))).setWidth 64
  | 4 => mget c.bits i 0
  | 5 => mget h.comm.sendBuf i 0
  | _ =>
    let a := getAcc s site (i / 8192)
    zext (mget a.elems (i % 8192 / accCols a * 64 + i % 8192 % accCols a) 0)

/-- Predicates written as MOVGP writes them (03 R79). -/
def predsOf (v : Word) : BitVec 8 := (v.setWidth 8) ||| 1

/-- Item written. -/
def dbgPut (site : Nat) (t : Fin 4) (space i : Nat) (v : Word) (s : State) : State :=
  match space with
  | 0 => modThr site t (writeGr (Fin.ofNat 32 i) v) s
  | 1 => modThr site t (fun h => { h with preds := predsOf v }) s
  | 2 => csrStore site t .machine i (csrCombine .w i ((csrRead s site t i).getD 0) v) s
  | 3 => modCore site (dropLatches t (i / 16)) <| modThr site t (fun h =>
      let r : Reg := Fin.ofNat 32 (i / 16)
      let sh := 64 * (i % 16)
      writeV r ((readV h r &&& ~~~ ((BitVec.ofNat 1024 (2 ^ 64 - 1)) <<< sh)) ||| (v.setWidth 1024 <<< sh)) h) s
  | 4 => modCore site (fun c => { c with bits := mset c.bits i v }) s
  | 5 => modComm site t (fun c => { c with sendBuf := mset c.sendBuf i v }) s
  | _ =>
    modAcc site (i / 8192) (fun a => putElem (i % 8192 / accCols a * 64 + i % 8192 % accCols a) (v.setWidth 32) a) s

def setDbgErr (site e : Nat) (s : State) : State :=
  modCore site (fun c => { c with dbg := { c.dbg with err := BitVec.ofNat 8 e } }) s

/-- The access must wait for an operation on its accumulator. -/
def dbgHeld (s : State) (site : Nat) : Bool :=
  let w := (getCore s site).dbg.dbgsel
  fld w 59 56 == 6 && dbgError s site == 0 && accBusy (getCore s site) (fld w 31 0 / 8192)

/-- One access of CORE_DBGDATA: value read and state, none while it is held. -/
def dbgData (site : Nat) (w : Option Word) (s : State) : Option (Word × State) :=
  let sel := (getCore s site).dbg.dbgsel
  let t : Fin 4 := Fin.ofNat 4 (fld sel 61 60)
  let space := fld sel 59 56
  let i := fld sel 31 0
  let e := dbgError s site
  let done := fun (st : State) => modCore site dbgAdvance (setDbgErr site e st)
  if e ≠ 0 then some (0, done s)
  else if dbgHeld s site then none
  else match w with
    | some v => some (0, done (dbgPut site t space i v s))
    | none => some (dbgItem s site t space i, done (if space = 2 then csrReadEffect site t i s else s))

def dbgDataAccess (site : Nat) (w : Option Word) (s : State) : State :=
  if (getCore s site).power = .on then
    match dbgData site w s with | some r => r.2 | none => s
  else s

def execDbgdataAccess (site : Site) (w : Option (BitVec 64)) (s : State) : Host.Outcome State Fault Refusal :=
  if hasThreads site then .next (dbgDataAccess site w s) else .fault .noAgent

/-- CORE_TRCCTL (23 Table 23.10). -/
def coreTrcctl (site : Nat) (v : Word) (s : State) : State := if coreRuns s site then traceCtlWrite site v s else s

def execCoreTrcctlEnable (site : Site) (v : BitVec 64) (s : State) : Host.Outcome State Fault Refusal :=
  if hasThreads site then .next (coreTrcctl site v s) else .fault .noAgent

end Sys2Proof.Machine
end

