-- ==== Sys2Proof/Machine/Regs.lean ====
section
/-! DEFINITION. The register blocks (10 R273 to R279): which registers exist, the level they need, their values and what a store does.
Every requester comes through `regAccess`: threads, hods, the debugger, I3C and single writes. -/

namespace Sys2Proof.Machine

open Sys2Proof

/-! ### Distances (10 R282) -/

/-- Links on the primary route from a site to a site, under the tables and the maps of the controller's last update. -/
def routeHops (s : State) (dst : Nat) : Nat → Nat → Option Nat
  | 0, site => if site = dst then some 0 else none
  | fuel + 1, site =>
    if site = dst then some 0
    else
      let e := mget (mget s.top.distTables site []) dst 0
      if siteState s site != 3 && entryValid e then
        match neighbour site (entryPri e) with
        | some n => (routeHops s dst fuel n).map (· + 1)
        | none => none
      else none

/-- The core of a logical number, where the maps show it in service. -/
def logicalCore (s : State) (l : Nat) : Option Nat :=
  let site := (mget s.top.l2s l 0xFFFF).toNat
  if l < s.top.cores.toNat && siteState s site == 1 then some site else none

/-- TOP_DMEM entry: hops from logical core l to node k. -/
def distNode (s : State) (l k : Nat) : Nat :=
  match logicalCore s l with
  | some site => if siteState s (nodeSite k) = 1 then (routeHops s (nodeSite k) 254 site).getD 0xFF else 0xFF
  | none => 0xFF

/-- TOP_DCLU entry: hops from logical core l to the nearest core in service of cluster c. -/
def distCluster (s : State) (l c : Nat) : Nat :=
  match logicalCore s l with
  | some site =>
    if clusterOf site = c then 0
    else ((clusterSites c).filter (fun x => isCoreSite x && siteState s x == 1)).foldl
      (fun m x => min m ((routeHops s x 254 site).getD 0xFF)) 0xFF
  | none => 0xFF

/-! ### Device blocks -/

/-- Eight entries of `w` bytes from index i, as a word. -/
def packed (w i : Nat) (f : Nat → Nat) : Word :=
  BitVec.ofNat 64 (leNat ((List.range (8 / w)).flatMap (fun j => leBytes w (f (i + j)))))

/-- The topology block (10 Table 10.4). -/
def topRead (s : State) (off : Nat) : Option Word :=
  let t := s.top
  if off = 0 then some (featuresWord s)
  else if off = 8 then some (mk 25 24 t.role.toNat ||| mk 8 0 t.devid.toNat)
  else if off = 0x10 then some (zext t.gen)
  else if off = 0x18 then some (mk 55 40 t.portMap.toNat ||| mk 39 24 t.ccMap.toNat ||| mk 23 0 t.stackMap.toNat)
  else if off = 0x20 then some (t.gruMap.setWidth 64)
  else if off = 0x28 then some ((t.gruMap >>> 64).setWidth 64)
  else match inArray off 0x100 8 8, inArray off 0x1000 8 64, inArray off 0x2000 8 448, inArray off 0x3000 8 512,
      inArray off 0x10000 8 21504, inArray off 0x40000 8 28672 with
    | some h, _, _, _, _, _ =>
      let p := getPace s h
      some (mk 55 40 p.max.toNat ||| mk 39 24 p.min.toNat ||| mk 23 8 p.rate.toNat ||| mk 7 0 p.upd.toNat)
    | _, some n, _, _, _, _ =>
      some (BitVec.ofNat 64 ((List.range 32).foldl (fun a j => a + siteState s (32 * n + j) * 4 ^ j) 0))
    | _, _, some i, _, _, _ => some (packed 2 (4 * i) (fun l => if l < t.cores.toNat then (mget t.l2s l 0xFFFF).toNat else 0xFFFF))
    | _, _, _, some i, _, _ => some (packed 2 (4 * i) (fun x => (mget t.s2l x 0xFFFF).toNat))
    | _, _, _, _, some i, _ => some (packed 1 (8 * i) (fun x => distNode s (x / 96) (x % 96)))
    | _, _, _, _, _, some i => some (packed 1 (8 * i) (fun x => distCluster s (x / 128) (x % 128)))
    | _, _, _, _, _, _ => none

/-- Offsets whose entries may be loaded in 1, 2 and 4 B (10 R276). -/
def topTable (off : Nat) : Bool :=
  (decide (0x2000 ≤ off) && decide (off < 0x2E00)) || (decide (0x3000 ≤ off) && decide (off < 0x4000)) ||
  (decide (0x10000 ≤ off) && decide (off < 0x3A000)) || (decide (0x40000 ≤ off) && decide (off < 0x78000))

def topWrite (off : Nat) (v : Word) (s : State) : State :=
  match inArray off 0x100 8 8 with
  | some h => if bit v 63 then paceClear h s else s
  | none => s

/-- The IMG_ block (18). -/
def imgRead (s : State) (off : Nat) : Option Word :=
  let i := s.img
  if off = 0 then some 0
  else if off = 8 then
    some (mk 39 32 i.last.toNat ||| mk 23 16 i.sect.toNat ||| bitAt 9 i.enign ||| bitAt 8 i.owner ||| mk 3 0 (imgCode i.state))
  else if off = 0x10 then some (BitVec.ofNat 64 (i.src / 64 * 64))
  else if off = 0x18 then some (zext i.lim)
  else if off = 0x20 then some i.serial
  else match inArray off 0x40 8 4 with
    | some n => some ((i.meas >>> (64 * n)).setWidth 64)
    | none => none

def imgWrite (off : Nat) (v : Word) (s : State) : State :=
  if off = 0 then loaderCommand (if 6 < fld v 3 0 then 0 else fld v 3 0) false s
  else if off = 8 then { s with img := { s.img with enign := s.img.enign && !bit v 9 } }
  else if off = 0x10 then { s with img := { s.img with src := fld v 47 6 * 64 } }
  else if off = 0x18 then { s with img := { s.img with lim := BitVec.ofNat 16 (clampNat 1 65535 (fld v 15 0)) } }
  else s

/-- MGT_GPIO (24 Table 24.5): a driven land is at its OUT level, another where the board holds it. -/
def gpioWord (s : State) : Word :=
  let m := s.mgt
  let lvl := (m.out &&& m.oe) ||| (Config.gpioLevel s.aoc &&& ~~~ m.oe)
  mk 63 56 m.pinmap.toNat ||| mk 55 52 m.modid.toNat ||| bitAt 48 m.fmode ||| mk 11 8 lvl.toNat ||| mk 7 4 m.out.toNat |||
    mk 3 0 m.oe.toNat

/-- The MGT_ block (19 Tables 19.4 to 19.9). -/
def mgtRead (s : State) (off : Nat) : Option Word :=
  let m := s.mgt
  if off = 0x2000 then some (mk 55 52 m.rlog.toNat ||| mk 47 0 m.base ||| bitAt 1 m.qerr ||| bitAt 0 m.en)
  else if off = 0x2008 then some (mk 63 32 m.dropped.toNat ||| mk 31 0 m.prod.toNat)
  else if off = 0x2010 then some (zext m.cons)
  else if off = 0x2018 then some (mk 37 32 m.fwd.toNat ||| mk 12 0 m.noteThid.toNat)
  else if off = 0x2020 then some (zext m.tmo)
  else if off = 0x2028 then some 0
  else if off = 0x3000 then some (gpioWord s)
  else none

def mgtWrite (off : Nat) (v : Word) (s : State) : State :=
  if off = 0x2000 then errqWrite v s
  else if off = 0x2010 then errconsWrite v s
  else if off = 0x2018 then
    modMgt (fun m => { m with fwd := BitVec.ofNat 6 (fld v 37 32), noteThid := BitVec.ofNat 13 (clampNat 7168 7183 (fld v 12 0)) }) s
  else if off = 0x2020 then modMgt (fun m => { m with tmo := BitVec.ofNat 17 (clampNat 4096 65536 (fld v 16 0)) }) s
  else if off = 0x2028 then controllerFence (fld v 63 61) (fld v 10 0) 2 s
  else if off = 0x3000 then modMgt (fun m => { m with out := BitVec.ofNat 4 (fld v 7 4), oe := BitVec.ofNat 4 (fld v 3 0) }) s
  else s

/-- The RST_ block (21 R549). -/
def rstRead (s : State) (off : Nat) : Option Word :=
  let r := s.rst
  if off = 0 then some (mk 31 16 r.also.toNat ||| mk 15 8 r.detail.toNat ||| mk 7 0 r.src.toNat)
  else if off = 8 then some 0
  else if off = 0x10 then
    some (mk 51 48 r.failcnt.toNat ||| bitAt 47 r.recovery ||| bitAt 46 r.bootdone ||| bitAt 45 r.opterr ||| mk 44 43 r.optsrc.toNat |||
      bitAt 42 (r.forceHbm || r.forceSds) ||| bitAt 41 r.cghbm ||| bitAt 40 r.cgsds ||| bitAt 39 r.cgmgt)
  else match inArray off 0x40 8 8, inArray off 0x100 8 8, inArray off 0x8000 8 8, inArray off 0x8040 8 504 with
    | some n, _, _, _ => some (packed 1 (8 * n) (fun i => (mget r.opt i 0).toNat))
    | _, some n, _, _ => some (zext (mget r.bkp n 0))
    | _, _, some n, _ => some (Config.sequencerWord n r.src.toNat r.failcnt.toNat)
    | _, _, _, some n => some (BitVec.ofNat 64 (leNat (Memory.readN r.sram (0x40 + 8 * n) 8)))
    | _, _, _, _ => none

/-- RST_CTL: BOOTOK, MKICK and FORCE act before a SWRESET of the same write. -/
def rstCtlWrite (v : Word) (s : State) : State :=
  let s1 := if bit v 62 then bootokEffect s else s
  let s2 := if bit v 61 then mkickEffect s1 else s1
  let s3 := if fld v 57 56 = 0 then s2 else forceRelease (BitVec.ofNat 2 (fld v 57 56)) s2
  if bit v 63 then resetIfPowered 6 0 s3 else s3

def rstWrite (off : Nat) (v : Word) (s : State) : State :=
  if off = 8 then rstCtlWrite v s
  else match inArray off 0x100 8 8, inArray off 0x8040 8 504 with
    | some n, _ => modRst (fun r => { r with bkp := mset r.bkp n (v.setWidth 32) }) s
    | _, some n => modRst (fun r => { r with sram := Memory.writeN r.sram (0x40 + 8 * n) (leBytes 8 v.toNat) }) s
    | _, _ => s

/-- The PWR_ block (21 Tables 21.9 to 21.12). -/
def pwrRead (s : State) (off : Nat) : Option Word :=
  let p := s.pwr
  let paced := (List.range 8).foldl (fun a h => a + (if (getRail s h).duty.toNat < 128 then 2 ^ h else 0)) 0
  if off = 0 then some (mk 47 32 p.plim.toNat ||| mk 31 16 p.slew.toNat ||| mk 15 8 p.throt.toNat ||| mk 2 0 p.wevb.toNat)
  else if off = 8 then
    some (mk 63 56 p.thr.toNat ||| mk 55 48 paced ||| mk 47 40 p.hwarn.toNat ||| bitAt 35 p.swarn ||| bitAt 34 p.bwarn |||
      bitAt 33 p.mwarn ||| bitAt 32 p.iwarn)
  else if off = 0x10 then some (mk 63 48 p.draw.toNat ||| mk 47 32 p.ballast.toNat ||| mk 31 16 p.vin.toNat)
  else match inArray off 0x40 8 8 with
    | some h =>
      let r := getRail s h
      some (mk 47 40 r.tj.toNat ||| mk 39 32 r.duty.toNat ||| mk 31 16 r.vset.toNat ||| mk 15 0 r.vmeas.toNat)
    | none => none

def pwrWrite (off : Nat) (v : Word) (s : State) : State :=
  if off = 0 then
    modPwr (fun p => { p with
      plim := BitVec.ofNat 16 (clampNat 2000 4200 (fld v 47 32)), slew := BitVec.ofNat 16 (clampNat 50 2000 (fld v 31 16)),
      throt := BitVec.ofNat 8 (clampNat 90 105 (fld v 15 8)), wevb := BitVec.ofNat 3 (clampNat 2 7 (fld v 2 0)) }) s
  else if off = 8 then
    -- the monitor sets the bit of a rail that is still low again in the same access (21 R542)
    modPwr (fun p => p.low.foldl (fun q r => setWarnBit r q) { p with
      hwarn := p.hwarn &&& ~~~ (BitVec.ofNat 8 (fld v 47 40)), swarn := p.swarn && !bit v 35, bwarn := p.bwarn && !bit v 34,
      mwarn := p.mwarn && !bit v 33, iwarn := p.iwarn && !bit v 32 }) s
  else s

/-- The SEC_ block (20). -/
def secRead (s : State) (off : Nat) : Option Word :=
  let x := s.sec
  if off = 0 then
    some (mk 59 56 x.state.toNat ||| mk 55 48 (svnFused s) ||| mk 47 40 x.svnr.toNat ||| bitAt 7 x.ownreq ||| bitAt 6 x.dbgen |||
      bitAt 5 x.idgen ||| bitAt 4 x.kill ||| bitAt 3 x.idblk ||| bitAt 2 x.owncs ||| mk 1 0 (dbgMode s))
  else if off = 8 then some 0
  else if off = 0x10 then some (bitAt 63 x.busy ||| mk 55 48 x.result.toNat ||| mk 3 0 x.cmd.toNat)
  else if off = 0x18 then some (mk 51 48 x.fails.toNat ||| mk 15 8 x.count.toNat ||| mk 4 0 x.src.toNat)
  else match inArray off 0x40 8 4, inArray off 0x80 8 8 with
    | some n, _ => some ((x.fwmeas >>> (64 * n)).setWidth 64)
    | _, some n => some (if x.idgen && !x.kill then (x.idpub >>> (64 * n)).setWidth 64 else 0)
    | _, _ => none

/-- SEC_CMD (20 Table 20.8, R514): ignored while a command runs. Whether the fuse words that the command programs verify is a free value
(log 30). -/
def secCommand (cmd : Nat) (a : BitVec 48) (s : State) : State :=
  let f := drawFree 8 s
  let ok : FuseEnd := if f.1.getLsbD 0 then .mismatch (f.1.toNat / 2) else .done
  if s.sec.busy then s
  else match cmd with
  | 1 => lcadvEffect ok f.2
  | 2 => genidEffect ok f.2
  | 3 => provisionEffect a ok f.2
  | 4 => returnEffect a ok f.2
  | 5 => eolEffect ok f.2
  | 6 => advsvnEffect ok f.2
  | 7 => attestEffect a false s
  | 8 => killEffect ok f.2
  | _ => s

def secWrite (off : Nat) (v : Word) (s : State) : State :=
  if off = 8 then secCommand (fld v 3 0) (BitVec.ofNat 48 (fld v 47 6 * 64)) s
  else if off = 0x18 then modSec (fun x => { x with src := x.src &&& ~~~ (BitVec.ofNat 5 (fld v 4 0)) }) s
  else s

/-- The KLN_ block (22 Tables 22.3 to 22.6). -/
def klnRead (s : State) (off : Nat) : Option Word :=
  let k := s.kln
  if off = 0 then some 0
  else if off = 8 then some (mk 63 62 k.state.toNat ||| mk 47 40 k.last.toNat ||| mk 15 0 k.slice.toNat)
  else if off = 0x10 then
    some (mk 63 48 k.lost.toNat ||| mk 47 32 k.log.length ||| mk 31 16 k.disabled.toNat ||| mk 15 0 (4096 - k.fuses.length))
  else match inArray off 0x1000 16 512, inArray off 0x1008 16 512 with
    | some i, _ =>
      let e := k.log.getD i (0, 0, 0, 0, 0)
      some (mk 15 0 e.1 ||| mk 23 16 e.2.1 ||| mk 31 24 e.2.2.1 ||| mk 63 32 e.2.2.2.1)
    | _, some i => some (BitVec.ofNat 64 (k.log.getD i (0, 0, 0, 0, 0)).2.2.2.2)
    | _, _ => none

def klnWrite (who : Option Nat) (off : Nat) (v : Word) (s : State) : State :=
  if off = 0 && bit v 63 then kilnGo who (if 8 < fld v 15 12 then 0 else fld v 15 12) (fld v 11 0) s else s

/-- The SYN_ block of a cluster (15 Table 15.1). -/
def synRead (s : State) (c off : Nat) : Option Word :=
  let u := getUnit s c
  if off = 0 then some (mk 63 56 u.epoch.toNat ||| bitAt 16 (s.img.desig == c) ||| mk 14 8 s.img.desig ||| mk 6 0 c)
  else if off = 8 then some u.pace
  else if off = 0x10 then some (zext u.ratio)
  else if off = 0x18 then some (mk 63 32 u.noslot.toNat ||| mk 8 0 u.watches.length)
  else match inArray off 0x400 8 64, inArray off 0x600 8 64, inArray off 0x800 8 256, inArray off 0x1000 16 64, inArray off 0x1008 16 64 with
    | some b, _, _, _, _ => some (barWord s c b)
    | _, some b, _, _, _ =>
      let x := getBar s c b
      some (mk 63 62 x.scope.toNat ||| mk 61 55 x.lexp.toNat ||| mk 51 39 x.total.toNat ||| mk 38 30 x.gdev.toNat)
    | _, _, some n, _, _ => some (lockWord (getLock s c n))
    | _, _, _, some b, _ => some (getBar s c b).maskLo
    | _, _, _, _, some b => some (getBar s c b).maskHi
    | _, _, _, _, _ => none

def synWrite (c off : Nat) (v : Word) (s : State) : State :=
  match inArray off 0x400 8 64, inArray off 0x600 8 64, inArray off 0x800 8 256, inArray off 0x1000 16 64, inArray off 0x1008 16 64 with
  | some b, _, _, _, _ => if bit v 31 then evalWatches c (modBar c b (fun x => { x with err := false }) s) else s
  | _, some b, _, _, _ => writeBcfg c b v s
  | _, _, some n, _, _ => if bit v 61 then evalWatches c (modLock c n (fun l => { l with err := false }) s) else s
  | _, _, _, some b, _ => modBar c b (fun x => { x with maskLo := v }) s
  | _, _, _, _, some b => modBar c b (fun x => { x with maskHi := v }) s
  | _, _, _, _, _ => s

/-! ### Site blocks -/

/-- CORE_ registers (05, 07, 08, 23), CORE_DBGDATA apart. -/
def coreRead (s : State) (site off : Nat) : Option Word :=
  let c := getCore s site
  if off = 0x400 then
    (if isCoreSite site then some (mk 63 32 c.mx.replays.toNat ||| bitAt 31 c.mx.fenced ||| bitAt 30 c.mx.spare ||| mk 29 25 c.mx.scol.toNat)
     else none)
  else if off = 0x408 then (if isCoreSite site then some c.mx.cols else none)
  else if off = 0x800 then some 0
  else if off = 0x808 then some (dbgStat site c)
  else if off = 0x810 then some c.dbg.dbgsel
  else if off = 0x818 then some 0
  else if off = 0x900 then some c.dbg.pmsel
  else if off = 0xA00 then some c.dbg.trcctl
  else if off = 0xA08 then some (mk 63 32 c.dbg.trclost.toNat ||| mk 31 0 c.dbg.trcprod.toNat)
  else match inArray off 0x200 8 4, inArray off 0x908 8 4 with
    | some _, _ => some 0
    | _, some n => some (mget c.dbg.pmcnt n 0)
    | _, _ => none

/-- Counter events that count steps of the issue port, which the model leaves open: a counter that counts one reads a free value (23 R573,
assumption log 62). -/
def stepEvent (ev : Nat) : Bool := ev = 1 || ev = 5 || ev = 6 || ev = 0xC

/-- A counter of step events takes a free value as it is read. -/
def openCount (site n : Nat) (s : State) : State :=
  let w := (getCore s site).dbg.pmsel
  if stepEvent (fld w (16 * n + 7) (16 * n)) && !isCcSite site && fld w (16 * n + 15) (16 * n + 12) != 0 then
    let f := drawFree 64 s
    modCore site (fun c => { c with dbg := { c.dbg with pmcnt := mset c.dbg.pmcnt n f.1 } }) f.2
  else s

/-- CORE_PMSEL as a write stores it (23 R573). -/
def pmselStore (v : Word) : Word :=
  foldN 4 (fun n w =>
    let ev := fld v (16 * n + 7) (16 * n)
    w ||| mk (16 * n + 7) (16 * n) (if 0xF < ev then 0 else ev) ||| mk (16 * n + 15) (16 * n + 12) (fld v (16 * n + 15) (16 * n + 12))) 0

def coreWrite (site off : Nat) (lvl : Level) (v : Word) (s : State) : State :=
  if !coreRuns s site then s
  else if off = 0x800 then
    dbgControl site (BitVec.ofNat 4 (fld v 3 0)) (BitVec.ofNat 4 (fld v 7 4)) (BitVec.ofNat 4 (fld v 11 8)) (BitVec.ofNat 4 (fld v 15 12)) s
  else if off = 0x810 then modCore site (dbgSelWrite site v) s
  else if off = 0x900 then modCore site (fun c => { c with dbg := { c.dbg with pmsel := pmselStore v } }) s
  else if off = 0xA00 then traceCtlWrite site v s
  else match inArray off 0x200 8 4, inArray off 0x908 8 4 with
    | some t, _ => setEvents site (Fin.ofNat 4 t) lvl (v.setWidth 32) s
    | _, some n => modCore site (fun c => { c with dbg := { c.dbg with pmcnt := mset c.dbg.pmcnt n v } }) s
    | _, _ => s

/-- EN, PEND and STATE of an enable in bits [3:0]. -/
def enableBits (e : Enable) : Word := mk 3 2 (gateCode e.gate) ||| bitAt 1 e.pend ||| bitAt 0 e.en

/-- HOD_ registers (13 Tables 13.2 to 13.4). -/
def hodRead (s : State) (site off : Nat) : Option Word :=
  match inArray off 0 0x20 4, inArray off 8 0x20 4, inArray off 0x10 0x20 4 with
  | some t, _, _ =>
    let r := getRing s site (Fin.ofNat 4 t)
    some (mk 39 25 r.hdr.toNat ||| mk 17 16 (levelCode r.lvl) ||| mk 15 8 r.err.toNat ||| bitAt 7 r.perr ||| enableBits r.ctl)
  | _, some t, _ =>
    let r := getRing s site (Fin.ofNat 4 t)
    some (mk 63 48 r.cred ||| mk 44 32 r.out ||| mk 27 16 (hodSlot r r.take))
  | _, _, some t =>
    let r := getRing s site (Fin.ofNat 4 t)
    some (mk 63 32 r.take.toNat ||| mk 31 0 r.next.toNat)
  | _, _, _ => none

def hodWrite (site off : Nat) (lvl : Level) (v : Word) (s : State) : State :=
  match inArray off 0 0x20 4 with
  | some t => hodRctl site (Fin.ofNat 4 t) lvl v s
  | none => s

/-- CHN_ registers (14 Tables 14.2 to 14.4). -/
def chnRead (s : State) (site off : Nat) : Option Word :=
  match inArray off 0 0x20 16, inArray off 8 0x20 16, inArray off 0x10 0x20 16 with
  | some x, _, _ =>
    let e := getEnd s site x
    some (mk 39 25 e.hdr.toNat ||| mk 21 20 e.minlvl.toNat ||| mk 19 18 e.ownt.toNat ||| bitAt 17 e.even ||| mk 16 12 e.evb.toNat |||
      mk 11 8 e.err.toNat ||| enableBits e.ctl)
  | _, some x, _ => some (mk 63 32 (getEnd s site x).prod.toNat ||| mk 31 0 (getEnd s site x).cons.toNat)
  | _, _, some x =>
    let e := getEnd s site x
    some (mk 63 48 e.nacks.toNat ||| mk 28 16 e.resv ||| mk 6 0 e.tokens.length)
  | _, _, _ => none

def chnWrite (site off : Nat) (v : Word) (s : State) : State :=
  match inArray off 0 0x20 16, inArray off 0x10 0x20 16 with
  | some x, _ => chnEpctl site x v s
  | _, some x => if 8 ≤ x && bit v 47 then cancelToken site (x - 8) (fld v 45 40) s else s
  | _, _ => s

/-- Highest index of a routing table, and its entry (12 Tables 12.11, 12.12). -/
def rtLast (tbl : Nat) : Nat := if tbl = 0 then 2047 else if tbl = 1 then 511 else 127

/-- MSH_ registers (12 Tables 12.7 to 12.14). -/
def mshRead (s : State) (site off : Nat) : Option Word :=
  let r := getRouter s site
  if off = 0 then some (bitAt 4 (quiet s site) ||| enableBits r.gate)
  else if off = 8 then
    some (BitVec.ofNat 64 (([1, 2, 3, 4, 5, 6] : List Nat).foldl (fun a p => a + (mget r.link p 0).toNat * 4 ^ p) 0))
  else if off = 0x10 then some (mk 22 16 r.hmax.toNat ||| mk 11 8 r.mark.toNat ||| mk 3 0 r.adapt.toNat)
  else if off = 0x18 then some (mk 56 48 r.rate ||| mk 39 32 r.minrate.toNat ||| mk 15 0 r.recov.toNat)
  else if off = 0x20 then some (mk 13 12 r.tbl.toNat ||| mk 10 0 r.idx.toNat)
  else if off = 0x28 then
    some (zext (mget (if r.tbl = 0 then r.siteTable else if r.tbl = 1 then r.devTable else r.mcTable) r.idx.toNat 0))
  else if off = 0x30 then some (mk 63 32 r.busy.toNat ||| mk 13 8 r.counters.length ||| mk 3 0 r.slots.length)
  else if off = 0x38 then some (mk 63 32 r.crcerr.toNat ||| mk 31 16 r.downs.toNat)
  else none

def mshWrite (site off : Nat) (v : Word) (s : State) : State :=
  if off = 0 then mshCtl site (bit v 0) s
  else if off = 0x10 then
    modRouter site (fun r => { r with
      hmax := BitVec.ofNat 7 (clampNat 1 127 (fld v 22 16)), mark := BitVec.ofNat 4 (clampNat 1 8 (fld v 11 8)),
      adapt := BitVec.ofNat 4 (clampNat 1 8 (fld v 3 0)) }) s
  else if off = 0x18 then
    modRouter site (fun r => { r with
      minrate := BitVec.ofNat 8 (clampNat 1 255 (fld v 39 32)), recov := BitVec.ofNat 16 (clampNat 64 65535 (fld v 15 0)) }) s
  else if off = 0x20 then
    let tbl := min 2 (fld v 13 12)
    modRouter site (fun r => { r with tbl := BitVec.ofNat 2 tbl, idx := BitVec.ofNat 11 (min (rtLast tbl) (fld v 10 0)) }) s
  else if off = 0x38 then (if bit v 0 then mshErrClear site s else s)
  else s

/-- The fields of HBM_ILVr that are not reserved (11 Table 11.4). -/
def ilvFields : Word := mk 63 32 0xFFFFFFFF ||| mk 12 0 0x1FFF

/-- HBM_ registers of node k (11 Tables 11.3 to 11.13). -/
def hbmRegRead (s : State) (k off : Nat) : Option Word :=
  let n := getNode s k
  if off = 0 then
    some (mk 55 48 n.temp.toNat ||| mk 39 32 n.reason.toNat ||| mk 27 24 n.height.toNat ||| mk 23 16 n.dens.toNat |||
      bitAt 0 (stackLive s (k / 4)))
  else if off = 8 then
    let spare := (mappedPlaces n).foldl (fun m p => min m (sparesLeft n p)) 1024
    some (mk 42 32 (if mappedPlaces n = [] then 0 else spare) |||
      BitVec.ofNat 64 ((List.range 8).foldl (fun a p => a + (mget n.pc p 7).toNat * 16 ^ p) 0))
  else if off = 0x10 then some (mk 63 48 n.ue.toNat ||| mk 47 16 n.ce.toNat)
  else if off = 0x18 then some (bitAt 63 n.errV ||| mk 47 0 (n.errAddr / 32 * 32))
  else if off = 0x20 then some 0
  else if off = 0x28 then some (zext n.period)
  else match inArray off 0x80 8 12, inArray off 0x100 16 32, inArray off 0x108 16 32 with
    | some m, _, _ => some (packed 1 (8 * m) (fun i => (mget s.img.ring i 0).toNat))
    | _, some r, _ => some (ilvReg s r &&& ilvFields)
    | _, _, some r => some (if s.img.present then mk 26 0 (mget s.img.nbase (32 * k + r) (BitVec.allOnes 32)).toNat else 0)
    | _, _, _ => none

def hbmRegWrite (k off : Nat) (v : Word) (s : State) : State :=
  if off = 0x10 then (if bit v 0 then eccClear k s else s)
  else if off = 0x18 then modNode k (fun n => { n with errV := n.errV && !bit v 63 }) s
  else if off = 0x20 then
    (if fld v 63 62 = 1 then retirePageAt k (fld v 47 5 * 32) s else if fld v 63 62 = 2 then retirePcAt k (fld v 47 5 * 32) s else s)
  else if off = 0x28 then modNode k (fun n => { n with period := v.setWidth 16 }) s
  else s

/-- LNK_STAT.STATE (16 Table 16.6). -/
def linkStateCode : LinkState → Nat
  | .off => 0 | .detect => 1 | .ctlup => 2 | .measure => 3 | .exchange => 4 | .dtrain => 5 | .dcheck => 6 | .active => 7
  | .sleep => 8 | .recover => 9 | .draining => 0xA | .mismatch => 0xB | .failed => 0xC

/-- LNK_ registers (16 Tables 16.10 to 16.14). -/
def lnkRead (s : State) (n off : Nat) : Option Word :=
  let q := getPort s n
  if off = 0 then some (mk 31 16 q.serthr.toNat ||| bitAt 4 q.sleepReq ||| enableBits q.ctl)
  else if off = 8 then
    some (mk 63 48 q.shared.toNat ||| mk 47 36 q.rt.toNat ||| mk 31 28 q.lastFail.toNat ||| mk 27 24 q.attempts ||| mk 23 20 q.spTx.toNat |||
      mk 19 16 q.spRx.toNat ||| bitAt 15 q.spBad ||| mk 3 0 (linkStateCode q.state))
  else if off = 0x58 then some (mk 63 32 q.corr.toNat ||| mk 31 1 q.uncorr.toNat)
  else if off = 0x60 then
    some (mk 63 40 q.crcErr.toNat ||| mk 39 24 q.replays.toNat ||| mk 23 16 q.spares.toNat ||| mk 15 8 q.retrains.toNat ||| mk 7 1 q.downs.toNat)
  else match inArray off 0x10 8 6, inArray off 0x40 8 3 with
    | some i, _ => some (mget q.partner i 0)
    | _, some i =>
      some (BitVec.ofNat 64 ((List.range 4).foldl (fun a j => a + (if 4 * i + j < 10 then (mget q.len (4 * i + j) 0).toNat * 65536 ^ j else 0)) 0))
    | _, _ => none

def lnkWrite (n off : Nat) (v : Word) (s : State) : State :=
  if off = 0 then lnkCtl n v s
  else if off = 0x58 then (if bit v 0 then lnkFecClear n s else s)
  else if off = 0x60 then (if bit v 0 then lnkErrClear n s else s)
  else s

def gruRead (s : State) (k off : Nat) : Option Word := if off = 0 then some (enableBits (getNode s k).gru) else none
def gruWrite (k off : Nat) (v : Word) (s : State) : State := if off = 0 then gruCtl k (bit v 0) s else s

/-! ### Which register an address names -/

/-- A register block: what serves it, and the offset in it. -/
inductive Block where
  | core (site : Nat) | hod (site : Nat) | chn (site : Nat) | msh (site : Nat) | hbm (k : Nat) | lnk (n : Nat) | gru (k : Nat)
  | top | grp | img | mgt | rst | pwr | sec | kln | syn (c : Nat)
  deriving DecidableEq, Repr

/-- The block of an address and the offset in it; none in gaps and where the site has no such sub-block (10 Tables 10.2, 10.3). HOD_ of a
control core is a sub-block whose unit is absent. -/
def blockOf (a : Nat) : Option (Block × Nat) :=
  match regionOf a with
  | .siteReg site off =>
    if off < 0x1000 then (if hasThreads site then some (.core site, off) else none)
    else if off < 0x2000 then (if hasThreads site then some (.hod site, off - 0x1000) else none)
    else if off < 0x4000 then (if hasThreads site then some (.chn site, off - 0x2000) else none)
    else if off < 0x5000 then some (.msh site, off - 0x4000)
    else if 0x8000 ≤ off && off < 0xC000 then
      (match attachOf site with
       | .node k => some (.hbm k, off - 0x8000)
       | .port n => some (.lnk n, off - 0x8000)
       | _ => none)
    else if 0xC000 ≤ off && off < 0xD000 then
      (match attachOf site with
       | .node k => some (.gru k, off - 0xC000)
       | _ => none)
    else none
  | .deviceReg off =>
    if off < 0x100000 then some (.top, off)
    else if 0x1000000 ≤ off then some (.syn ((off - 0x1000000) / 0x10000), off % 0x10000)
    else if 0x10000 ≤ off % 0x100000 then none
    else match off / 0x100000 with
      | 1 => some (.grp, off % 0x100000)
      | 2 => some (.img, off % 0x100000)
      | 3 => some (.mgt, off % 0x100000)
      | 4 => some (.rst, off % 0x100000)
      | 5 => some (.pwr, off % 0x100000)
      | 6 => some (.sec, off % 0x100000)
      | 7 => some (.kln, off % 0x100000)
      | _ => none
  | _ => none

/-- An address of the register-block ranges (10 R274). -/
def isRegAddr (a : Nat) : Bool :=
  match regionOf a with
  | .siteReg _ _ => true
  | .deviceReg _ => true
  | _ => false

/-- Lowest level of an access (08 Table 8.1, 10 R274, Table 10.3; 23 Table 23.5). -/
def regLevel (a : Nat) (store : Bool) : Level :=
  match blockOf a with
  | some (.core _, off) =>
    if 0x800 ≤ off && off < 0x820 then .machine
    else if store && !((0x400 ≤ off && off < 0x410) || (0x900 ≤ off && off < 0x928) || (0xA00 ≤ off && off < 0xA10)) then .user
    else .supervisor
  | some (.top, _) => if store then .supervisor else .user
  | some (.syn _, off) => if off < 0x20 || (0x600 ≤ off && off < 0x800) || (0x1000 ≤ off && off < 0x1400) then .supervisor else .user
  | some (.img, _) | some (.mgt, _) | some (.rst, _) | some (.pwr, _) | some (.sec, _) | some (.kln, _) => .machine
  | _ => .supervisor

/-- The unit of a block is absent (10 R274, R275). -/
def blockAbsent (s : State) : Block → Nat → Bool
  | .core site, _ => !windowServed s site
  | .hod site, _ => !(isCoreSite site && windowServed s site)
  | .chn site, _ => !windowServed s site
  | .msh site, _ => !(getRouter s site).inService
  | .hbm k, _ => !nodeServed s k
  | .lnk n, _ => !portThere s n
  | .gru k, _ => !gruThere s k
  | .grp, off => decide (0x8000 ≤ off) && !s.top.hbridge
  | .syn c, _ => !unitServed s c
  | _, _ => false

/-- A synchronisation unit's block whose unit does not serve: what reaches it over the mesh draws UNREACHABLE (10 R589). -/
def unitLost (s : State) (a : Nat) : Bool :=
  match blockOf a with
  | some (.syn c, _) => !unitServed s c
  | _ => false

/-- Value of a register, none at a reserved offset. -/
def blockRead (s : State) : Block → Nat → Option Word
  | .core site, off => coreRead s site off
  | .hod site, off => hodRead s site off
  | .chn site, off => chnRead s site off
  | .msh site, off => mshRead s site off
  | .hbm k, off => hbmRegRead s k off
  | .lnk n, off => lnkRead s n off
  | .gru k, off => gruRead s k off
  | .top, off => topRead s off
  | .grp, off => grpRead s off
  | .img, off => imgRead s off
  | .mgt, off => mgtRead s off
  | .rst, off => rstRead s off
  | .pwr, off => pwrRead s off
  | .sec, off => secRead s off
  | .kln, off => klnRead s off
  | .syn c, off => synRead s c off

/-- What a store does; `who` is the site of the thread that makes it, if one does. -/
def blockWrite (who : Option Nat) (lvl : Level) (v : Word) (s : State) : Block → Nat → State
  | .core site, off => coreWrite site off lvl v s
  | .hod site, off => hodWrite site off lvl v s
  | .chn site, off => chnWrite site off v s
  | .msh site, off => mshWrite site off v s
  | .hbm k, off => hbmRegWrite k off v s
  | .lnk n, off => lnkWrite n off v s
  | .gru k, off => gruWrite k off v s
  | .top, off => topWrite off v s
  | .grp, off => grpWrite off lvl v s
  | .img, off => imgWrite off v s
  | .mgt, off => mgtWrite off v s
  | .rst, off => rstWrite off v s
  | .pwr, off => pwrWrite off v s
  | .sec, off => secWrite off v s
  | .kln, off => klnWrite who off v s
  | .syn c, off => synWrite c off v s

/-! ### An access -/

/-- How an access to a register block ends: with the value read, held (23 R571), or with an exception code. -/
inductive RegRes where
  | ok (v : Word) (s : State)
  | held
  | fault (code : Nat)
  deriving DecidableEq, Repr

/-- The fault of an access by its address and size alone, in the order of the codes (03 R122, 10 R274 to R276): unit-absent 0x06, address
0x08, alignment 0x09; 0 where there is none. -/
def regFault (s : State) (a n : Nat) (store : Bool) : Nat :=
  match blockOf a with
  | none => 8
  | some (b, off) =>
    let small := b = .top && !store && topTable off
    if blockAbsent s b off then 6
    else if (blockRead s b (off / 8 * 8)).isNone then 8
    else if n ≠ 8 && !(small && (n = 1 || n = 2 || n = 4)) then 8
    else if off % n ≠ 0 then 9
    else 0

/-- An access of `n` bytes at a level: a load, or a store of `w`. -/
def regAccess (who : Option Nat) (lvl : Level) (a n : Nat) (w : Option Word) (s : State) : RegRes :=
  if !atLeast lvl (regLevel a w.isSome) then .fault 2
  else
    let f := regFault s a n w.isSome
    if f ≠ 0 then .fault f
    else match blockOf a with
      | none => .fault 8
      | some (.core site, 0x818) =>
        if coreRuns s site then
          (match dbgData site w s with
           | some r => .ok r.1 r.2
           | none => .held)
        else .ok 0 s
      | some (b, off) =>
        match w with
        | some v => .ok 0 (blockWrite who lvl v s b off)
        | none =>
          let s1 := match b, inArray (off / 8 * 8) 0x908 8 4 with | .core site, some k => openCount site k s | _, _ => s
          .ok (BitVec.ofNat 64 (((blockRead s1 b (off / 8 * 8)).getD 0).toNat / 256 ^ (off % 8) % 256 ^ n)) s1

/-- A write to a register with no row of its own stores the clamped value (18 R479). A write that is refused changes nothing. -/
def registerWrite (a : Nat) (lvl : Level) (v : Word) (s : State) : State :=
  match regAccess none lvl a 8 (some v) s with
  | .ok _ s1 => s1
  | _ => s

def execRegisterWrite (addr : BitVec 48) (lvl : Level) (v : BitVec 64) (s : State) : Host.Outcome State Fault Refusal :=
  .next (registerWrite addr.toNat lvl v s)

end Sys2Proof.Machine
end

