-- ==== Sys2Proof/Machine/Io.lean ====
section
/-! DEFINITION. The I3C target and the JTAG port (23 R561 to R568), and the sensors. -/

namespace Sys2Proof.Machine

open Sys2Proof

def modIo (f : Io → Io) (s : State) : State := { s with io := f s.io }

/-! ### Accesses of the management island -/

/-- Level of I3C and JTAG accesses (23 R564, R568). -/
def islandLevel (s : State) : Level := if 2 ≤ dbgMode s then .machine else .supervisor

/-- An access of 8 B to memory from outside the cores (05 R137, 10 R271, R272), as `regAccess` ends. -/
def islandMemory (a : Nat) (w : Option Word) (s : State) : RegRes :=
  let go := fun (bad : Bool) (v : List Byte) (wr : Word → State) =>
    match w with
    | some x => RegRes.ok 0 (wr x)
    | none => if bad then RegRes.fault 0xE else .ok (BitVec.ofNat 64 (leNat v)) s
  match regionOf a with
  | .hbm =>
    if (hbmNodeFor s a).isSome then go (hbmFirstBad s a 8).isSome (hbmReadN s a 8) (fun x => hbmWriteN a (leBytes 8 x.toNat) s)
    else .fault 6
  | .window site off =>
    let code := windowRefusal s site off 8
    if code ≠ 0 then .fault code
    else go (lmFirstBad s site off 8).isSome (lmReadN s site off 8) (fun x => lmWriteN site off (leBytes 8 x.toNat) s)
  | _ => .fault 8

/-- An access of 8 B at a device address. -/
def islandAccess (a : Nat) (w : Option Word) (s : State) : RegRes :=
  if isRegAddr a then regAccess none (islandLevel s) a 8 w s
  else if a % 8 ≠ 0 then .fault 9
  else islandMemory a w s

/-- What a read that meets uncorrectable memory records. -/
def islandNotes (a : Nat) (w : Option Word) (s : State) : State := if w.isNone then devReadNotes a 8 s else s

/-- A write that is discarded, for an uncorrectable HBM sector that it covers in part (19 R588). -/
def islandLost (a : Nat) (w : Option Word) (s : State) : Bool :=
  w.isSome && (match regionOf a with | .hbm => (hbmFirstLost s a 8).isSome | .window site off => (lmFirstLost s site off 8).isSome | _ => false)

/-! ### I3C frames (23 R562, R563) -/

/-- The target answers: the response waits to be read under an in-band interrupt. -/
def respond (status tag : BitVec 8) (payload : List Byte) (s : State) : State :=
  let body := [status, tag] ++ leBytes 2 payload.length ++ payload
  modIo (fun i => { i with response := some (body ++ bytesOf (crc32 body) 4), ibi := some tag, running := none }) s

/-- A command frame is taken: NACKed while one is held or unread, answered at once where its CRC or length is wrong. -/
def takeFrame (f : Frame) (go : State → State) (s : State) : State :=
  if !powered s || s.io.response.isSome || s.io.running.isSome then s
  else if !f.crcOk then respond 1 f.tag [] s
  else if !f.lenOk then respond 2 f.tag [] s
  else go s

/-- Answer with a status the manual leaves open (log 32): an operand outside the range that Table 23.1 gives it. -/
def respondOpen (tag : BitVec 8) (s : State) : State := let f := drawFree 8 s; respond f.1 tag [] f.2

/-- Result of a register access as a response. -/
def respondAccess (tag : BitVec 8) (a : Nat) (w : Option Word) (s : State) : State :=
  match islandAccess a w s with
  | .ok v s1 => if islandLost a w s then respond 5 tag [] s1 else respond 0 tag (if w.isSome then [] else bytesOf v 8) s1
  | .held => modIo (fun i => { i with running := some (tag.toNat, a, w) }) s
  | .fault c => respond (if c = 2 then 6 else 5) tag [] (islandNotes a w s)

def featureBytes (s : State) : List Byte :=
  bytesOf (featuresWord s) 8 ++ bytesOf ((topRead s 8).getD 0) 8 ++ bytesOf ((secRead s 0).getD 0) 8 ++ bytesOf ((rstRead s 0x10).getD 0) 8

def execI3cIdent (f : Frame) (s : State) : Host.Outcome State Fault Refusal :=
  .next (takeFrame f (fun st => respond 0 f.tag (featureBytes st) st) s)

/-! ### Sensors (23 R566, Table 23.3) -/

/-- Island rail r, of numbers 1 to 3 (21 Table 21.4), is up. -/
def railPowered (s : State) (r : Nat) : Bool := mget s.pwr.islandRails r 0 != 0

/-- The sensor's unit is powered and present. -/
def sensorThere (s : State) (i : Nat) : Bool :=
  if i < 16 then (getRail s (i % 8)).vset != 0
  else if i < 40 then railPowered s 2 && (getNode s (4 * (i - 16))).reason = 0 && !partLacksStack s.top.part (i - 16)
  else if i < 43 then true
  else decide (i < 46) && railPowered s (i - 42)

/-- A measured value reaches the register that the sensor shows. -/
def sensorSource (i : Nat) (v : BitVec 32) (s : State) : State :=
  if i < 8 then modRail i (fun r => { r with tj := v.setWidth 8 }) s
  else if i < 16 then modRail (i - 8) (fun r => { r with vmeas := v.setWidth 16 }) s
  else if i < 40 then foldN 4 (fun j st => modNode (4 * (i - 16) + j) (fun n => { n with temp := v.setWidth 8 }) st) s
  else if i = 40 then modPwr (fun p => { p with vin := v.setWidth 16 }) s
  else if i = 41 then modPwr (fun p => { p with draw := v.setWidth 16 }) s
  else if i = 42 then s
  else modPwr (fun p => { p with islandRails := mset p.islandRails (i - 42) (v.setWidth 16) }) s

/-- Values are refreshed: `vals` are the measurements made; the ballast's is the controller's own setting. -/
def refreshSensors (vals : List (Nat × BitVec 32)) (s : State) : State :=
  if !powered s then s
  else
    let put := fun (st : State) (i : Nat) (v : BitVec 32) => modIo (fun x => { x with sensors := mset x.sensors i (v, st.aoc) }) st
    let s1 := vals.foldl (fun st e => if sensorThere st e.1 && e.1 != 42 then put (sensorSource e.1 e.2 st) e.1 e.2 else st) s
    put s1 42 (s1.pwr.ballast.setWidth 32)

def execSensorRefresh (vals : List (Nat × BitVec 32)) (s : State) : Host.Outcome State Fault Refusal := .next (refreshSensors vals s)

/-- One sensor: VALUE, AGE, V. -/
def sensorBytes (s : State) (i : Nat) : List Byte :=
  match mfind s.io.sensors i with
  | some (v, t) =>
    if sensorThere s i then bytesOf (mk 63 32 v.toNat ||| mk 15 8 (min 255 ((s.aoc - t) / 1024)) ||| bitAt 0 true) 8 else leBytes 8 0
  | none => leBytes 8 0

def sensorCommand (tag first count : BitVec 8) (s : State) : State :=
  if count = 0 || 32 < count.toNat then respondOpen tag s
  else respond 0 tag ((List.range count.toNat).flatMap (fun i => sensorBytes s (first.toNat + i))) s

def execI3cSensor (f : Frame) (first count : BitVec 8) (s : State) : Host.Outcome State Fault Refusal :=
  .next (takeFrame f (sensorCommand f.tag first count) s)

/-! ### Registers, attestation, images, flash (23 Table 23.1, R564, R565) -/

/-- Minimal recovery mode refuses a command. -/
def notInRecovery (tag : BitVec 8) (go : State → State) (s : State) : State := if s.rst.recovery then respond 4 tag [] s else go s

def execI3cRegrd (f : Frame) (addr : BitVec 64) (s : State) : Host.Outcome State Fault Refusal :=
  .next (takeFrame f (notInRecovery f.tag (respondAccess f.tag addr.toNat none)) s)

def execI3cRegwr (f : Frame) (addr : BitVec 64) (v : BitVec 64) (s : State) : Host.Outcome State Fault Refusal :=
  .next (takeFrame f (notInRecovery f.tag (respondAccess f.tag addr.toNat (some v))) s)

def attestCommand (tag : BitVec 8) (nonce : BitVec 256) (s : State) : State :=
  if s.sec.busy then respond 8 tag [] s
  else if attestCheck s ≠ 0 then respond 7 tag [BitVec.ofNat 8 (attestCheck s)] s
  else let r := signReport (bytesOf nonce 32) s; respond 0 tag r.1 r.2

def execI3cAttest (f : Frame) (nonce : BitVec 256) (s : State) : Host.Outcome State Fault Refusal :=
  .next (takeFrame f (attestCommand f.tag nonce) s)

def stageCommand (tag : BitVec 8) (off : Nat) (data : List Byte) (s : State) : State :=
  if loaderRuns s && loaderFree s && off % 256 = 0 && decide (off + data.length ≤ 2 ^ 24) then respond 0 tag [] (stageBytes off data s)
  else respond 4 tag [] s

def execI3cStage (f : Frame) (off : BitVec 64) (data : List Byte) (s : State) : Host.Outcome State Fault Refusal :=
  .next (takeFrame { f with lenOk := f.lenOk && decide (1 ≤ data.length) && decide (data.length ≤ 256) }
    (stageCommand f.tag off.toNat data) s)

/-- A command whose SERIAL is not the staged image's changes nothing and is answered with LAST 0x20 (18 R472). -/
def imgCommand (tag cmd : BitVec 8) (serial : Word) (s : State) : State :=
  if !loaderRuns s then respond 4 tag [] s
  else if serial.toNat ≠ leNat (Memory.readN s.img.staging 24 8) then
    respond 0 tag (bytesOf (setFld ((imgRead s 8).getD 0) 39 32 0x20) 8) s
  else let s1 := loaderCommandBy cmd.toNat false true s; respond 0 tag (bytesOf ((imgRead s1 8).getD 0) 8) s1

def execI3cImgcmd (f : Frame) (cmd : BitVec 8) (serial : BitVec 64) (s : State) : Host.Outcome State Fault Refusal :=
  .next (takeFrame f (imgCommand f.tag cmd serial) s)

def flashReadCommand (tag : BitVec 8) (a len : Nat) (s : State) : State :=
  if len = 0 || 256 < len then respondOpen tag s else respond 0 tag (flashRead s a len) s

def execI3cFlashrd (f : Frame) (addr : BitVec 32) (len : BitVec 16) (s : State) : Host.Outcome State Fault Refusal :=
  .next (takeFrame f (flashReadCommand f.tag addr.toNat len.toNat) s)

/-- The flash may be written (23 Table 23.1). -/
def flashOpen (s : State) : Bool := s.rst.recovery || s.sec.state = 0 || s.sec.state = 1 || s.sec.state = 3

def flashCommand (tag : BitVec 8) (unit a : Nat) (go : State → State) (s : State) : State :=
  if !flashOpen s then respond 4 tag [] s
  else if a % unit ≠ 0 then respondOpen tag s
  else respond 0 tag [] (go s)

def execI3cFlashwr (f : Frame) (addr : BitVec 32) (data : List Byte) (s : State) : Host.Outcome State Fault Refusal :=
  .next (takeFrame { f with lenOk := f.lenOk && decide (data.length = 256) }
    (flashCommand f.tag 256 addr.toNat (flashWrite addr.toNat data)) s)

/-- A 64 KiB sector is erased. -/
def flashErase (a : Nat) (s : State) : State :=
  { s with rst := { s.rst with flash := s.rst.flash.filter (fun c => decide (c.1 < a) || decide (a + 0x10000 ≤ c.1)) } }

def execI3cFlasherase (f : Frame) (addr : BitVec 32) (s : State) : Host.Outcome State Fault Refusal :=
  .next (takeFrame f (flashCommand f.tag 0x10000 addr.toNat (flashErase addr.toNat)) s)

def resetCommand (tag : BitVec 8) (s : State) : State := modIo (fun i => { i with resetPending := true }) (respond 0 tag [] s)

def execI3cReset (f : Frame) (s : State) : Host.Outcome State Fault Refusal := .next (takeFrame f (resetCommand f.tag) s)

/-- A RESET that waits takes place: a SOFT device reset. -/
def pendingReset (s : State) : State := if s.io.resetPending then resetIfPowered 6 0 s else s

def execI3cResetTimeout (s : State) : Host.Outcome State Fault Refusal := .next (pendingReset s)

/-! ### JTAG (23 R567, R568, Table 23.4) -/

/-- A slice left by scan is re-initialised (22 R552, R559). -/
def leaveScan (s : State) : State :=
  if s.io.scanSel.isNone then s
  else
    let kind := s.kln.slice.toNat / 4096
    let s1 := modIo (fun i => { i with scanSel := none }) s
    if s.kln.state = 2 && (kind = 1 || kind = 2) then
      modCore (sliceSite kind (s.kln.slice.toNat % 4096)) (fun c => { Core.reset .isolated s.rst.entry with
        mx := testedMatrix s s.kln.slice.toNat, lockups := c.lockups, lostUnits := c.lostUnits }) s1
    else s1

/-- An instruction is loaded; one that is not permitted acts as BYPASS. -/
def loadIr (code : BitVec 8) (permitted : Bool) (go : State → State) (s : State) : State :=
  if !powered s then s
  else
    let s1 := leaveScan s
    if permitted then go (modIo (fun i => { i with ir := code }) s1) else modIo (fun i => { i with ir := 0xFF }) s1

/-! ### Debug unlock (20 R516, R517) -/

/-- A challenge is drawn. -/
def drawChallenge (s : State) : State :=
  { s with sec := { s.sec with challenge := some (Config.entropy s.freeCtr) }, freeCtr := s.freeCtr + 1 }

/-- DBGUNLOCK is permitted in DEPLOYED; elsewhere it acts as BYPASS (23 R567). -/
def dbgUnlockIr (go : State → State) (s : State) : State := loadIr 0x10 (s.sec.state == 2) go s

def execDbgChallenge (s : State) : Host.Outcome State Fault Refusal := .next (dbgUnlockIr drawChallenge s)

/-- The unlock message is right (20 R516 step 3). -/
def unlockGood (s : State) (msg : List Byte) (ch : BitVec 256) : Bool :=
  let key := msg.take 64
  let scope := leAt msg 64 1
  s.sec.dbgen && !s.sec.revoke && !s.sec.idblk && (scope == 1 || scope == 2) && Config.sm3 key == s.sec.ownkh &&
  Config.sm2Verify (BitVec.ofNat 512 (leNat key)) idDebug
    (bytesOf ch 32 ++ bytesOf (idPublic s) 64 ++ (msg.drop 64).take 1) (BitVec.ofNat 512 (leAt msg 65 64))

/-- A failed unlock counts, and the fourth raises the DBGFAIL alarm (20 R517). -/
def unlockFail (s : State) : State :=
  if s.sec.fails = 3 then alarm 4 (modSec (fun x => { x with fails := 0 }) s)
  else modSec (fun x => { x with fails := x.fails + 1 }) s

/-- An unlock attempt. -/
def unlockEffect (m : BitVec 1032) (s : State) : State :=
  let msg := bytesOf m 129
  let s1 := modSec (fun x => { x with challenge := none }) s
  match s.sec.challenge with
  | none => unlockFail s1
  | some ch =>
    if unlockGood s msg ch then
      modSec (fun x => { x with dbg := BitVec.ofNat 2 (leAt msg 64 1), fails := 0, unlockSeen := true }) s1
    else unlockFail s1

def execDbgUnlock (msg : BitVec 1032) (s : State) : Host.Outcome State Fault Refusal := .next (dbgUnlockIr (unlockEffect msg) s)

/-! ### The other instructions -/

/-- The identification code. -/
def idcode (s : State) : BitVec 32 :=
  let part := if s.top.part = 1 then 0x4824 else if s.top.part = 2 then 0x4816 else 0x482E
  BitVec.ofNat 32 (s.top.stepping.toNat % 16 * 2 ^ 28 + part * 2 ^ 12 + 0x3B5 * 2 + 1)

def execJtagIdcode (s : State) : Host.Outcome State Fault Refusal :=
  .next (loadIr 0x01 true (fun st => modIo (fun i => { i with captured := idcode st }) st) s)

/-- The lands are observed. -/
def execJtagSamplePreload (lands : BitVec 40) (s : State) : Host.Outcome State Fault Refusal :=
  .next (loadIr 0x02 true (modIo (fun i => { i with boundary := lands })) s)

/-- The lands are driven from the boundary register. -/
def execJtagExtest (drive : BitVec 40) (s : State) : Host.Outcome State Fault Refusal :=
  .next (loadIr 0x03 (decide (2 ≤ dbgMode s)) (modIo (fun i => { i with boundary := drive })) s)

def execJtagBypass (s : State) : Host.Outcome State Fault Refusal := .next (loadIr 0xFF true id s)

def accDone (status : BitVec 4) (v : Word) (s : State) : State :=
  modIo (fun i => { i with accStatus := status, accData := v, accHeld := none }) s

/-- A DBGACC access, whose status the next Capture-DR returns. -/
def accAccess (a : Nat) (w : Option Word) (s : State) : State :=
  match islandAccess a w s with
  | .ok v s1 => accDone (if islandLost a w s then 2 else 0) v s1
  | .held => modIo (fun i => { i with accStatus := 1, accHeld := some (a, w) }) s
  | .fault c => accDone (if c = 2 then 3 else 2) 0 (islandNotes a w s)

/-- One DBGACC operation; one shifted in while another runs is discarded. -/
def dbgacc (go : State → State) (s : State) : State :=
  loadIr 0x11 (dbgMode s != 0) (fun st => if st.io.accHeld.isSome then st else go st) s

def execDbgaccRead (addr : BitVec 48) (s : State) : Host.Outcome State Fault Refusal := .next (dbgacc (accAccess addr.toNat none) s)
def execDbgaccWrite (addr : BitVec 48) (v : BitVec 64) (s : State) : Host.Outcome State Fault Refusal :=
  .next (dbgacc (accAccess addr.toNat (some v)) s)
def execDbgaccDebugReset (s : State) : Host.Outcome State Fault Refusal := .next (dbgacc (resetIfPowered 7 0) s)

/-- Core reset of the core whose CORE_ block stands at an address. -/
def accCoreReset (a : Nat) (s : State) : State :=
  match regionOf a with
  | .siteReg site 0 => if hasThreads site && coreInService s site then accDone 0 0 (coreReset site s) else accDone 2 0 s
  | _ => accDone 2 0 s

def execDbgaccCoreReset (addr : BitVec 48) (s : State) : Host.Outcome State Fault Refusal := .next (dbgacc (accCoreReset addr.toNat) s)

/-- Bits of the OTP option block that are 1 in the image are programmed, where the key matches. -/
def otpProgram (image : BitVec 512) (key : BitVec 32) (s : State) : State :=
  if key = 0x0F7B5A11#32 then
    modRst (fun r => { r with otp := foldN 64 (fun i m => mset m i (mget m i 0 ||| (image >>> (8 * i)).setWidth 8)) r.otp }) s
  else s

def execOtpprog (image : BitVec 512) (key : BitVec 32) (s : State) : Host.Outcome State Fault Refusal :=
  .next (loadIr 0x20 (decide (s.sec.state.toNat ≤ 1)) (otpProgram image key) s)

/-- A scan chain of the slice that kiln holds isolated is selected. -/
def scanSelect (chain : Nat) (s : State) : State :=
  let permitted := s.sec.state = 0 || s.sec.state = 1 || s.sec.state = 3
  if powered s && permitted then
    modIo (fun i => { i with ir := BitVec.ofNat 8 (0x30 + chain), scanSel := if s.kln.state = 2 then some chain else none }) s
  else loadIr 0xFF true id s

def execScansel (chain : Fin 8) (s : State) : Host.Outcome State Fault Refusal := .next (scanSelect chain s)

/-! ### Held accesses (23 R571) -/

/-- A register access of I3C or JTAG that waited for an accumulator is made once it can be. -/
def settleIo (s : State) : State :=
  let s1 := match s.io.running with
    | some (tag, a, w) => respondAccess (BitVec.ofNat 8 tag) a w s
    | none => s
  match s1.io.accHeld with
  | some (a, w) => accAccess a w s1
  | none => s1

/-- A thread waits in the overlap-hold stall for an access that is no longer outstanding. -/
def overlapOver (h : Thread) : Bool :=
  match h.run with
  | .stalled (.overlap r) => !(h.loads.any (·.req == r)) && !(h.stores.any (·.req == r))
  | _ => false

/-- Threads whose hold has ended try again. -/
def wakeHolds (s : State) : State :=
  s.cores.foldl (fun st e => threadsOf.foldl (fun x t => if overlapOver (coreThr e.2 t) then wakeThread e.1 t x else x) st) s

/-- Every access that waited for an accumulator is tried again. -/
def settleHeld (s : State) : State := wakeHolds (settleIo s)

/-- The response is read: a RESET that waited for it takes place. -/
def responseRead (s : State) : State :=
  let s1 := settleIo s
  match s1.io.response with
  | some _ => pendingReset (modIo (fun i => { i with response := none, ibi := none }) s1)
  | none => s1

def execI3cResponseRead (s : State) : Host.Outcome State Fault Refusal := .next (responseRead s)

end Sys2Proof.Machine
end

