-- ==== Sys2Proof/Machine/Memsys.lean ====
section
/-! DEFINITION. The memory side of a core: requests that leave it, its data caches with the coherence of the control cores, line
fills and write-backs, and the completion of outstanding accesses (03 R94; 05 R129; 08 R221, R222; 09 R245 to R263). -/

namespace Sys2Proof.Machine

open Sys2Proof

/-! ### The caches of a site -/

def geomAt (site k : Nat) : Nat × Nat := cacheGeom (isCcSite site) k
def cacheAt (s : State) (site k : Nat) : Cache := getCache (getCore s site) k
def modCache (site k : Nat) (f : Cache → Cache) (s : State) : State := modCore site (fun c => setCache k (f (getCache c k)) c) s

/-- The cache that holds the data of a site: the RLC, or the L2, which includes its L1s (09 R246). -/
def dataCache (site : Nat) : Nat := if isCcSite site then kL2 else kData

/-- Sites whose data caches are coherent with a site's: the control cores in service, or a core alone (09 R257). -/
def domainOf (s : State) (site : Nat) : List Nat :=
  if isCcSite site then ((List.range 16).map ccSite).filter (fun x => (getCore s x).power == .on) else [site]

/-- A target that the data caches may hold (09 R249). -/
def cacheable (s : State) (site a : Nat) : Bool :=
  match regionOf a with
  | .hbm => true
  | .window w _ => w != site && !bonded s site w
  | _ => false

/-- Policy of an access (09 R250, R249; CD of Table 9.7). -/
def policyAt (s : State) (site a : Nat) (cd : Bool) : Nat := if cd || !cacheable s site a then 0 else ratPolicy (getCore s site) a

/-! ### Requests -/

/-- Site that serves a device address. -/
def targetSite (s : State) (a : Nat) : Option Nat :=
  match regionOf a with
  | .siteReg site _ => some site
  | .deviceReg off => some (servingSite off)
  | .hole => none
  | _ => memSite s a

/-- A memory request leaves a site: over a bond link, within the site, or into the mesh in class REQ (03 R90, 12 Table 12.4). -/
def sendMem (site : Nat) (t : Fin 4) (lvl : Level) (dev dst a req : Nat) (op : MemOp) (s : State) : State :=
  let p := { mkPacket s 4 lvl site dst a (.memReq req t op) with ddev := dev }
  let direct := match regionOf a with
    | .window w _ => bonded s site w
    | _ => false
  if dev = ownDev s && (dst = site || direct) then injectDirect p s else inject p s

/-- A scalar access that has passed its checks: level, other device if any, effective address, device address, bytes, CD of its page, and
whether it is a group access, which is neither translated nor cached, to whatever device (09 R253, R264). -/
structure Access where
  lvl : Level
  dev : Option Nat
  ea : Word
  a : Nat
  n : Nat
  cd : Bool
  group : Bool
  deriving DecidableEq, Repr

/-- Policy of an access: UC for a group access (03 Table 3.12). -/
def accessPolicy (s : State) (site : Nat) (x : Access) : Nat := if x.group then 0 else policyAt s site x.a x.cd

/-- Device and site that a request of an access goes to. -/
def accessTarget (s : State) (x : Access) : Nat × Nat :=
  match x.dev with
  | some d => (d, groupDest d x.a)
  | none => (ownDev s, (targetSite s x.a).getD 0)

/-- An access of the own local memory by its window address, with the offset. -/
def ownOffset (site : Nat) (x : Access) : Option Nat :=
  match x.dev, regionOf x.a with
  | none, .window w off => if w = site then some off else none
  | _, _ => none

def lgOf (n : Nat) : Fin 4 := Fin.ofNat 4 n.log2

/-- An outstanding entry of an access. -/
def outstanding (x : Access) (req : Nat) (dst : Option Nat) (signed atomic : Bool) : Outstanding :=
  { req := req, dst := dst, lg := lgOf x.n, signed := signed, dev := x.dev, addr := x.a, bytes := x.n, ea := x.ea,
    regBlock := x.dev.isNone && isRegAddr x.a, atomic := atomic }

def addLoad (site : Nat) (t : Fin 4) (o : Outstanding) (s : State) : State :=
  modThr site t (fun h => { h with loads := h.loads ++ [o] }) s
def addStore (site : Nat) (t : Fin 4) (o : Outstanding) (s : State) : State :=
  modThr site t (fun h => { h with stores := h.stores ++ [o] }) s

/-- A load, or an atomic operation, goes to its target; its result is awaited. -/
def sendLoad (site : Nat) (t : Fin 4) (x : Access) (dst : Option Nat) (signed atomic : Bool) (op : MemOp) (s : State) : State :=
  let r := newReq s
  let dest := accessTarget s x
  sendMem site t x.lvl dest.1 dest.2 x.a r.1 op (addLoad site t (outstanding x r.1 dst signed atomic) r.2)

/-- A store goes to its target and is posted. -/
def sendStore (site : Nat) (t : Fin 4) (x : Access) (bs : List Byte) (s : State) : State :=
  let r := newReq s
  let dest := accessTarget s x
  sendMem site t x.lvl dest.1 dest.2 x.a r.1 (.store bs) (addStore site t (outstanding x r.1 none false false) r.2)

/-! ### Places and stalls (05 R129, Table 5.1) -/

/-- Outstanding loads, AMOs and AMOGs. -/
def loadCount (h : Thread) : Nat := h.loads.length

/-- Posted stores and AMOGs; write-backs of lines take no place. -/
def storeCount (h : Thread) : Nat :=
  (h.stores.filter (fun o => o.bytes != 64)).length + (h.loads.filter (fun o => o.atomic && o.dev.isSome)).length

/-- Two ranges of one device overlap. -/
def overlaps (dev : Option Nat) (a n : Nat) (o : Outstanding) : Bool :=
  o.dev == dev && decide (a < o.addr + o.bytes) && decide (o.addr < a + n)

/-- The earlier access that holds an access back: one whose bytes overlap, or a register-block access before another (03 R94). -/
def heldBy (h : Thread) (dev : Option Nat) (a n : Nat) (reg : Bool) : Option Nat :=
  ((h.loads ++ h.stores).find? (fun o => overlaps dev a n o || (reg && o.regBlock))).map (·.req)

/-- What a fence waits for has arrived (03 R95; 14 R374). -/
def fenceClear (k : FenceKind) (h : Thread) : Bool :=
  let ld := h.loads.isEmpty
  let st := h.stores.isEmpty && h.loads.all (fun o => !o.atomic) && h.comm.sends.isEmpty
  match k with
  | .ld => ld
  | .st => st
  | .all => ld && st
  | .sync => false

/-- A memory stall of a thread is over. -/
def stallOver (h : Thread) : Bool :=
  match h.run with
  | .stalled (.result false k) => !keyPending h k
  | .stalled .loadPlace => decide (loadCount h < 8)
  | .stalled .storePlace => decide (storeCount h < 16)
  | .stalled (.overlap r) => !(h.loads ++ h.stores).any (fun o => o.req == r)
  | .stalled (.fence k) => fenceClear k h
  | _ => false

/-- A thread whose stall is over becomes ready and will issue its word again. -/
def recheck (site : Nat) (t : Fin 4) (s : State) : State := if stallOver (getThr s site t) then wakeThread site t s else s

/-! ### Write-backs (09 R247, R254) -/

def ownersOf (m : BitVec 4) : List (Fin 4) := threadsOf.filter (fun t => m.getLsbD t.val)

/-- The bytes of a line that a mask enables, each as a store whose bytes go to the target. -/
def enabledStores (d : BitVec 512) (en : BitVec 64) : List MergedStore :=
  ((List.range 64).filter (fun i => en.getLsbD i)).map (fun i => ⟨0, i, [BitVec.ofNat 8 (d.toNat / 256 ^ i)], none⟩)

/-- Bytes on their way to the target reach every fill of the line that a coherent cache awaits (09 R257). -/
def patchFills (site line : Nat) (es : List MergedStore) (s : State) : State :=
  if isCcSite site then
    (domainOf s site).foldl (fun st x => [kIcache, kData, kL2].foldl (fun st k =>
      modCache x k (mapMiss line (fun m => { m with stores := m.stores ++ es })) st) st) s
  else s

/-- Level of a thread, which its requests carry (08 R214). -/
def lvlAt (s : State) (site : Nat) (t : Fin 4) : Level := lvlOf (getThr s site t)

/-- The dirty bytes of a line are written back; `owners` wait for the acknowledgement and `t`, which issues it, takes a refusal (09
R597). -/
def writeBackLine (site : Nat) (t : Fin 4) (owners : List (Fin 4)) (l : CacheLine) (s : State) : State :=
  if l.dirty = 0 then s
  else
    let a := l.line * 64
    match memSite s a with
    | none => postImprecise site t 6 0 (BitVec.ofNat 64 a) s
    | some dst =>
      let r := newReq s
      let o : Outstanding := { req := r.1, dst := none, lg := 0, signed := false, dev := none, addr := a, bytes := 64,
                               ea := BitVec.ofNat 64 a, regBlock := false, atomic := false }
      sendMem site t (lvlAt s site t) (ownDev s) dst a r.1 (.writeBack l.data l.dirty)
        (owners.foldl (fun st u => addStore site u o st) (patchFills site l.line (enabledStores l.data l.dirty) r.2))

/-- A line that leaves its cache is written back for the threads that wrote it, the lowest-numbered of which issues it. -/
def evictLine (site : Nat) (l : CacheLine) (s : State) : State :=
  let os := ownersOf l.tmask
  writeBackLine site (os.headD 0) os l s

/-! ### Placing lines (09 R246, R261, R262) -/

/-- A line is placed in cache k, none where every way of its set is locked. What leaves an L2 leaves both L1s. -/
def installAt (site k : Nat) (l : CacheLine) (toward : Bool) (s : State) : Option State :=
  match placeLine (geomAt site k) l toward (cacheAt s site k) with
  | none => none
  | some (c, old) =>
    let s1 := modCache site k (fun _ => c) s
    match old with
    | none => some s1
    | some o =>
      if k = kL2 then
        some (evictLine site o (modCache site kIcache (dropLine (geomAt site kIcache) o.line)
          (modCache site kData (dropLine (geomAt site kData) o.line) s1)))
      else some (evictLine site o s1)

def cleanLine (line : Nat) (d : BitVec 512) : CacheLine := ⟨line, d, 0, 0⟩

/-- A copy of an L2 line enters the L1D, if it can; `toward`: as an ST fill (09 R262). -/
def copyToL1 (site : Nat) (l : CacheLine) (toward : Bool) (s : State) : State :=
  if isCcSite site then (installAt site kData (cleanLine l.line l.data) toward s).getD s else s

/-- A line is placed for data accesses: on a control core in the L2 and the L1D. -/
def installData (site : Nat) (l : CacheLine) (toward : Bool) (s : State) : Option State :=
  (installAt site (dataCache site) l toward s).map (copyToL1 site l toward)

/-- The line that data accesses of a site find. -/
def dataLine (s : State) (site line : Nat) : Option CacheLine := lineIn (geomAt site (dataCache site)) (cacheAt s site (dataCache site)) line

/-- The line as a side buffer of the data caches holds it. -/
def dataSide (s : State) (site line : Nat) : Option (BitVec 512) :=
  match sideLine (cacheAt s site kData) line with
  | some d => some d
  | none => sideLine (cacheAt s site (dataCache site)) line

/-- A lookup would hit. -/
def wouldHit (s : State) (site line : Nat) : Bool := (dataLine s site line).isSome || (dataSide s site line).isSome

/-- The data of a line that another control core holds (09 R257). -/
def otherCopy (s : State) (site line : Nat) : Option (BitVec 512) :=
  ((domainOf s site).filter (· != site)).findSome? (fun x =>
    match lineIn (geomAt x kL2) (cacheAt s x kL2) line with
    | some l => some l.data
    | none => dataSide s x line)

/-- What the L2 of a control core, or another control core, already holds of an instruction line. -/
def heldForFetch (s : State) (site line : Nat) : Option (BitVec 512) :=
  if isCcSite site then
    match dataLine s site line with
    | some l => some l.data
    | none => (match sideLine (cacheAt s site kL2) line with | some d => some d | none => otherCopy s site line)
  else none

/-- What the coherent caches hold of a line that cache k of a control core wants. -/
def coherentCopy (s : State) (site k line : Nat) : Option (BitVec 512) :=
  if k = kIcache then heldForFetch s site line else if isCcSite site then otherCopy s site line else none

/-! ### Fills (09 R257, R260, R263) -/

/-- Requests of control cores for a line that have not been performed (09 R257). -/
def linePackets (s : State) (line : Nat) : List MemOp :=
  s.packets.filterMap (fun p => match p.body with
    | .memReq _ _ op => if isCcSite p.ssite && p.sdev == ownDev s && p.ddev == ownDev s && p.addr / 64 == line then some op else none
    | _ => none)

/-- The bytes of a line that control cores have sent and that the target does not yet hold. -/
def sentBytes (s : State) (line : Nat) : List MergedStore :=
  s.packets.flatMap (fun p => match p.body with
    | .memReq _ _ op =>
      if isCcSite p.ssite && p.sdev == ownDev s && p.ddev == ownDev s && p.addr / 64 == line then
        (match op with
         | .store d => [⟨0, p.addr % 64, d, none⟩]
         | .writeBack d en => enabledStores d en
         | _ => [])
      else []
    | _ => [])

/-- A fill is asked for in cache k. On a control core it takes in what is on its way to the target, and it is not kept where an AMO is
(09 R253, R257; assumption log 69). -/
def sendFill (site : Nat) (t : Fin 4) (k line dst : Nat) (m : Miss) (s : State) : State :=
  let m1 := if isCcSite site then
      { m with stores := sentBytes s line ++ m.stores
               killed := m.killed || (linePackets s line).any (fun o => match o with | .amo _ _ _ _ => true | _ => false) }
    else m
  sendMem site t (lvlAt s site t) (ownDev s) dst (line * 64) m.req (.fill (k == kIcache))
    (modCache site k (fun c => { c with misses := c.misses ++ [m1] }) s)

/-- The line, wherever cache k and its misses hold it. -/
def knows (site k line : Nat) (c : Cache) : Bool :=
  (wayOf (geomAt site k) c line).isSome || (sideLine c line).isSome || c.misses.any (fun m => m.line == line && !m.killed)

/-- Every miss status register of an L2 is taken, by its own misses and those of its L1D and L1I. -/
def l2Full (s : State) (site : Nat) : Bool :=
  isCcSite site && decide (cacheMisses true kL2 ≤
    (([kIcache, kData, kL2].flatMap (fun k => (cacheAt s site k).misses.map (·.req))).eraseDups).length)

/-- No miss status register of cache k is free. -/
def missesFull (s : State) (site k : Nat) : Bool :=
  decide (cacheMisses (isCcSite site) k ≤ (cacheAt s site k).misses.length) || l2Full s site

/-- A prefetch into the side buffer of cache k, where a miss status register is free and the target can be read (09 R260). What the
coherent caches hold is taken from them. -/
def sidePrefetch (site : Nat) (t : Fin 4) (k line : Nat) (s : State) : State :=
  if knows site k line (cacheAt s site k) || missesFull s site k then s
  else match coherentCopy s site k line, memSite s (line * 64) with
    | some d, _ => modCache site k (addSide line d) s
    | none, none => s
    | none, some dst =>
      let r := newReq s
      sendFill site t k line dst (sideMiss r.1 line) r.2

/-- On an L1D miss the L2 prefetches the next sequential line, whatever the region attribute table holds for it: the manual names no policy
there (assumption log 80). -/
def l2Prefetch (site : Nat) (t : Fin 4) (line : Nat) (s : State) : State :=
  if isCcSite site && cacheable s site ((line + 1) * 64) then sidePrefetch site t kL2 (line + 1) s else s

/-- An access of a control core that its L1D does not serve. -/
def missL1 (site : Nat) (t : Fin 4) (line : Nat) (s : State) : State :=
  if isCcSite site then l2Prefetch site t line (countPerf site 0xB t 1 s) else s

/-! ### Lookups -/

/-- A line of a side buffer moves into the cache, where its set has an unlocked way (09 R260). The pseudo-LRU bits then point away from it
under every policy, ST included (assumption log 80). -/
def moveIn (site line : Nat) (d : BitVec 512) (s : State) : State :=
  (installData site (cleanLine line d) false (modCache site (dataCache site) (dropSide line) (modCache site kData (dropSide line) s))).getD s

/-- A lookup of a line: a hit is noted in the pseudo-LRU bits, and a line of a side buffer moves into the cache (09 R260, R262). On a
control core a hit in the L1D is noted in the L2's bits too (assumption log 80), and one in the L2 is copied to the L1D where `copy`
says that the access allocates, `toward` as an ST fill. -/
def promote (site : Nat) (t : Fin 4) (line : Nat) (copy toward : Bool) (s : State) : State :=
  let k := dataCache site
  let g := geomAt site k
  match wayOf g (cacheAt s site k) line with
  | some w =>
    let s1 := modCache site k (touchWay g line w false) s
    if isCcSite site then
      match wayOf (geomAt site kData) (cacheAt s site kData) line with
      | some v => modCache site kData (touchWay (geomAt site kData) line v false) s1
      | none =>
        let s2 := missL1 site t line s1
        (match lineIn g (cacheAt s site k) line with
         | some l => if copy then copyToL1 site l toward s2 else s2
         | none => s2)
    else s1
  | none =>
    match sideLine (cacheAt s site kData) line, sideLine (cacheAt s site k) line with
    | some d, _ => moveIn site line d s
    | none, some d => moveIn site line d (missL1 site t line s)
    | none, none => s

/-- A store's bytes reach every coherent copy and every fill under way. -/
def patchDomain (site line off : Nat) (bs : List Byte) (s : State) : State :=
  (domainOf s site).foldl (fun st x =>
    let s1 := modCache x kData (patchCopies (geomAt x kData) line off bs) st
    if isCcSite x then
      modCache x kIcache (mapMiss line (fun m => { m with stores := m.stores ++ [⟨0, off, bs, none⟩] }))
        (modCache x kL2 (patchCopies (geomAt x kL2) line off bs) s1)
    else s1) s

/-- A held line has been written by a thread; under WB and NA its bytes become dirty (09 R245, Table 9.4). -/
def markWritten (site line : Nat) (dirty : BitVec 64) (t : Fin 4) (s : State) : State :=
  modCache site (dataCache site) (mapLine (geomAt site (dataCache site)) line (fun l =>
    { l with dirty := l.dirty ||| dirty, tmask := l.tmask ||| (1#4 <<< t.val) })) s

/-- A number of bytes of a line. -/
def lineBytes (d : BitVec 512) (off n : Nat) : Nat := d.toNat / 256 ^ off % 256 ^ n

/-! ### Results -/

/-- A load's value as its destination takes it. -/
def extendLoad (signed : Bool) (n v : Nat) : Word := if signed then BitVec.ofInt 64 (toSigned (8 * n) v) else BitVec.ofNat 64 v

/-- The destination of a load is written, and marked poisoned where the data came with an uncorrectable error (08 R222). -/
def setLoaded (site : Nat) (t : Fin 4) (dst : Option Nat) (v : Word) (poison : Option Word) (s : State) : State :=
  modThr site t (fun h =>
    let h1 := writeKey dst v h
    match dst, poison with
    | some k, some e => { h1 with poisonG := (k, e) :: h1.poisonG }
    | _, _ => h1) s

/-- SUB of a fault that a target has found: a level below the one that Table 8.1 gives is SUB 0x3 (08 R213). -/
def targetSub (code : Nat) : Nat := if code = 2 then 3 else 0

/-- An outstanding load or atomic operation ends (08 R221, R222). -/
def endLoad (site : Nat) (t : Fin 4) (o : Outstanding) (res : MemResult) (s : State) : State :=
  let s1 := modThr site t (fun h => { h with loads := h.loads.filter (fun p => p.req != o.req) }) s
  let n := 2 ^ o.lg.val
  let s2 := match res with
    | .data v => setLoaded site t o.dst (extendLoad o.signed n (v.toNat % 256 ^ n)) none s1
    | .poisoned v _ => setLoaded site t o.dst (extendLoad o.signed n (v.toNat % 256 ^ n)) (some o.ea) s1
    | .fault code _ =>
      postImprecise site t code (targetSub code) o.ea (modThr site t (fun h => match o.dst with
        | some k => { h with poisonG := (k, o.ea) :: mdel h.poisonG k }
        | none => h) s1)
    | _ => s1
  recheck site t s2

/-- An outstanding store or write-back of thread t ends, for every thread that waits for it. -/
def endStore (site : Nat) (t : Fin 4) (req : Nat) (res : MemResult) (s : State) : State :=
  let ea := match (getThr s site t).stores.find? (fun o => o.req == req) with | some o => o.ea | none => 0
  let s1 := threadsOf.foldl (fun st u =>
    if (getThr st site u).stores.any (fun o => o.req == req) then
      modThr site u (fun h => { h with stores := h.stores.filter (fun o => o.req != req) }) st
    else st) s
  let s2 := match res with
    | .fault code at_ => postImprecise site t code (targetSub code) (if code = 0x0E then BitVec.ofNat 64 at_ else ea) s1
    | _ => s1
  threadsOf.foldl (fun st u => recheck site u st) s2

/-! ### Fills (09 R259, R263) -/

/-- Data of a fill with the stores merged into it. -/
def withStores (m : Miss) (d : BitVec 512) : BitVec 512 := m.stores.foldl (fun x e => patchWord e.off e.bytes x) d

/-- Dirty mask and thread mask of the stores that only the line holds. -/
def mergedDirty (m : Miss) : BitVec 64 × BitVec 4 :=
  m.stores.foldl (fun x e => match e.by_ with
    | some (t, _) => (x.1 ||| byteMask e.off e.bytes.length, x.2 ||| (1#4 <<< t.val))
    | none => x) (0, 0)

/-- The loads merged into a miss end with the line's data, or as `fault` says. -/
def endMerged (site : Nat) (m : Miss) (d : BitVec 512) (bad : BitVec 64) (fault : Option Nat) (s : State) : State :=
  m.merged.foldl (fun st req =>
    threadsOf.foldl (fun st t =>
      match (getThr st site t).loads.find? (fun o => o.req == req) with
      | some o =>
        let off := o.addr % 64
        let v : Word := BitVec.ofNat 64 (lineBytes d off o.bytes)
        let res := match fault with
          | some c => MemResult.fault c o.addr
          | none => if bad &&& byteMask off o.bytes ≠ 0 then .poisoned v o.addr else .data v
        endLoad site t o res st
      | none => st) st) s

/-- A store merged into a miss that was not placed goes to its target under its own request (09 R259). -/
def resendMerged (site line : Nat) (m : Miss) (s : State) : State :=
  m.stores.foldl (fun st e =>
    match e.by_ with
    | some (t, l) =>
      (match memSite st (line * 64) with
       | some dst => sendMem site t l (ownDev st) dst (line * 64 + e.off) e.req (.store e.bytes) st
       | none => endStore site t e.req (.fault 6 0) st)
    | none => st) s

/-- The stores of a placed line are done: they leave the posted stores and reach the other coherent copies. -/
def endMergedStores (site line : Nat) (m : Miss) (s : State) : State :=
  m.stores.foldl (fun st e =>
    match e.by_ with
    | some (t, _) => endStore site t e.req .done (patchDomain site line e.off e.bytes st)
    | none => st) s

/-- A data fill has come: the line is placed unless it was invalidated, holds bad data, or every way is locked. -/
def dataFill (site : Nat) (m : Miss) (v : BitVec 512) (bad : BitVec 64) (s : State) : State :=
  let other := otherCopy s site m.line
  let bad1 := if other.isSome then 0 else bad
  let d := withStores m (other.getD v)
  let keep := !m.killed && bad1 == 0
  match m.kind with
  | .side => s
  | .demand pol =>
    let dm := mergedDirty m
    let placed := if keep then installData site ⟨m.line, d, dm.1, dm.2⟩ (pol == 4) s else none
    endMerged site m d bad1 none (match placed with
      | some s1 => endMergedStores site m.line m s1
      | none => resendMerged site m.line m s)

/-- A fill that the target refused: every access that waits on it takes the fault. -/
def dataFillFault (site : Nat) (m : Miss) (code : Nat) (s : State) : State :=
  endMerged site m 0 0 (some code) (m.stores.foldl (fun st e =>
    match e.by_ with
    | some (t, _) => endStore site t e.req (.fault code (m.line * 64)) st
    | none => st) s)

/-- Misses of cache k that a fill with a request number ends. -/
def missesOf (s : State) (site k req : Nat) : List Miss := (cacheAt s site k).misses.filter (fun m => m.req == req)
def dropMisses (site k req : Nat) (s : State) : State :=
  modCache site k (fun c => { c with misses := c.misses.filter (fun m => m.req != req) }) s

/-- A side fill of cache k: a line that its ways have come to hold meanwhile stays there. -/
def sideFill (site k : Nat) (m : Miss) (v : BitVec 512) (bad : BitVec 64) (s : State) : State :=
  let held := coherentCopy s site k m.line
  if m.killed || (held.isNone && bad ≠ 0) || (wayOf (geomAt site k) (cacheAt s site k) m.line).isSome ||
      (k = kData && (dataLine s site m.line).isSome) then s
  else modCache site k (addSide m.line (withStores m (held.getD v))) s

/-- One miss of a data cache ends. -/
def endMiss (site k : Nat) (m : Miss) (res : MemResult) (s : State) : State :=
  match res, m.kind with
  | .line v bad, .side => sideFill site k m v bad s
  | .line v bad, .demand _ => dataFill site m v bad s
  | .fault code _, _ => dataFillFault site m code s
  | _, _ => s

/-- A data fill reaches its core: the misses of the L1D or RLC, and of the L2, under its request. -/
def fillReply (site req : Nat) (res : MemResult) (s : State) : State :=
  let d := missesOf s site kData req
  let l := if isCcSite site then missesOf s site kL2 req else []
  let s1 := dropMisses site kData req (if l.isEmpty then s else dropMisses site kL2 req s)
  if d.isEmpty then l.foldl (fun st m => endMiss site kL2 m res st) s1
  else d.foldl (fun st m => endMiss site kData m res st) s1

/-! ### Loads -/

/-- The set of a line in the data cache has no way that can be filled. -/
def setLocked (s : State) (site line : Nat) : Bool :=
  (victimWay (geomAt site (dataCache site)) (cacheAt s site (dataCache site)) line).isNone

/-- What becomes of a data access that misses, by the miss status registers (09 R263). -/
inductive MissPlace where
  /-- sent to the target as if the policy were UC -/
  | direct
  /-- merged into a miss of its line -/
  | merge
  /-- a register of the L1D, for the fill that the L2 already awaits -/
  | join (m : Miss)
  /-- a register, and a fill from this site -/
  | fill (dst : Nat)

/-- A line held in a register merges up to 8 accesses; a line without one takes a free register. -/
def missPlace (s : State) (site a : Nat) : MissPlace :=
  let line := a / 64
  match missFor (cacheAt s site kData) line with
  | some m => if m.killed || maxMerged ≤ m.merges then .direct else .merge
  | none =>
    if setLocked s site line || cacheMisses (isCcSite site) kData ≤ (cacheAt s site kData).misses.length then .direct
    else match (if isCcSite site then missFor (cacheAt s site kL2) line else none) with
      | some m => if m.killed then .direct else .join m
      | none => if l2Full s site then .direct else match memSite s a with
        | some dst => .fill dst
        | none => .direct

/-- A load that misses. -/
def missLoad (site : Nat) (t : Fin 4) (x : Access) (dst : Option Nat) (signed : Bool) (pol : Nat) (s : State) : State :=
  let line := x.a / 64
  let r := newReq s
  let waits := addLoad site t (outstanding x r.1 dst signed false) r.2
  match missPlace s site x.a with
  | .direct => sendLoad site t x dst signed false (.load x.n) s
  | .merge => modCache site kData (mapMiss line (mergeInto pol r.1 [])) waits
  | .join m => modCache site kData (fun c => { c with
      misses := c.misses ++ [{ m with kind := .demand (BitVec.ofNat 3 pol), merged := [r.1], merges := 0 }] }) waits
  | .fill dst1 =>
    let f := newReq waits
    sendFill site t kData line dst1 (demandMiss f.1 line pol [r.1] []) f.2

/-- A load of a cacheable target (09 Table 9.4). -/
def cachedLoad (site : Nat) (t : Fin 4) (x : Access) (dst : Option Nat) (signed : Bool) (pol : Nat) (s : State) : State :=
  let line := x.a / 64
  let s1 := promote site t line (pol != 3) (pol == 4) s
  let take := fun (d : BitVec 512) (st : State) => setLoaded site t dst (extendLoad signed x.n (lineBytes d (x.a % 64) x.n)) none st
  match dataLine s1 site line, dataSide s1 site line with
  | some l, _ => take l.data s1
  | none, some d => take d s1
  | none, none =>
    let s2 := l2Prefetch site t line (countPerf site 0xB t 1 s1)
    match otherCopy s2 site line with
    | some d => take d (if pol = 3 then s2 else (installData site (cleanLine line d) (pol == 4) s2).getD s2)
    | none => if pol = 3 then sendLoad site t x dst signed false (.load x.n) s2 else missLoad site t x dst signed pol s2

/-- A load that has passed its checks. -/
def doLoad (site : Nat) (t : Fin 4) (x : Access) (dst : Option Nat) (signed : Bool) (s : State) : State :=
  match ownOffset site x with
  | some off =>
    let v := leNat (lmReadN s site off x.n)
    setLoaded site t dst (extendLoad signed x.n v) (if (lmFirstBad s site off x.n).isSome then some x.ea else none) (noteLm site off x.n s)
  | none =>
    let pol := accessPolicy s site x
    if pol = 0 then sendLoad site t x dst signed false (.load x.n) s else cachedLoad site t x dst signed pol s

/-! ### Stores -/

/-- A WB store that misses allocates its line (09 Table 9.4). -/
def missStore (site : Nat) (t : Fin 4) (x : Access) (bs : List Byte) (s : State) : State :=
  let line := x.a / 64
  let off := x.a % 64
  let r := newReq s
  let waits := addStore site t (outstanding x r.1 none false false) r.2
  let e : MergedStore := ⟨r.1, off, bs, some (t, x.lvl)⟩
  match missPlace s site x.a with
  | .direct => sendStore site t x bs (patchDomain site line off bs s)
  | .merge => modCache site kData (mapMiss line (mergeInto 1 r.1 [e])) waits
  | .join m => modCache site kData (fun c => { c with
      misses := c.misses ++ [{ m with kind := .demand 1, merged := [r.1], merges := 0, stores := m.stores ++ [e] }] }) waits
  | .fill dst1 =>
    let f := newReq waits
    sendFill site t kData line dst1 (demandMiss f.1 line 1 [r.1] [e]) f.2

/-- A store that hits: the copies are updated; under WB and NA the line becomes dirty, else the store is sent too. -/
def hitStore (site : Nat) (t : Fin 4) (x : Access) (bs : List Byte) (pol : Nat) (s : State) : State :=
  let line := x.a / 64
  let s1 := patchDomain site line (x.a % 64) bs s
  if pol = 1 || pol = 3 then markWritten site line (byteMask (x.a % 64) bs.length) t s1
  else sendStore site t x bs (markWritten site line 0 t s1)

/-- A store to a cacheable target. -/
def cachedStore (site : Nat) (t : Fin 4) (x : Access) (bs : List Byte) (pol : Nat) (s : State) : State :=
  let line := x.a / 64
  let s1 := promote site t line (pol == 1) false s
  match dataLine s1 site line with
  | some _ => hitStore site t x bs pol s1
  | none =>
    let s2 := l2Prefetch site t line (countPerf site 0xB t 1 s1)
    if pol = 1 then
      match otherCopy s2 site line with
      | some d => (match installData site (cleanLine line d) false s2 with
        | some s3 => hitStore site t x bs pol s3
        | none => sendStore site t x bs (patchDomain site line (x.a % 64) bs s2))
      | none => missStore site t x bs s2
    else sendStore site t x bs (patchDomain site line (x.a % 64) bs s2)

/-- A write to the own local memory by a thread: a discarded part is an imprecise data error at `ea` (19 R588). -/
def ownStore (site : Nat) (t : Fin 4) (off : Nat) (ea : Word) (bs : List Byte) (s : State) : State :=
  let s1 := lmWriteN site off bs s
  match lmFirstLost s site off bs.length with
  | some x => postImprecise site t 0x0E 0 (ea + BitVec.ofNat 64 (x - off)) s1
  | none => s1

/-- A store that has passed its checks. -/
def doStore (site : Nat) (t : Fin 4) (x : Access) (bs : List Byte) (s : State) : State :=
  match ownOffset site x with
  | some off => ownStore site t off x.ea bs s
  | none =>
    let pol := accessPolicy s site x
    if pol = 0 then sendStore site t x bs s else cachedStore site t x bs pol s

/-! ### Lines named by a word (09 R253, R258, Table 9.5) -/

/-- The union of the dirty bytes of a line in the coherent caches of a site. -/
def dirtyUnion (s : State) (site line : Nat) : Option CacheLine :=
  (domainOf s site).foldl (fun (a : Option CacheLine) x =>
    match lineIn (geomAt x (dataCache x)) (cacheAt s x (dataCache x)) line, a with
    | some l, none => if l.dirty = 0 then none else some l
    | some l, some b => some { b with dirty := b.dirty ||| l.dirty, tmask := b.tmask ||| l.tmask }
    | none, b => b) none

/-- Every copy of the line becomes clean. -/
def cleanCopies (site line : Nat) (s : State) : State :=
  (domainOf s site).foldl (fun st x =>
    modCache x (dataCache x) (mapLine (geomAt x (dataCache x)) line (fun l => { l with dirty := 0, tmask := 0 })) st) s

/-- The dirty bytes of a line are written back for thread t; the copies stay, clean. -/
def cleanWord (site : Nat) (t : Fin 4) (line : Nat) (s : State) : State :=
  match dirtyUnion s site line with
  | none => s
  | some l =>
    let owners := if isCcSite site then [t] else threadsOf.filter (fun u => u == t || l.tmask.getLsbD u.val)
    writeBackLine site t owners l (cleanCopies site line s)

/-- Every copy of the line is invalidated, dirty bytes and all. What leaves an L2 leaves its L1I too (09 R246). -/
def dropCopies (site line : Nat) (s : State) : State :=
  (domainOf s site).foldl (fun st x =>
    let s1 := modCache x kData (invalidateLine (geomAt x kData) line) st
    if isCcSite x then
      modCache x kIcache (dropLine (geomAt x kIcache) line) (modCache x kL2 (invalidateLine (geomAt x kL2) line) s1)
    else s1) s

/-- Every dirty line of a site's own data cache is written back. -/
def cleanAll (site : Nat) (t : Fin 4) (pick : CacheLine → Bool) (s : State) : State :=
  ((cacheAt s site (dataCache site)).lines.filter (fun e => e.2.dirty != 0 && pick e.2)).foldl (fun st e =>
    writeBackLine site t (threadsOf.filter (fun u => u == t || e.2.tmask.getLsbD u.val)) e.2
      (modCache site (dataCache site) (mapLine (geomAt site (dataCache site)) e.2.line (fun l => { l with dirty := 0, tmask := 0 })) st)) s

/-- FENCE.ST on a core forces out the lines that the thread wrote (09 R254); on a control core it writes back nothing (R255). -/
def forceStores (site : Nat) (t : Fin 4) (s : State) : State :=
  if isCcSite site then s else cleanAll site t (fun l => l.tmask.getLsbD t.val) s

/-- Nothing is left for FENCE.ST to force out. -/
def storesForced (s : State) (site : Nat) (t : Fin 4) : Bool :=
  isCcSite site || !(cacheAt s site kData).lines.any (fun e => e.2.dirty != 0 && e.2.tmask.getLsbD t.val)

/-! ### Atomic operations (03 R91, 09 R253) -/

/-- An AMO or AMOG that has passed its checks, its line being dirty in no coherent cache. An AMO under the UC policy too finds and
invalidates the copies of its line (09 R253 before R252; assumption log 80); a group access finds none. -/
def doAmo (site : Nat) (t : Fin 4) (x : Access) (dst : Option Nat) (op : Fin 10) (b c : Word) (s : State) : State :=
  match ownOffset site x with
  | some off =>
    let r := serveLm site off x.a (.amo op x.n b c) s
    (match r.1 with
     | .data v => setLoaded site t dst v none r.2
     | .poisoned v _ => setLoaded site t dst v (some x.ea) r.2
     | _ => r.2)
  | none =>
    let s1 := if !x.group && cacheable s site x.a then dropCopies site (x.a / 64) s else s
    sendLoad site t x dst false true (.amo op x.n b c) s1

end Sys2Proof.Machine
end

