-- ==== Sys2Proof/Machine/Mmu.lean ====
section
/-! DEFINITION. Translation on control cores (09 R264 to R269): the TLBs, the walk, and the permissions of a page. -/

namespace Sys2Proof.Machine

open Sys2Proof

/-- What an access is, for its permission: a load, a store (with AMO and MEMFILL), or a fetch. -/
inductive Kind where
  | load | store | fetch
  deriving DecidableEq, Repr

/-- A translation held in a TLB that covers a page (09 R269). -/
def tlbMatches (asid vpn : Nat) (e : TlbEntry) : Bool :=
  e.vpn / 512 ^ e.level == vpn / 512 ^ e.level && (e.asid == asid || bit e.pte 57)

/-- A valid entry is malformed (09 R266). -/
def pteMalformed (level : Nat) (p : Word) : Bool :=
  let leaf := bit p 62
  fld p 55 48 != 0 || fld p 11 0 != 0 || (leaf && level == 3) || (!leaf && level == 0) ||
  (!leaf && fld p 61 56 != 0) || (leaf && fld p 47 12 % 512 ^ level != 0) || (bit p 60 && !bit p 61)

/-- How a walk ends: at a leaf, or with the SUB of a walk error, or with no valid leaf. -/
inductive WalkEnd where
  | leaf (e : TlbEntry)
  | error (sub : Nat)
  | noLeaf
  deriving DecidableEq, Repr

/-- Memory that the walker reads at the machine level: a window of another site answers as it does a request (05 R137). -/
def walkerRead (s : State) (site a n : Nat) : Option (List Byte) :=
  match regionOf a with
  | .window w off => if w ≠ site && windowRefusal s w off n ≠ 0 then none else devRead s a n
  | _ => devRead s a n

/-- A line that the walker's L2 misses, with what control cores have sent to it and the target does not yet hold (09 R257, R265). -/
def walkerFill (s : State) (site line : Nat) : Option (BitVec 512) :=
  (walkerRead s site (line * 64) 64).map (fun bs => (sentBytes s line).foldl (fun d e => patchWord e.off e.bytes d) (BitVec.ofNat 512 (leNat bs)))

/-- A page table entry as the walker reads it, through the L2 under the region attribute table, none where the read fails. -/
def readPte (s : State) (site a : Nat) : Option Word :=
  let fromLine := fun (d : BitVec 512) => some (BitVec.ofNat 64 (lineBytes d (a % 64) 8))
  let line := a / 64
  if policyAt s site a false = 0 then (walkerRead s site a 8).map (fun bs => BitVec.ofNat 64 (leNat bs))
  else match dataLine s site line, sideLine (cacheAt s site kL2) line, otherCopy s site line with
    | some l, _, _ => fromLine l.data
    | none, some d, _ => fromLine d
    | none, none, some d => fromLine d
    | none, none, none => (walkerFill s site line).bind fromLine

/-- The walk from the table at `base` for level `n - 1`: its end, the entries read, and the non-leaf entries met (09 R265). -/
def walkFrom (s : State) (site asid vpn : Nat) : Nat → Nat → WalkEnd × List Nat × List TlbEntry
  | 0, _ => (.noLeaf, [], [])
  | level + 1, base =>
    let a := base + 8 * (vpn / 512 ^ level % 512)
    match readPte s site a with
    | none => (.error (0x10 + level), [a], [])
    | some p =>
      if !bit p 63 then (.noLeaf, [a], [])
      else if pteMalformed level p then (.error level, [a], [])
      else
        let e : TlbEntry := ⟨vpn, level, asid, p⟩
        if bit p 62 then (.leaf e, [a], [])
        else
          let r := walkFrom s site asid vpn level (fld p 47 12 * 4096)
          (r.1, a :: r.2.1, e :: r.2.2)

/-- The walk of a page, from the deepest non-leaf entry that is held. -/
def walk (s : State) (site vpn : Nat) : WalkEnd × List Nat × List TlbEntry :=
  let m := (getCore s site).mmu
  let asid := fld m.ptbr 61 48
  let held := fun (l : Nat) => m.nonleaf.find? (fun e => e.level == l && e.asid == asid && e.vpn / 512 ^ l == vpn / 512 ^ l)
  match held 1, held 2, held 3 with
  | some e, _, _ => walkFrom s site asid vpn 1 (fld e.pte 47 12 * 4096)
  | none, some e, _ => walkFrom s site asid vpn 2 (fld e.pte 47 12 * 4096)
  | none, none, some e => walkFrom s site asid vpn 3 (fld e.pte 47 12 * 4096)
  | none, none, none => walkFrom s site asid vpn 4 (fld m.ptbr 47 12 * 4096)

/-- The translation that the TLBs hold for a page. -/
def tlbFind (m : Mmu) (fetch : Bool) (vpn : Nat) : Option TlbEntry :=
  let asid := fld m.ptbr 61 48
  match (if fetch then m.itlb else m.dtlb).find? (tlbMatches asid vpn) with
  | some e => some e
  | none => m.stlb.find? (tlbMatches asid vpn)

/-- A translation: of an address for an access, with the page's CD. `fault code sub` otherwise (09 Table 9.8). -/
inductive Xlat where
  | ok (pa : Nat) (cd : Bool)
  | fault (code sub : Nat)
  deriving DecidableEq, Repr

/-- Cause code by kind of access. -/
def xlatCode : Kind → Nat
  | .load => 0x19
  | .store => 0x1A
  | .fetch => 0x18

/-- The page grants the access. -/
def pageGrants (k : Kind) (l : Level) (p : Word) : Bool :=
  match k with
  | .load => bit p 61 && (l != .user || bit p 58)
  | .store => bit p 60 && (l != .user || bit p 58)
  | .fetch => bit p 59 && (bit p 58 == (l == .user))

/-- The result for a leaf. -/
def leafResult (k : Kind) (l : Level) (va : Nat) (e : TlbEntry) : Xlat :=
  if pageGrants k l e.pte then
    let size := 4096 * 512 ^ e.level
    .ok (fld e.pte 47 12 * 4096 / size * size + va % size) (bit e.pte 56)
  else .fault (xlatCode k) 2

/-- Translation of a 48-bit virtual address. -/
def translate (s : State) (site : Nat) (k : Kind) (l : Level) (va : Nat) : Xlat :=
  if !translated s site l then .ok va false
  else match tlbFind (getCore s site).mmu (k == .fetch) (va / 4096) with
    | some e => leafResult k l va e
    | none => match (walk s site (va / 4096)).1 with
      | .leaf e => leafResult k l va e
      | .error sub => .fault 0x1B sub
      | .noLeaf => .fault (xlatCode k) 1

/-- Set of the shared TLB that an entry of a level goes to (assumption log 33). -/
def tlbSet (e : TlbEntry) : Nat := e.vpn / 512 ^ e.level % 256

/-- An entry enters the shared TLB, of 256 sets of 8 ways (09 R269); a full set loses an entry that the manual does not name. -/
def tlbAddShared (free : Nat) (e : TlbEntry) (l : List TlbEntry) : List TlbEntry :=
  let mine := l.filter (fun x => tlbSet x == tlbSet e)
  if l.contains e then l
  else if mine.length < 8 then l ++ [e]
  else match mine[free % mine.length]? with
    | some x => l.filter (· != x) ++ [e]
    | none => l ++ [e]

/-- An entry enters a TLB of a size; a full one loses an entry that the manual does not name (assumption log 33). -/
def tlbAdd (size : Nat) (free : Nat) (e : TlbEntry) (l : List TlbEntry) : List TlbEntry :=
  if l.contains e then l else (if size ≤ l.length then l.eraseIdx (free % l.length) else l) ++ [e]

/-- The walker reads a line through the L2 alone, under the region attribute table (09 R265): a hit is noted there, a line of its side
buffer moves in, and a miss allocates where the policy does. -/
def walkerLine (site line : Nat) (s : State) : State :=
  let pol := policyAt s site (line * 64) false
  let g := geomAt site kL2
  if pol = 0 then s
  else match wayOf g (cacheAt s site kL2) line, sideLine (cacheAt s site kL2) line with
    | some w, _ => modCache site kL2 (touchWay g line w false) s
    | none, some d => (installAt site kL2 (cleanLine line d) false (modCache site kL2 (dropSide line) s)).getD s
    | none, none =>
      match (if pol = 3 then none else match otherCopy s site line with
        | some d => some d
        | none => walkerFill s site line) with
      | some d => (installAt site kL2 (cleanLine line d) (pol == 4) s).getD s
      | none => s

/-- What an access that goes forward leaves of its translation: TLB entries, non-leaf entries, and the lines that the walker read
(assumption log 34). -/
def noteTranslation (site : Nat) (k : Kind) (l : Level) (va : Nat) (s : State) : State :=
  if !translated s site l then s
  else
    let m := (getCore s site).mmu
    let vpn := va / 4096
    let first := (if k = .fetch then m.itlb else m.dtlb).find? (tlbMatches (fld m.ptbr 61 48) vpn)
    if first.isSome then s
    else
      let w := walk s site vpn
      let shared := m.stlb.find? (tlbMatches (fld m.ptbr 61 48) vpn)
      let leaf := match shared, w.1 with
        | some e, _ => some e
        | none, .leaf e => some e
        | _, _ => none
      match leaf with
      | none => s
      | some e =>
        let f := drawFree 32 s
        let n := f.1.toNat
        let s1 := modCore site (fun c => { c with mmu := { c.mmu with
          itlb := if k = .fetch then tlbAdd 64 n e c.mmu.itlb else c.mmu.itlb
          dtlb := if k = .fetch then c.mmu.dtlb else tlbAdd 64 n e c.mmu.dtlb
          stlb := tlbAddShared n e c.mmu.stlb
          nonleaf := if shared.isSome then c.mmu.nonleaf else w.2.2.foldl (fun x y => tlbAdd 32 n y x) c.mmu.nonleaf } }) f.2
        if shared.isSome then s1
        else w.2.1.foldl (fun st a => walkerLine site (a / 64) st) s1

end Sys2Proof.Machine
end

