-- ==== Sys2Proof/Machine/Access.lean ====
section
/-! DEFINITION. What a word meets before it takes effect: faults in the order of the codes (03 R122, 04 Table 4.10), stalls, and
the checks of scalar accesses (03 R85 to R91; 05 R135; 08 R213 to R217; 09 R264). -/

namespace Sys2Proof.Machine

open Sys2Proof

/-- Why a word does not take effect now: a fault with SUB, the value for cs.eaddr and TAG, or a long stall in which it waits to be
issued again, with what it has set going, a wait in which the thread keeps the slot (05 R130) and the word has not issued, the same
with a part of the word that is done (07 R204), or an entry that the word makes by rules of its own (08 R237). -/
inductive Trap where
  | fault (code sub : Nat) (ea : Word) (tag : Nat)
  | stall (w : Wait) (eff : State → State)
  | wait
  | partly (eff : State → State)
  | enter (eff : State → State)

/-- Where the pc goes: to the next word, to a target, nowhere while the issued word waits, or where the effect has put it. -/
inductive Next where
  | seq
  | jump (a : Word)
  | hold (w : Wait)
  | own

/-- The effect of a word whose checks have passed. -/
structure Done where
  eff : State → State
  next : Next

def fault (code : Nat) (ea : Word) : Except Trap α := .error (.fault code 0 ea 0)
def faultSub (code sub : Nat) (ea : Word) : Except Trap α := .error (.fault code sub ea 0)
def stallFor (w : Wait) : Except Trap α := .error (.stall w id)
def done (eff : State → State) : Except Trap Done := .ok ⟨eff, .seq⟩

/-- `x` where the condition holds, else the fault. -/
def guardFault (ok : Bool) (code : Nat) (ea : Word) (x : Except Trap α) : Except Trap α := if ok then x else fault code ea

/-! ### Local memory -/

/-- `n` bytes at a local offset touch the private slice of another thread (05 R135). -/
def touchesOtherSlice (s : State) (site : Nat) (t : Fin 4) (off n : Nat) : Bool :=
  let z := sliceSize site (getCore s site) * 0x8000
  threadsOf.any (fun u => u != t && decide (n ≠ 0) && decide (off < (u.val + 1) * z) && decide (u.val * z < off + n))

/-- A thread may reach `n` bytes of its own local memory at its level (05 R135, 08 R215). -/
def ownReach (s : State) (site : Nat) (t : Fin 4) (off n : Nat) : Bool :=
  let h := getThr s site t
  !touchesOtherSlice s site t off n && !(lvlOf h == .user && touchesGuard h off n)

/-- The checks of LDL and STL (03 R87, R88; 09 R243): the local offset. -/
def checkLocal (s : State) (site : Nat) (t : Fin 4) (ea : Word) (n : Nat) : Except Trap Nat :=
  let o := ea.toNat
  if lmBytes ≤ o then fault 8 ea
  else if o % n ≠ 0 then fault 9 ea
  else if isCcSite site && lvlOf (getThr s site t) == .user then fault 0xA ea
  else if !ownReach s site t o n then fault 0xA ea
  else .ok o

/-! ### Device and group addresses -/

/-- Permission bit of a window register. -/
def kindBit : Kind → Nat
  | .load => 63
  | .store => 62
  | .fetch => 61

/-- The level may reach `n` bytes of memory at a device address: the windows or, under translation, the page, and cs.mrange (08
R216, R217; 09 R264). -/
def levelReach (s : State) (site : Nat) (t : Fin 4) (k : Kind) (x : Access) : Bool :=
  let h := getThr s site t
  if translated s site x.lvl && !x.group then !touchesMrange h x.a x.n else mayReach h x.lvl x.a x.n (kindBit k)

/-- A neighbour joined by a bond link answers (05 R142). -/
def bondAnswers (s : State) (site w : Nat) : Bool := !bonded s site w || (getCore s w).power == .on

/-- The checks of a device access once its address is known: unit-absent, address, alignment, protection. -/
def checkTarget (s : State) (site : Nat) (t : Fin 4) (l : Level) (k : Kind) (amo : Bool) (x : Access) : Except Trap Access :=
  match regionOf x.a with
  | .hole => fault 8 x.ea
  | .siteReg _ _ | .deviceReg _ =>
    if !atLeast l (regLevel x.a (k == .store)) then faultSub 2 3 x.ea
    else
      let f := regFault s x.a x.n (k == .store)
      if f = 6 then (if unitLost s x.a && !amo then .ok x else fault 6 x.ea)
      else if amo then fault 8 x.ea
      else if f ≠ 0 then fault f x.ea
      else .ok x
  | .hbm =>
    if (memSite s x.a).isNone then fault 6 x.ea
    else if x.a % x.n ≠ 0 then fault 9 x.ea
    else if !levelReach s site t k x then fault 0xA x.ea
    else .ok x
  | .window w off =>
    if !hasThreads w || !bondAnswers s site w then fault 6 x.ea
    else if lmBytes ≤ off then fault 8 x.ea
    else if x.a % x.n ≠ 0 then fault 9 x.ea
    else if !levelReach s site t k x then fault 0xA x.ea
    else if w = site && !ownReach s site t off x.n then fault 0xA x.ea
    else .ok x

/-- The checks of a device access at an effective address (03 R86, R89). -/
def checkDevice (s : State) (site : Nat) (t : Fin 4) (k : Kind) (amo : Bool) (ea : Word) (n : Nat) : Except Trap Access :=
  let l := lvlOf (getThr s site t)
  let va := ea.toNat
  if 2 ^ 48 ≤ va then fault 8 ea
  else match translate s site k l va with
    | .fault code sub => faultSub code sub ea
    | .ok pa cd => checkTarget s site t l k amo { lvl := l, dev := none, ea := ea, a := pa, n := n, cd := cd, group := false }

/-- The checks of a group access (03 R86; 08 R213, R216; 09 R264; 17 R439). One to the own device is checked as a device access, but it is
not translated. -/
def checkGroup (s : State) (site : Nat) (t : Fin 4) (k : Kind) (amo : Bool) (ea : Word) (n : Nat) : Except Trap Access :=
  let l := lvlOf (getThr s site t)
  let dev := fld ea 56 48
  let a := fld ea 47 0
  if fld ea 63 57 ≠ 0 then fault 8 ea
  else if dev = ownDev s then checkTarget s site t l k amo { lvl := l, dev := none, ea := ea, a := a, n := n, cd := true, group := true }
  else if isRegAddr a && !atLeast l (regLevel a (k == .store)) then faultSub 2 3 ea
  else if a % n ≠ 0 then fault 9 ea
  else if !groupReach s l dev then fault 0xA ea
  else .ok { lvl := l, dev := some dev, ea := ea, a := a, n := n, cd := true, group := true }

/-! ### Loads, stores and atomic operations as words -/

/-- The page that an access came through is noted. -/
def noteAccess (site : Nat) (k : Kind) (x : Access) (s : State) : State :=
  if !x.group then noteTranslation site k x.lvl (x.ea.toNat % 2 ^ 48) s else s

/-- The earlier access that holds this one back (03 R94). Of the accesses to register blocks, item 3 is taken to order those to the own
device's blocks alone, and item 4 those to other devices (assumption log 79). -/
def overlapWait (s : State) (site : Nat) (t : Fin 4) (x : Access) : Option Nat :=
  if (ownOffset site x).isSome then none
  else heldBy (getThr s site t) x.dev x.a x.n (x.dev.isNone && isRegAddr x.a)

/-- The access is completed by the data cache. -/
def servedByCache (s : State) (site : Nat) (x : Access) : Bool :=
  accessPolicy s site x != 0 && (wouldHit s site (x.a / 64) || (otherCopy s site (x.a / 64)).isSome)

/-- A load takes one of the eight places. -/
def takesLoadPlace (s : State) (site : Nat) (x : Access) : Bool := (ownOffset site x).isNone && !servedByCache s site x

/-- A store takes one of the sixteen places. -/
def takesStorePlace (s : State) (site : Nat) (x : Access) : Bool :=
  let pol := accessPolicy s site x
  (ownOffset site x).isNone && !((pol == 1 || pol == 3) && wouldHit s site (x.a / 64))

/-- A load whose checks gave `x`. -/
def loadWord (s : State) (site : Nat) (t : Fin 4) (dst : Option Nat) (signed : Bool) (chk : Except Trap Access) : Except Trap Done :=
  match chk with
  | .error e => .error e
  | .ok x =>
    match overlapWait s site t x with
    | some r => stallFor (.overlap r)
    | none =>
      if takesLoadPlace s site x && 8 ≤ loadCount (getThr s site t) then stallFor .loadPlace
      else done (fun st => doLoad site t x dst signed (noteAccess site .load x st))

/-- A store whose checks gave `x`. -/
def storeWord (s : State) (site : Nat) (t : Fin 4) (v : Word) (chk : Except Trap Access) : Except Trap Done :=
  match chk with
  | .error e => .error e
  | .ok x =>
    match overlapWait s site t x with
    | some r => stallFor (.overlap r)
    | none =>
      if takesStorePlace s site x && 16 ≤ storeCount (getThr s site t) then stallFor .storePlace
      else done (fun st => doStore site t x (bytesOf v x.n) (noteAccess site .store x st))

/-- An AMO or AMOG whose checks gave `x`. A dirty line of it is written back first, while the word waits (09 R253). -/
def amoWord (s : State) (site : Nat) (t : Fin 4) (dst : Option Nat) (op : Fin 10) (b c : Word) (chk : Except Trap Access) :
    Except Trap Done :=
  match chk with
  | .error e => .error e
  | .ok x =>
    let own := (ownOffset site x).isSome
    match overlapWait s site t x with
    | some r => stallFor (.overlap r)
    | none =>
      if !own && 8 ≤ loadCount (getThr s site t) then stallFor .loadPlace
      else if x.dev.isSome && 16 ≤ storeCount (getThr s site t) then stallFor .storePlace
      else if !x.group && cacheable s site x.a && (dirtyUnion s site (x.a / 64)).isSome then
        .error (.stall (.overlap s.nextReq) (fun st => dropCopies site (x.a / 64) (cleanWord site t (x.a / 64) st)))
      else done (fun st => doAmo site t x dst op b c (noteAccess site .store x st))

/-- A local load. -/
def localLoadWord (s : State) (site : Nat) (t : Fin 4) (dst : Option Nat) (signed : Bool) (ea : Word) (n : Nat) : Except Trap Done :=
  match checkLocal s site t ea n with
  | .error e => .error e
  | .ok o =>
    let v := leNat (lmReadN s site o n)
    let bad := (lmFirstBad s site o n).isSome
    done (fun st => setLoaded site t dst (extendLoad signed n v) (if bad then some ea else none) (noteLm site o n st))

/-- A local store. -/
def localStoreWord (s : State) (site : Nat) (t : Fin 4) (v ea : Word) (n : Nat) : Except Trap Done :=
  match checkLocal s site t ea n with
  | .error e => .error e
  | .ok o => done (ownStore site t o ea (bytesOf v n))

/-! ### Fences (03 R95, R96; 09 R254) -/

/-- A fence, alone or implied: the lines it forces out, and the acknowledgements that it awaits. -/
def fenceWord (s : State) (site : Nat) (t : Fin 4) (k : FenceKind) (x : Except Trap α) : Except Trap α :=
  if k ≠ .ld && !storesForced s site t then .error (.stall (.fence k) (forceStores site t))
  else if !fenceClear k (getThr s site t) then stallFor (.fence k)
  else x

/-! ### Fetch -/

/-- A level may fetch the word at an address of the own local memory (08 R215, R217). -/
def fetchOwn (s : State) (site : Nat) (t : Fin 4) (l : Level) (off : Nat) : Bool :=
  let h := getThr s site t
  match l with
  | .user => !touchesOtherSlice s site t off 8 && !touchesGuard h off 8
  | .supervisor => !touchesOtherSlice s site t off 8
  | .machine => true

/-- Windows with EX = 1, for HBM at the user level, and cs.mrange. -/
def levelReachFetch (s : State) (site : Nat) (t : Fin 4) (l : Level) (a : Nat) : Bool :=
  let h := getThr s site t
  if translated s site l then !touchesMrange h a 8
  else match l, regionOf a with
    | .user, .window _ _ => true
    | _, _ => mayReach h l a 8 61

/-- A level may fetch the word at a device address (03 R93, 08 R215 to R217). -/
def fetchAllowed (s : State) (site : Nat) (t : Fin 4) (l : Level) (pa : Nat) : Bool :=
  fetchable s site (BitVec.ofNat 64 pa) && levelReachFetch s site t l pa &&
  match regionOf pa with
  | .window _ off => fetchOwn s site t l off
  | _ => true

/-- A fetch at a level: the device address, or the fault (03 R93, 08 R215 to R217, 09 R264 to R268). -/
def checkFetch (s : State) (site : Nat) (t : Fin 4) (pc : Word) : Except Trap Nat :=
  let l := lvlOf (getThr s site t)
  if pc.toNat % 8 ≠ 0 || 2 ^ 48 ≤ pc.toNat then fault 7 pc
  else match translate s site .fetch l pc.toNat with
    | .fault code sub => faultSub code sub pc
    | .ok pa _ =>
      if (memSite s pa).isNone && regionOf pa = .hbm then fault 6 pc
      else if fetchAllowed s site t l pa then .ok pa else fault 7 pc

/-- A transfer target that the transferring word checks: R93 and the level's own limits (R215, R216); on a control core that
translates, its alignment and bits [63:48] alone. -/
def checkJump (s : State) (site : Nat) (t : Fin 4) (a : Word) : Except Trap Unit :=
  let l := lvlOf (getThr s site t)
  if a.toNat % 8 = 0 && decide (a.toNat < 2 ^ 48) && (translated s site l || fetchAllowed s site t l a.toNat) then .ok () else fault 7 a

end Sys2Proof.Machine
end

