-- ==== Sys2Proof/Machine/Issue.lean ====
section
/-! DEFINITION. How a word issues: guards, the checks of a pair, asynchronous causes at the word boundary, the fetch, stalls and
faults, and what completes (03 R63 to R68, R78; 04 R104, R105, R120, R121; 05 R125 to R129; 08 R228, R231, R232). -/

namespace Sys2Proof.Machine

open Sys2Proof

/-- What a class of operations is: 0 INT, 1 BIT, 2 MEM, 3 VEC, 4 CTL, 5 TILE, 6 SYS (03 Table 3.1, 04 Table 4.3). -/
structure OpSpec where
  cls : Nat
  /-- the encoding is one that the tables list -/
  legal : Bool
  /-- it has a short form that holds these operands -/
  short : Bool
  /-- general and vector registers that it reads -/
  useG : List Reg
  useV : List Reg
  /-- destinations (03 R65, 04 R120) -/
  setG : List Reg
  setP : List PReg
  setV : List Reg
  /-- its checks and its effect -/
  prep : State → Except Trap Done
  /-- a resumable long instruction (08 R231) -/
  resumable : Bool

/-- An operation that touches no register beside those named later. -/
def OpSpec.base (cls : Nat) (prep : State → Except Trap Done) : OpSpec :=
  { cls := cls, legal := true, short := false, useG := [], useV := [], setG := [], setP := [], setV := [], prep := prep,
    resumable := false }

/-! ### Pairs (03 R65) -/

/-- Destinations as numbers; gr0 and p0 are none. -/
def destinations (sp : OpSpec) : List Nat :=
  ((sp.setG.map (·.val)).filter (· != 0)) ++ ((sp.setP.map (·.val)).filter (· != 0)).map (32 + ·) ++ sp.setV.map (40 + ·.val)

/-- SLOT of the illegal-instruction fault of a pair, none where the pair is legal. -/
def pairFault (a b : OpSpec) : Option Nat :=
  if !(a.legal && a.short) then some 0
  else if !(b.legal && b.short) then some 1
  else if a.cls = b.cls || (destinations a).any (fun d => (destinations b).contains d) then some 1
  else none

/-! ### Registers that a word waits for (05 R129, 08 R222) -/

/-- Keys of registers read or written: the first that awaits a load holds the word back. -/
def pendingKey (h : Thread) (ks : List Nat) : Option Nat := ks.find? (keyPending h)

/-- The registers named by their storage keys can be used: none pending, none that is read poisoned. -/
def keysReady (h : Thread) (reads writes : List Nat) (vs : List Reg) (x : Except Trap α) : Except Trap α :=
  match pendingKey h (reads ++ writes) with
  | some k => stallFor (.result false k)
  | none =>
    match h.poisonG.find? (fun e => reads.contains e.1), h.poisonV.find? (fun e => vs.any (fun v => v.val == e.1)) with
    | some e, _ => fault 0x0E e.2
    | none, some e => fault 0x0E e.2
    | none, none => x

def keysOf (h : Thread) (rs : List Reg) : List Nat := rs.filterMap (grKey h.win)

/-- One operation of a word: nothing where its guard is false (03 R78), else its checks. -/
def prepare (site : Nat) (t : Fin 4) (on : Bool) (sp : OpSpec) (s : State) : Except Trap Done :=
  let h := getThr s site t
  if !on then
    done (if sp.resumable then modExc site t (fun e => { e with progress := 0 }) else id)
  else keysReady h (keysOf h sp.useG) (keysOf h sp.setG) sp.useV (sp.prep s)

/-! ### Faults and the end of a word -/

/-- A synchronous fault is taken at the word (08 R220, R224). -/
def raise (site : Nat) (t : Fin 4) (pair : Bool) (slot code sub : Nat) (ea : Word) (tag : Nat) (s : State) : State :=
  let c : Cause := { mkCause code sub ea with tag := tag, pair := pair, slot := if pair then slot else 0 }
  stepDone site t (takeException site t c (getThr s site t).pc s)

/-- Accesses that an accumulator held back are tried again after a step of the core (23 R571). -/
def afterWord (s : State) : State := settleHeld s

/-- The pc of a completed word. -/
def setPc (site : Nat) (t : Fin 4) (a : Word) (s : State) : State :=
  modThr site t (fun h => { h with pc := a, mid := none, abandoned := 0, fetched := none }) s

/-- A word that does not take effect: a fault is taken, a stall entered, and what it waits for may be there at once. -/
def trap (site : Nat) (t : Fin 4) (pair : Bool) (slot : Nat) (e : Trap) (s : State) : State :=
  match e with
  | .fault code sub ea tag => raise site t pair slot code sub ea tag s
  | .stall w eff => recheck site t (stallThread site t w (eff s))
  | .wait => s
  | .partly eff => eff s
  | .enter eff => stepDone site t (eff s)

/-- A word whose effect has been made. -/
def complete (site : Nat) (t : Fin 4) (n : Next) (s : State) : State :=
  match n with
  | .seq => stepDone site t (setPc site t ((getThr s site t).pc + 8) s)
  | .jump a => stepDone site t (setPc site t a s)
  | .hold w => stallThread site t w s
  | .own => s

/-! ### Fetch (05 R129, 08 R222, 09 R248, R260, R263) -/

/-- How a fetch ends. -/
inductive Fetch where
  | word (s : State) (w : Word)
  | miss (s : State) (line : Nat)
  | fault (s : State) (code sub : Nat)

/-- The next sequential line is fetched into the side buffer of the instruction cache. -/
def fetchAhead (site : Nat) (t : Fin 4) (line : Nat) (s : State) : State :=
  let ok := match regionOf (line * 64) with
    | .hbm => true
    | .window w off => w == site && decide (off + 64 ≤ lmBytes)
    | _ => false
  if ok then sidePrefetch site t kIcache line s else s

/-- A line enters the instruction cache: on a control core through its L2, which includes the L1I (09 R246). A line that the L2 holds
counts as a hit there, and one of its side buffer moves in (09 R260, R262). -/
def installFetch (site line : Nat) (d : BitVec 512) (s : State) : Option State :=
  let l2 := if isCcSite site then
      match wayOf (geomAt site kL2) (cacheAt s site kL2) line with
      | some w => some (modCache site kL2 (touchWay (geomAt site kL2) line w false) s)
      | none => installAt site kL2 (cleanLine line d) false (modCache site kL2 (dropSide line) s)
    else some s
  match l2 with
  | none => none
  | some s1 => installAt site kIcache (cleanLine line d) false s1

/-- The word at offset `o` of a line. -/
def wordIn (d : BitVec 512) (o : Nat) : Word := BitVec.ofNat 64 (d.toNat / 2 ^ (8 * (o % 64)) % 2 ^ 64)

/-- The instruction cache is looked up for the word at device address `pa`, and a miss asks for its line. -/
def fetchLine (site : Nat) (t : Fin 4) (pa : Nat) (s : State) : Fetch :=
  let line := pa / 64
  let g := geomAt site kIcache
  let c := cacheAt s site kIcache
  match lineIn g c line with
  | some l => .word (modCache site kIcache (touchWay g line ((wayOf g c line).getD 0) false) s) (wordIn l.data pa)
  | none =>
    match sideLine c line with
    | some d =>
      .word ((installFetch site line d (modCache site kIcache (dropSide line) s)).getD s) (wordIn d pa)
    | none =>
      let s1 := countPerf site 0xA t 1 s
      match heldForFetch s1 site line with
      | some d => .word (fetchAhead site t (line + 1) ((installFetch site line d s1).getD s1)) (wordIn d pa)
      | none =>
        match missFor c line with
        | some m => .miss (if m.killed then s1 else
            modCache site kIcache (mapMiss line (fun m => { m with kind := .demand 0 })) s1) line
        | none =>
          if missesFull s1 site kIcache then .miss s1 line
          else match memSite s1 (line * 64) with
            | some dst =>
              let r := newReq s1
              .miss (fetchAhead site t (line + 1) (sendFill site t kIcache line dst (demandMiss r.1 line 0 [] []) r.2)) line
            | none => .fault s1 6 0

/-- The fetch of the word at the pc of a thread. -/
def fetchWord (site : Nat) (t : Fin 4) (s : State) : Fetch :=
  let h := getThr s site t
  match checkFetch s site t h.pc with
  | .error (.fault code sub _ _) => .fault s code sub
  | .error _ => .fault s 7 0
  | .ok pa =>
    let s1 := noteTranslation site .fetch (lvlOf h) h.pc.toNat s
    match h.fetched with
    | some (a, code, w) =>
      if a = h.pc then
        let s2 := modThr site t (fun x => { x with fetched := none }) s1
        if code = 0 then .word s2 w else .fault s2 code 0
      else fetchLine site t pa s1
    | none => fetchLine site t pa s1

/-! ### The word boundary (08 R228) and the word -/

/-- The other slot's operation is executed by `b` in slot 1 or slot 0. -/
def pairOrder (slot : Fin 2) (mine other : α) : α × α := if slot = 0 then (mine, other) else (other, mine)

/-- A pair whose checks have passed: slot 0's effect, slot 1's effect, a control transfer last (03 R68). -/
def commitPair (site : Nat) (t : Fin 4) (c0 : Nat) (a b : Done) (s : State) : State :=
  if c0 = 4 then complete site t a.next (a.eff (b.eff s)) else complete site t b.next (b.eff (a.eff s))

/-- A word in the form `f`: both slots' checks on the state before it, then its effects. A word under `fetched` is put into one of the two
forms before it comes here. -/
def performWord (c : Ctx) (f : Form) (sp os : OpSpec) (s : State) : State :=
  let site := c.site.val
  let t := c.thr
  let h := getThr s site t
  let s1 := countPerf site 2 t 1 s
  match f with
  | .fetched => s
  | .long neg gp =>
    if !sp.legal then raise site t false 0 1 0 0 0 s
    else match prepare site t (readP h gp != neg) sp s with
      | .error e => trap site t false 0 e s
      | .ok d => complete site t d.next (d.eff (if sp.cls = 3 then countPerf site 9 t 1 s1 else s1))
  | .pair slot sg osg _ =>
    let p := pairOrder slot sp os
    let g := pairOrder slot (readP h (Fin.ofNat 8 sg.val)) (readP h (Fin.ofNat 8 osg.val))
    match pairFault p.1 p.2 with
    | some k => raise site t true k 1 0 0 0 s
    | none =>
      match prepare site t g.1 p.1 s, prepare site t g.2 p.2 s with
      | .error e, _ => trap site t true 0 e s
      | .ok _, .error e => trap site t true 1 e s
      | .ok a, .ok b =>
        let s2 := countPerf site 3 t 1 s1
        commitPair site t p.1.cls a b (if p.1.cls = 3 || p.2.cls = 3 then countPerf site 9 t 1 s2 else s2)

/-- The thread holds the slot and can issue. -/
def canIssue (s : State) (site : Nat) (t : Fin 4) : Bool :=
  let h := getThr s site t
  (getCore s site).power == .on && h.run == .running && !h.halted

/-- A word of a thread: a pending halt, an imprecise fault or a deliverable event comes first. A thread that does not hold the
slot issues nothing. `perform` is the word's execution, from its bits; none where they hold no word that the command issues. -/
def issueWord (c : Ctx) (perform : Word → State → Option State) (s : State) : State :=
  let site := c.site.val
  let t := c.thr
  let h := getThr s site t
  if !canIssue s site t then s
  else if (getCore s site).dbg.pendHalt.getLsbD t.val && mayHalt s h then haltThread site t s
  else match (if acceptsAsync h then h.imprecise else none) with
    | some i => stepDone site t (takeImprecise site t i s)
    | none =>
      match deliverableBit h with
      | some b => stepDone site t (takeEvent site t b s)
      | none =>
        match fetchWord site t (modThr site t (fun x => { x with abandoned := 0 }) s) with
        | .fault s1 code sub => raise site t false 0 code sub h.pc 0 s1
        | .miss s1 line => stallThread site t (.fetch line) s1
        | .word s1 w => match perform w s1 with
          | some s2 => afterWord s2
          | none => s

/-! ### Resumable long instructions (08 R231, R232) -/

/-- The unit at which an instruction of a thread begins. -/
def startUnit (h : Thread) : Nat :=
  match h.mid with
  | some k => k
  | none => if bit h.exc.progress 63 && fld h.exc.progress 62 48 == progTag h.pc then fld h.exc.progress 39 0 else 0

/-- The instruction completes: cs.progress becomes 0. -/
def endResumable (site : Nat) (t : Fin 4) (finish : State → State) (s : State) : State :=
  complete site t .seq (modExc site t (fun e => { e with progress := 0 }) (finish s))

/-- The instruction is left between units: DONE is kept for the next word boundary. -/
def pauseAt (site : Nat) (t : Fin 4) (k : Nat) (s : State) : State := modThr site t (fun h => { h with mid := some k }) s

/-- A fault of unit k records the units completed. -/
def progressFault (site : Nat) (t : Fin 4) (k : Nat) (s : State) : State :=
  modThr site t (fun h => { h with exc := { h.exc with progress := progressWord h.pc k }, mid := none }) s

/-- A fault whose word leaves something behind: `eff` is made, then the exception is taken. -/
def faultAfter (site : Nat) (t : Fin 4) (code sub : Nat) (ea : Word) (eff : State → State) : Trap :=
  .enter (fun s => takeException site t (mkCause code sub ea) (getThr s site t).pc (eff s))

/-- At most `fuel` units from unit k. A unit gives the state after it and whether the instruction is over with it. -/
def runUnits (site : Nat) (t : Fin 4) (total : Nat) (unit : Nat → State → Except Trap (State × Bool)) (finish : State → State) :
    Nat → Nat → State → State
  | 0, k, s => if total ≤ k then endResumable site t finish s else pauseAt site t k s
  | n + 1, k, s =>
    if total ≤ k then endResumable site t finish s
    else match unit k s with
      | .ok (s1, true) => endResumable site t id s1
      | .ok (s1, false) => runUnits site t total unit finish n (k + 1) s1
      | .error (.stall w eff) => recheck site t (stallThread site t w (eff (pauseAt site t k s)))
      | .error .wait => pauseAt site t k s
      | .error (.partly eff) => pauseAt site t k (eff s)
      | .error (.enter eff) => stepDone site t (eff s)
      | .error (.fault code sub ea tag) => raise site t false 0 code sub ea tag (progressFault site t k s)

/-- A resumable instruction of `total` units, of which the command performs at most `units`. -/
def resumableWord (site : Nat) (t : Fin 4) (total units : Nat) (unit : Nat → State → Except Trap (State × Bool)) (finish : State → State) :
    Except Trap Done :=
  .ok ⟨fun s => runUnits site t total unit finish units (startUnit (getThr s site t)) s, .own⟩

end Sys2Proof.Machine
end

