-- ==== Sys2Proof/Machine/ScalarOps.lean ====
section
/-! DEFINITION. The operations of the classes INT, BIT, CTL and the scalar loads and stores, as specifications that a word or a slot
of a pair issues (03 R70 to R103; 04 Tables 4.11, 4.12, 4.13, 4.15). -/

namespace Sys2Proof.Machine

open Sys2Proof

/-- The thread a word belongs to, on the state before the word. -/
abbrev At := Nat × Fin 4

def thrAt (x : At) (s : State) : Thread := getThr s x.1 x.2
def grAt (x : At) (s : State) (r : Reg) : Word := readGr (thrAt x s) r

/-- The effect of writing a general register, or a predicate. -/
def setGr (x : At) (d : Reg) (v : Word) : State → State := modThr x.1 x.2 (writeGr d v)
def setP (x : At) (p : PReg) (b : Bool) : State → State := modThr x.1 x.2 (writeP p b)

/-! ### INT (04 Table 4.11) -/

/-- Value of an integer operation; shifts by bits [5:0] of b (04 R109). -/
def aluValue (op : AluOp) (a b : Word) : Word :=
  let n := b.toNat % 64
  match op with
  | .add => a + b
  | .sub => a - b
  | .and => a &&& b
  | .or => a ||| b
  | .xor => a ^^^ b
  | .andn => a &&& ~~~ b
  | .shl => a <<< n
  | .shr => a >>> n
  | .sar => a.sshiftRight n
  | .mul => a * b
  | .mulhs => BitVec.ofInt 64 (a.toInt * b.toInt / 2 ^ 64)
  | .mulhu => BitVec.ofNat 64 (a.toNat * b.toNat / 2 ^ 64)

/-- A condition of CMP and CMPI. -/
def condHolds (c : Cond) (a b : Word) : Bool :=
  match c with
  | .eq => a == b
  | .ne => a != b
  | .lt => a.slt b
  | .ltu => a.ult b
  | .ge => b.sle a
  | .geu => b.ule a

/-- The operation exists in the short form. -/
def aluShort : AluOp → Bool
  | .mulhs => false
  | .mulhu => false
  | _ => true

def specAlu (x : At) (op : AluOp) (d a b : Reg) : OpSpec :=
  { OpSpec.base 0 (fun s => done (setGr x d (aluValue op (grAt x s a) (grAt x s b)))) with
    short := aluShort op, useG := [a, b], setG := [d] }

/-- A value that a signed immediate field of n bits holds. -/
def fitsSigned (n : Nat) (v : Word) : Bool := decide (-(2 ^ (n - 1) : Int) ≤ v.toInt) && decide (v.toInt < 2 ^ (n - 1))

def specAluImm (x : At) (op : AluOp) (d a : Reg) (imm : Word) : OpSpec :=
  { OpSpec.base 0 (fun s => done (setGr x d (aluValue op (grAt x s a) imm))) with
    short := fitsSigned 10 imm, useG := [a], setG := [d] }

def specShiftImm (x : At) (op : AluOp) (d a : Reg) (n : BitVec 6) : OpSpec :=
  { OpSpec.base 0 (fun s => done (setGr x d (aluValue op (grAt x s a) (zext n)))) with short := true, useG := [a], setG := [d] }

def specMov (x : At) (d a : Reg) : OpSpec :=
  { OpSpec.base 0 (fun s => done (setGr x d (grAt x s a))) with short := true, useG := [a], setG := [d] }

def specLil (x : At) (d : Reg) (imm : Word) : OpSpec :=
  { OpSpec.base 0 (fun _ => done (setGr x d imm)) with short := fitsSigned 10 imm, setG := [d] }

/-- LIH keeps d[31:0], so it reads d. -/
def specLih (x : At) (d : Reg) (imm : BitVec 32) : OpSpec :=
  { OpSpec.base 0 (fun s => done (setGr x d (setFld (grAt x s d) 63 32 imm.toNat))) with useG := [d], setG := [d] }

def specCmp (x : At) (c : Cond) (pd : PReg) (a b : Reg) : OpSpec :=
  { OpSpec.base 0 (fun s => done (setP x pd (condHolds c (grAt x s a) (grAt x s b)))) with
    short := true, useG := [a, b], setP := [pd] }

def specCmpi (x : At) (c : Cond) (pd : PReg) (a : Reg) (imm : BitVec 24) : OpSpec :=
  { OpSpec.base 0 (fun s => done (setP x pd (condHolds c (grAt x s a) (sext imm)))) with useG := [a], setP := [pd] }

/-! ### BIT (03 R80 to R84, 04 Table 4.12) -/

/-- A bit address (03 R81). -/
def bitAddr (a : Word) (u : Nat) : Nat := (a.toNat + u) % 2 ^ 17

/-- The thread may reach a bit (03 Table 3.9). -/
def bitReach (t : Fin 4) (b : Nat) : Bool := decide (b < 0x10000) || (b - 0x10000) / 0x4000 == t.val

def bitsAt (x : At) (s : State) : Map Word := (getCore s x.1).bits
def readBit (m : Map Word) (b : Nat) : Bool := bit (mget m (b / 64) 0) (b % 64)
def writeBit (b : Nat) (v : Bool) (m : Map Word) : Map Word :=
  mset m (b / 64) ((mget m (b / 64) 0 &&& ~~~ (1#64 <<< (b % 64))) ||| bitAt (b % 64) v)

/-- The effect of writing a bit. -/
def setBit (x : At) (b : Nat) (v : Bool) : State → State := modCore x.1 (fun c => { c with bits := writeBit b v c.bits })

/-- An operation on one bit, which the thread must reach: its effect from the bit's value. -/
def bitWord (x : At) (a : Reg) (u : Nat) (eff : Nat → Bool → State → State) (s : State) : Except Trap Done :=
  let b := bitAddr (grAt x s a) u
  if bitReach x.2 b then done (eff b (readBit (bitsAt x s) b)) else fault 0xA (BitVec.ofNat 64 b)

def specBit (x : At) (a : Reg) (u : Nat) (eff : Nat → Bool → State → State) : OpSpec :=
  { OpSpec.base 1 (bitWord x a u eff) with short := decide (u < 1024), useG := [a] }

def specBld (x : At) (pd : PReg) (a : Reg) (u : Nat) : OpSpec :=
  { specBit x a u (fun _ v => setP x pd v) with setP := [pd] }

def specBst (x : At) (ps : PReg) (a : Reg) (u : Nat) : OpSpec :=
  { specBit x a u (fun _ _ => id) with prep := fun s => bitWord x a u (fun b _ => setBit x b (readP (thrAt x s) ps)) s }

/-- BSET, BCLR and BTGL. -/
def bitOpValue (op : BitOp) (v : Bool) : Bool :=
  match op with
  | .set => true
  | .clr => false
  | .tgl => !v

def specBitOp (x : At) (op : BitOp) (a : Reg) (u : Nat) : OpSpec := specBit x a u (fun b v => setBit x b (bitOpValue op v))

/-- BTAS and BTAC: the predicate takes the old bit. -/
def specBitTest (x : At) (new : Bool) (pd : PReg) (a : Reg) (u : Nat) : OpSpec :=
  { specBit x a u (fun b v s => setBit x b new (setP x pd v s)) with setP := [pd] }

def logicValue (op : LogicOp) (a b : Bool) : Bool :=
  match op with
  | .and => a && b
  | .or => a || b
  | .xor => a != b
  | .andn => a && !b

/-- BCOMB: bit b from bits c and d, as one action (03 R83). -/
def combWord (x : At) (op : LogicOp) (a : Reg) (offa : Nat) (b : Reg) (offb : Nat) (r : Reg) (offc : Nat) (s : State) :
    Except Trap Done :=
  let i := bitAddr (grAt x s a) offa
  let j := bitAddr (grAt x s b) offb
  let k := bitAddr (grAt x s r) offc
  match [i, j, k].find? (fun n => !bitReach x.2 n) with
  | some n => fault 0xA (BitVec.ofNat 64 n)
  | none => done (setBit x i (logicValue op (readBit (bitsAt x s) j) (readBit (bitsAt x s) k)))

def specComb (x : At) (op : LogicOp) (a : Reg) (offa : Nat) (b : Reg) (offb : Nat) (r : Reg) (offc : Nat) : OpSpec :=
  { OpSpec.base 1 (combWord x op a offa b offb r offc) with useG := [a, b, r] }

/-- A word of the bit store: (a + u) mod 2,048, its bits reached by the thread. -/
def bitWordAt (x : At) (a : Reg) (u : Nat) (eff : Nat → State → State) (s : State) : Except Trap Done :=
  let w := ((grAt x s a).toNat + u) % 2048
  if bitReach x.2 (64 * w) then done (eff w) else fault 0xA (BitVec.ofNat 64 (64 * w))

def specBldw (x : At) (d a : Reg) (u : Nat) : OpSpec :=
  { OpSpec.base 1 (fun s => bitWordAt x a u (fun w => setGr x d (mget (bitsAt x s) w 0)) s) with
    short := decide (u < 1024), useG := [a], setG := [d] }

def specBstw (x : At) (d a : Reg) (u : Nat) : OpSpec :=
  { OpSpec.base 1 (fun s => bitWordAt x a u (fun w => modCore x.1 (fun c => { c with bits := mset c.bits w (grAt x s d) })) s) with
    short := decide (u < 1024), useG := [a, d] }

def specPlogic (x : At) (op : LogicOp) (pd p q : PReg) (na nb : Bool) : OpSpec :=
  { OpSpec.base 1 (fun s => done (setP x pd (logicValue op (readP (thrAt x s) p != na) (readP (thrAt x s) q != nb)))) with
    short := !na && !nb, setP := [pd] }

/-- MOVPG: p7 to p0, p0 reading 1 (03 R79). -/
def predWord (h : Thread) : Word := zext h.preds ||| 1

def specMovpg (x : At) (d : Reg) : OpSpec :=
  { OpSpec.base 1 (fun s => done (setGr x d (predWord (thrAt x s)))) with short := true, setG := [d] }

def specMovgp (x : At) (a : Reg) : OpSpec :=
  { OpSpec.base 1 (fun s => done (modThr x.1 x.2 (fun h => { h with preds := predsOf (grAt x s a) }))) with
    short := true, useG := [a], setP := [1, 2, 3, 4, 5, 6, 7] }

/-- End of the region of a bit address (03 R84, Table 3.9). -/
def bitRegionEnd (b : Nat) : Nat := if b < 0x10000 then 0x10000 else 0x10000 + ((b - 0x10000) / 0x4000 + 1) * 0x4000

/-- BITSCAN over bits b to b + n − 1, cut at the end of b's region. Each bit is one unit. A count of 0 too draws the protection fault where b
lies in another thread's slice, on which the manual is silent (assumption log 79). -/
def scanWord (x : At) (d a : Reg) (u : Nat) (n : Reg) (v : Bool) (units : Nat) (s : State) : Except Trap Done :=
  let b := bitAddr (grAt x s a) u
  let count := min ((grAt x s n).toNat % 2 ^ 17) (bitRegionEnd b - b)
  if bitReach x.2 b then
    resumableWord x.1 x.2 count units
      (fun k st => if readBit (bitsAt x st) (b + k) = v then .ok (setGr x d (BitVec.ofNat 64 (b + k)) st, true) else .ok (st, false))
      (setGr x d (BitVec.allOnes 64))
  else fault 0xA (BitVec.ofNat 64 b)

def specScan (x : At) (d a : Reg) (u : Nat) (n : Reg) (v : Bool) (units : Nat) : OpSpec :=
  { OpSpec.base 1 (scanWord x d a u n v units) with useG := [a, n], setG := [d], resumable := true }

/-! ### Scalar loads and stores (03 R85, 04 R113, Table 4.7) -/

/-- Effective address of a mode for an access of `n` bytes. -/
def effAddr (x : At) (s : State) (n : Nat) (m : AMode) : Word :=
  match m with
  | .base a disp => grAt x s a + sext disp
  | .index a b => grAt x s a + grAt x s b * BitVec.ofNat 64 n
  | .post a _ => grAt x s a
  | .rel disp => (thrAt x s).pc + sext disp * 8

/-- Registers that a mode reads, and the base that post-modify updates. -/
def modeReads : AMode → List Reg
  | .base a _ => [a]
  | .index a b => [a, b]
  | .post a _ => [a]
  | .rel _ => []

def modeBase : AMode → List Reg
  | .post a _ => [a]
  | _ => []

/-- Modes that an operation accepts: `rel` for LD and LDU alone, and no post-modify load into its own base. -/
def modeLegal (rel : Bool) (dest : Option Reg) (m : AMode) : Bool :=
  match m with
  | .rel _ => rel
  | .post a _ => dest != some a
  | _ => true

/-- A short form holds the mode: disp6 × access size. -/
def modeShort (n : Nat) (m : AMode) : Bool :=
  match m with
  | .base _ disp => decide (disp.toNat < 64 * n) && disp.toNat % n == 0
  | _ => false

/-- The base of a post-modify access moves on. -/
def postModify (x : At) (s : State) (m : AMode) : State → State :=
  match m with
  | .post a disp => setGr x a (grAt x s a + sext disp)
  | _ => id

/-- The effect of a word followed by another. -/
def andThen (d : Except Trap Done) (f : State → State) : Except Trap Done :=
  match d with
  | .ok e => .ok ⟨fun s => f (e.eff s), e.next⟩
  | .error e => .error e

/-- Where an address lies: a device address, a local offset, a group address. -/
inductive Space where
  | device | local_ | group
  deriving DecidableEq, Repr

def spaceCheck (sp : Space) (x : At) (s : State) (k : Kind) (amo : Bool) (ea : Word) (n : Nat) : Except Trap Access :=
  match sp with
  | .device => checkDevice s x.1 x.2 k amo ea n
  | _ => checkGroup s x.1 x.2 k amo ea n

def specLoad (x : At) (sp : Space) (signed : Bool) (lg : Fin 4) (d : Reg) (m : AMode) : OpSpec :=
  let n := 2 ^ lg.val
  { OpSpec.base 2 (fun s =>
      let ea := effAddr x s n m
      let dst := grKey (thrAt x s).win d
      andThen (if sp = .local_ then localLoadWord s x.1 x.2 dst signed ea n
        else loadWord s x.1 x.2 dst signed (spaceCheck sp x s .load false ea n)) (postModify x s m)) with
    legal := modeLegal (sp == .device) (some d) m, short := sp != .group && modeShort n m,
    useG := modeReads m, setG := d :: modeBase m }

def specStore (x : At) (sp : Space) (lg : Fin 4) (d : Reg) (m : AMode) : OpSpec :=
  let n := 2 ^ lg.val
  { OpSpec.base 2 (fun s =>
      let ea := effAddr x s n m
      let v := grAt x s d
      andThen (if sp = .local_ then localStoreWord s x.1 x.2 v ea n
        else storeWord s x.1 x.2 v (spaceCheck sp x s .store false ea n)) (postModify x s m)) with
    legal := modeLegal false none m, short := sp != .group && modeShort n m,
    useG := d :: modeReads m, setG := modeBase m }

/-! ### CTL (03 R71 to R75, R99 to R102; 04 Table 4.15) -/

/-- A taken transfer: its target is checked at the transfer (03 R93). -/
def jumpTo (x : At) (s : State) (a : Word) (eff : State → State) : Except Trap Done :=
  match checkJump s x.1 x.2 a with
  | .error e => .error e
  | .ok _ => .ok ⟨eff, .jump a⟩

def branchTarget (x : At) (s : State) (disp : Word) : Word := (thrAt x s).pc + disp * 8

def specBr (x : At) (disp : Word) : OpSpec :=
  { OpSpec.base 4 (fun s => jumpTo x s (branchTarget x s disp) id) with short := fitsSigned 14 disp }

def specBrr (x : At) (a : Reg) : OpSpec :=
  { OpSpec.base 4 (fun s => jumpTo x s (grAt x s a) id) with useG := [a] }

/-- Storage keys of the frame at a window position: its incoming and local registers (03 Tables 3.3, 3.4). -/
def frameKeys (pos : Nat) : List Nat := (List.range 16).map (fun i => 8 + (16 * pos + i) % 128)

/-- A frame is written at a local offset. -/
def spillFrame (x : At) (pos off : Nat) (s : State) : State :=
  let bs := (frameKeys pos).flatMap (fun k => bytesOf (mget (thrAt x s).gregs k 0) 8)
  ownStore x.1 x.2 off (BitVec.ofNat 64 off) bs s

/-- A frame is read from a local offset; a register that gets bytes of an uncorrectable word is poisoned. -/
def fillFrame (x : At) (pos off : Nat) (s : State) : State :=
  foldN 16 (fun i st =>
    let o := off + 8 * i
    setLoaded x.1 x.2 (some (8 + (16 * pos + i) % 128)) (BitVec.ofNat 64 (leNat (lmReadN st x.1 o 8)))
      (if (lmFirstBad st x.1 o 8).isSome then some (BitVec.ofNat 64 o) else none) (noteLm x.1 o 8 st)) s

def setWin (x : At) (f : Window → Window) (s : State) : State := modThr x.1 x.2 (fun h => { h with win := f h.win }) s

/-- Address of cs.wsp, as the window faults show it. -/
def wspWord (w : Window) : Word := mk 20 7 w.wsp.toNat

/-- The window moves forward: a spill where six older frames are resident (03 R71). -/
def enterFrame (x : At) (s : State) (eff : State → State) : Except Trap (State → State) :=
  let h := thrAt x s
  let w := h.win
  let up := setWin x (fun v => { v with pos := v.pos + 1 })
  if w.res = 6 then
    let pos := (w.pos.val + 2) % 8
    let off := w.wsp.toNat * 128
    if w.limit.toNat < w.wsp.toNat + 1 then fault 0xB (wspWord w)
    else if !touchesOtherSlice s x.1 x.2 off 128 then
      keysReady h (frameKeys pos) [] [] (.ok (fun st =>
        up (setWin x (fun v => { v with wsp := v.wsp + 1 }) (eff (spillFrame x pos off st)))))
    else fault 0xA (BitVec.ofNat 64 off)
  else .ok (fun st => up (setWin x (fun v => { v with res := v.res + 1 }) (eff st)))

/-- CALL and CALLR: gr31 takes the return address, then the window moves (03 R101). -/
def callWord (x : At) (target : Word) (s : State) : Except Trap Done :=
  match checkJump s x.1 x.2 target with
  | .error e => .error e
  | .ok _ =>
    match enterFrame x s (setGr x 31 ((thrAt x s).pc + 8)) with
    | .error e => .error e
    | .ok f => .ok ⟨f, .jump target⟩

def specCall (x : At) (disp : Word) : OpSpec :=
  { OpSpec.base 4 (fun s => callWord x (branchTarget x s disp) s) with setG := [31] }

def specCallr (x : At) (a : Reg) : OpSpec :=
  { OpSpec.base 4 (fun s => callWord x (grAt x s a) s) with useG := [a], setG := [31] }

/-- RET (03 R72, R101). -/
def retWord (x : At) (s : State) : Except Trap Done :=
  let h := thrAt x s
  let w := h.win
  let target := grAt x s 15
  match checkJump s x.1 x.2 target with
  | .error e => .error e
  | .ok _ =>
    if 0 < w.res then
      .ok ⟨setWin x (fun v => { v with pos := v.pos - 1, res := v.res - 1 }), .jump target⟩
    else if w.wsp = w.base then fault 0xC (wspWord w)
    else
      let pos := (w.pos.val + 7) % 8
      let off := (w.wsp.toNat - 1) * 128
      if touchesOtherSlice s x.1 x.2 off 128 then fault 0xA (BitVec.ofNat 64 off)
      else keysReady h [] (frameKeys pos) [] (.ok ⟨fun st =>
        setWin x (fun v => { v with wsp := v.wsp - 1, pos := v.pos - 1 }) (fillFrame x pos off st), .jump target⟩)

def specRet (x : At) : OpSpec := { OpSpec.base 4 (retWord x) with short := true, useG := [15] }

/-- WSPILL: every older resident frame, oldest first (03 R75). -/
def wspillWord (x : At) (s : State) : Except Trap Done :=
  let h := thrAt x s
  let w := h.win
  let frames := (List.range w.res).map (fun i => (w.pos.val + 8 - w.res + i) % 8)
  let off := w.wsp.toNat * 128
  if w.limit.toNat < w.wsp.toNat + w.res then fault 0xB (wspWord w)
  else if touchesOtherSlice s x.1 x.2 off (128 * w.res) then fault 0xA (BitVec.ofNat 64 off)
  else keysReady h (frames.flatMap frameKeys) [] [] (done (fun st =>
    let st1 := foldN w.res (fun i u => spillFrame x (frames.getD i 0) (off + 128 * i) u) st
    setWin x (fun v => { v with wsp := v.wsp + BitVec.ofNat 14 w.res, res := 0 }) st1))

def specWspill (x : At) : OpSpec := OpSpec.base 4 (wspillWord x)

end Sys2Proof.Machine
end

