-- ==== Sys2Proof/Machine/VecOps.lean ====
section
/-! DEFINITION. The vector unit (06; 04 Table 4.14): which words are legal, and what each operation computes, sets and draws. -/

namespace Sys2Proof.Machine

open Sys2Proof

/-! ### Lanes (06 R154) -/

def lanesOf (w : Nat) : Nat := 1024 / w
def laneAt (w : Nat) (v : BitVec 1024) (i : Nat) : Nat := v.toNat / 2 ^ (w * i) % 2 ^ w

/-- A register from lane values, lane 0 first; lanes beyond the list are 0. -/
def packLanes (w : Nat) (ls : List Nat) : BitVec 1024 :=
  BitVec.ofNat 1024 (ls.foldr (fun x a => x % 2 ^ w + 2 ^ w * a) 0)

/-- Lanes `lo` on of a register replaced. -/
def replaceLanes (w lo : Nat) (ls : List Nat) (v : BitVec 1024) : BitVec 1024 :=
  packLanes w ((List.range (lanesOf w)).map (fun i => if lo ≤ i && i < lo + ls.length then ls.getD (i - lo) 0 else laneAt w v i))

/-! ### Rounding state (02 R43, R49, R46) -/

/-- Rounding mode and saturation in effect for a thread. -/
def modeInForce (fp : FpRegs) (rm : Nat) : Nat := if rm = 3 then fld fp.fpcsr 9 8 else rm
def satInForce (fp : FpRegs) (sat : Bool) : Bool := sat || bit fp.fpcsr 7

/-- What rounding leaves: values in order, the flags met, and the generator's state. -/
structure Rounded where
  vals : List Nat
  flags : Nat
  seed : BitVec 32
  deriving DecidableEq, Repr

/-- Flag sets joined. -/
def joinFlags (a b : Nat) : Nat := a ||| b

/-- `n` elements in increasing order, each with one draw where the rounding is stochastic (02 R46). -/
def roundEach (mode : Nat) (seed : BitVec 32) (n : Nat) (f : Nat → Nat → Nat × Nat) : Rounded :=
  let r := (List.range n).foldl (fun (a : Rounded) i =>
    let s := if mode = 2 then srDraw a.seed else a.seed
    let x := f i s.toNat
    ⟨x.1 :: a.vals, joinFlags a.flags x.2, s⟩) ⟨[], 0, seed⟩
  { r with vals := r.vals.reverse }

/-- Elements that are not rounded. -/
def eachLane (n : Nat) (f : Nat → Nat × Nat) : Rounded := roundEach 0 0 n (fun i _ => f i)

/-- Flags are sticky in cs.fpcsr. -/
def setFlags (x : At) (flags : Nat) (s : State) : State :=
  if flags = 0 then s else modFp x.1 x.2 (fun f => { f with fpcsr := f.fpcsr ||| BitVec.ofNat 64 flags }) s

/-- Flags and the generator after an operation. -/
def setRounded (x : At) (mode : Nat) (r : Rounded) (s : State) : State :=
  setFlags x r.flags (if mode = 2 then modFp x.1 x.2 (fun f => { f with srseed := r.seed }) s else s)

/-! ### Vector registers and the matrix unit (07 R198, Table 7.10) -/

/-- A register that an outstanding operation reads. -/
def readByMatrix (c : Core) (t : Fin 4) (r : Nat) : Bool :=
  c.mx.queue.any (fun o => match o.op with
    | .tmma _ u w _ _ => slotHolds (mget c.mx.slots u.val 0) t r || slotHolds (mget c.mx.slots w.val 0) t r
    | .tscale n a =>
      o.thr == t && decide (a.val ≤ r) && decide (r ≤ a.val + (accRows (mget c.mx.accs (n.val - 8) Acc.reset) - 1) / 32)
    | .tzero _ => false)

/-- Words that write such a register wait, without a long stall. -/
def vecFree (x : At) (s : State) (ds : List Reg) (k : Except Trap α) : Except Trap α :=
  if ds.any (fun r => readByMatrix (getCore s x.1) x.2 r.val) then .error .wait else k

/-- The effect of writing a vector register. -/
def setV (x : At) (d : Reg) (v : BitVec 1024) (s : State) : State :=
  modCore x.1 (dropLatches x.2 d.val) (modThr x.1 x.2 (writeV d v) s)

def vAt (x : At) (s : State) (r : Reg) : BitVec 1024 := readV (thrAt x s) r

/-! ### Legal words (06 R155, R158, R159; 04 R110 to R112) -/

def fmtArith (f : Nat) : Bool := f = 1 || f = 5 || f = 6 || f = 7 || f = 8
def fmtFloat (f : Nat) : Bool := f = 5 || f = 6 || f = 7
def fmtWide (f : Nat) : Bool := f = 1 || (3 ≤ f && f ≤ 9)

/-- How an operation uses SA and SB: it is no arithmetic operation, or, where it is one, INT8 lanes need SA = SB (06 R155); VSHR reads SA on
INT32 lanes too (06 R163). -/
inductive SignUse where
  | none | arith | shift
  deriving DecidableEq, Repr

/-- The fields of a vector word that its operation allows: format, rounding, saturation, signs; FMT2 unused. -/
def fieldsLegal (fmts : Nat → Bool) (rounds saturates : Bool) (sg : SignUse) (f : VFields) : Bool :=
  let fm := f.fmt.toNat
  fmts fm && f.fmt2 == 0 && (f.rm == 0 || (rounds && fmtFloat fm)) && (!f.sat || saturates) &&
  (if fm = 1 then (sg != .arith || f.sa == f.sb) else !f.sb && (!f.sa || sg == .shift))

def wordUnused (f : VFields) : Bool := f.fmt == 0 && f.rm == 0 && !f.sat && !f.sa && !f.sb && f.fmt2 == 0

/-! ### Lane operations -/

/-- An integer result as a lane: wrapped, or clamped under saturation (06 R160). -/
def intLane (f : Nat) (signed sat : Bool) (i : Int) : Nat :=
  let b := intBounds f signed
  intCode (fmtWidth f) (if sat then (if i < b.1 then b.1 else if b.2 < i then b.2 else i) else i)

def intOf (f : Nat) (signed : Bool) (b : Nat) : Int := if signed || f = 8 then toSigned (fmtWidth f) b else (b : Int)

/-- VADD, VSUB, VMUL on a lane of a format. -/
def arithLane (op : VShortOp) (f mode : Nat) (sat signed : Bool) (a b r : Nat) : Nat × Nat :=
  if isIntFmt f then
    let x := intOf f signed a
    let y := intOf f signed b
    (intLane f signed sat (match op with | .vadd => x + y | .vsub => x - y | _ => x * y), 0)
  else
    let x := decodeFloat f a
    let y := decodeFloat f b
    roundNum f mode sat r (match op with | .vadd => numAdd x y | .vsub => numAdd x (numNeg y) | _ => numMul x y)

/-- VMIN and VMAX (06 R162). -/
def pickLane (max_ : Bool) (f : Nat) (signed : Bool) (a b : Nat) : Nat × Nat :=
  if isIntFmt f then
    let less := decide (intOf f signed a < intOf f signed b)
    (if less != max_ then a else b, 0)
  else
    let x := decodeFloat f a
    let y := decodeFloat f b
    if isNan x || isNan y then (nanCode f, flagNV)
    else (if ordLt x y != max_ then a else b, 0)

/-- VABS and VNEG (06 R161). -/
def signLane (neg : Bool) (f : Nat) (sat signed : Bool) (a : Nat) : Nat × Nat :=
  let w := fmtWidth f
  if isIntFmt f then
    if f = 1 && !signed then (if neg then (if sat then 0 else intCode w (-(a : Int))) else a, 0)
    else
      let i := intOf f true a
      (intLane f true sat (if neg || i < 0 then -i else i), 0)
  else if isNan (decodeFloat f a) then (nanCode f, flagNV)
  else (if neg then a ^^^ signBit f else a % signBit f, 0)

/-- Special functions, rounded to nearest (06 R171). -/
def specialLane (op : VShortOp) (f : Nat) (sat : Bool) (a : Nat) : Nat × Nat :=
  let x := decodeFloat f a
  roundNum f 0 sat 0 (match op with | .vexp2 => numExp2 x | .vrcp => numRcp x | _ => numRsq x)

/-- The lanes of a register under an operation of Table 4.14 that has a short form. -/
def shortLanes (op : VShortOp) (f : VFields) (fp : FpRegs) (a b : BitVec 1024) : Nat × Rounded :=
  let fm := f.fmt.toNat
  let w := fmtWidth fm
  let sat := satInForce fp f.sat
  let mode := if isIntFmt fm then 0 else modeInForce fp f.rm.toNat
  match op with
  | .vadd | .vsub | .vmul =>
    (mode, roundEach mode fp.srseed (lanesOf w) (fun i r => arithLane op fm mode sat f.sa (laneAt w a i) (laneAt w b i) r))
  | .vmin => (0, eachLane (lanesOf w) (fun i => pickLane false fm f.sa (laneAt w a i) (laneAt w b i)))
  | .vmax => (0, eachLane (lanesOf w) (fun i => pickLane true fm f.sa (laneAt w a i) (laneAt w b i)))
  | .vabs => (0, eachLane (lanesOf w) (fun i => signLane false fm sat f.sa (laneAt w a i)))
  | .vneg => (0, eachLane (lanesOf w) (fun i => signLane true fm sat f.sa (laneAt w a i)))
  | .vand => (0, ⟨[(a &&& b).toNat], 0, 0⟩)
  | .vor => (0, ⟨[(a ||| b).toNat], 0, 0⟩)
  | .vxor => (0, ⟨[(a ^^^ b).toNat], 0, 0⟩)
  | .vexp2 | .vrcp | .vrsq => (0, eachLane (lanesOf w) (fun i => specialLane op fm sat (laneAt w a i)))

/-- Width of the lanes that `shortLanes` answers: the whole register for bitwise operations. -/
def shortWidth (op : VShortOp) (f : VFields) : Nat :=
  match op with
  | .vand | .vor | .vxor => 1024
  | _ => fmtWidth f.fmt.toNat

def shortLegal (op : VShortOp) (f : VFields) : Bool :=
  match op with
  | .vadd | .vsub | .vmul => fieldsLegal fmtArith true true .arith f
  | .vmin | .vmax => fieldsLegal fmtArith false false .arith f
  | .vabs | .vneg => fieldsLegal fmtArith false true .arith f
  | .vand | .vor | .vxor => wordUnused f
  | .vexp2 | .vrcp => fieldsLegal fmtFloat false true .none f
  | .vrsq => fieldsLegal fmtFloat false false .none f

def oneOperand : VShortOp → Bool
  | .vabs | .vneg | .vexp2 | .vrcp | .vrsq => true
  | _ => false

/-- A vector word whose result is made from the state before it: lanes of width w into d, flags, draws. -/
def vecResult (x : At) (d : Reg) (w mode : Nat) (r : Rounded) (s : State) : Except Trap Done :=
  vecFree x s [d] (done (fun st => setRounded x mode r (setV x d (packLanes w r.vals) st)))

def specVec (x : At) (op : VShortOp) (f : VFields) (d a b : Reg) : OpSpec :=
  { OpSpec.base 3 (fun s =>
      let r := shortLanes op f (thrAt x s).fp (vAt x s a) (vAt x s b)
      vecResult x d (shortWidth op f) r.1 r.2 s) with
    legal := shortLegal op f && (!oneOperand op || b.val == 0), short := f == shortFields (shortRounds op) f.fmt,
    useV := if oneOperand op then [a] else [a, b], setV := [d] }

/-! ### Operations that exist only in the long form -/

/-- A long vector word. -/
def specLongVec (legal : Bool) (reads writes : List Reg) (prep : State → Except Trap Done) : OpSpec :=
  { OpSpec.base 3 prep with legal := legal, useV := reads, setV := writes }

def specVfma (x : At) (f : VFields) (d a b r : Reg) : OpSpec :=
  let fm := f.fmt.toNat
  let w := fmtWidth fm
  specLongVec (fieldsLegal fmtFloat true true .none f) [a, b, r] [d] (fun s =>
    let fp := (thrAt x s).fp
    let mode := modeInForce fp f.rm.toNat
    let va := vAt x s a
    let vb := vAt x s b
    let vc := vAt x s r
    vecResult x d w mode (roundEach mode fp.srseed (lanesOf w) (fun i q =>
      roundNum fm mode (satInForce fp f.sat) q
        (numAdd (numMul (decodeFloat fm (laneAt w va i)) (decodeFloat fm (laneAt w vb i))) (decodeFloat fm (laneAt w vc i))))) s)

/-- VSHL and VSHR (06 R163). -/
def shiftLane (right arith : Bool) (w n a : Nat) : Nat :=
  if right then
    (if arith then intCode w (toSigned w a / (2 ^ n : Nat)) else a / 2 ^ n)
  else a * 2 ^ n % 2 ^ w

def fmtShift (f : Nat) : Bool := f = 1 || f = 8

def specVshift (x : At) (right : Bool) (f : VFields) (d a : Reg) (imm : BitVec 15) : OpSpec :=
  let w := fmtWidth f.fmt.toNat
  specLongVec (fieldsLegal fmtShift false false (if right then .shift else .none) f && decide (imm.toNat < 32)) [a] [d] (fun s =>
    vecResult x d w 0 (eachLane (lanesOf w) (fun i => (shiftLane right f.sa w imm.toNat (laneAt w (vAt x s a) i), 0))) s)

/-- A condition of VCMP (06 Table 6.6). -/
def vcmpHolds (c : Nat) (x y : Num) : Bool :=
  let un := isNan x || isNan y
  match c with
  | 0 => numEq x y
  | 1 => !numEq x y
  | 2 => numLt x y
  | 3 => !un && !numLt y x
  | 4 => numLt y x
  | 5 => !un && !numLt x y
  | 6 => un
  | _ => !un

def specVcmp (x : At) (f : VFields) (d a b : Reg) (imm : BitVec 15) : OpSpec :=
  let fm := f.fmt.toNat
  let w := fmtWidth fm
  specLongVec (fieldsLegal fmtArith false false .arith f && decide (imm.toNat < 8) && !(isIntFmt fm && decide (6 ≤ imm.toNat))) [a, b] [d]
    (fun s => vecResult x d w 0 (eachLane (lanesOf w) (fun i =>
      (if vcmpHolds imm.toNat (laneNum fm f.sa (laneAt w (vAt x s a) i)) (laneNum fm f.sa (laneAt w (vAt x s b) i))
       then 2 ^ w - 1 else 0, 0))) s)

def specVsel (x : At) (f : VFields) (d a b r : Reg) : OpSpec :=
  let w := fmtWidth f.fmt.toNat
  specLongVec (fieldsLegal fmtArith false false .none f) [a, b, r] [d] (fun s =>
    vecResult x d w 0 (eachLane (lanesOf w) (fun i =>
      (if laneAt w (vAt x s r) i ≠ 0 then laneAt w (vAt x s a) i else laneAt w (vAt x s b) i, 0))) s)

/-! ### Conversions (06 R164 to R167) -/

def cvtRow (f : Nat) : Bool := f ≠ 2 && f < 9
def cvtFp (f : Nat) : Bool := 3 ≤ f && f ≤ 7

/-- Legal VCVT words: the pairs of Table 6.5, H below the ratio, the use of c. -/
def cvtLegal (f : VFields) (d r : Reg) (imm : BitVec 15) : Bool :=
  let p := f.fmt.toNat
  let q := f.fmt2.toNat
  let pair := (cvtRow p && cvtRow q && p != q) || (cvtFp p && q == 2) || (p == 2 && cvtFp q)
  let blocks := p == 2 || q == 2
  pair && decide (imm.toNat < max (fmtWidth p) (fmtWidth q) / min (fmtWidth p) (fmtWidth q)) &&
  (!f.sa || p == 0 || p == 1) && (!f.sb || q == 0 || q == 1) && (if blocks then r != d else r.val == 0)

/-- Elements of a conversion: number, first source lane, first destination lane. -/
def cvtSpan (p q h : Nat) : Nat × Nat × Nat :=
  let wp := fmtWidth p
  let wq := fmtWidth q
  if wq < wp then (lanesOf wp, 0, h * lanesOf wp) else (lanesOf wq, h * lanesOf wq, 0)

/-- The blocks that a conversion to FP4 forms (02 R42): scales and elements. -/
def cvtToBlocks (p mode : Nat) (seed : BitVec 32) (a : BitVec 1024) : List Nat × Rounded :=
  let wp := fmtWidth p
  let n := lanesOf wp
  let num := fun i => decodeFloat p (laneAt wp a i)
  let scales := (List.range (n / 32)).map (fun b =>
    let xs := (List.range 32).map (fun j => num (32 * b + j))
    if xs.any notFinite then 0xFF else mxScale xs)
  (scales, roundEach mode seed n (fun i r => if scales.getD (i / 32) 0 = 0xFF then (0, flagNV) else mxElem (scales.getD (i / 32) 0) mode r (num i)))

/-- VCVT. -/
def cvtWord (x : At) (f : VFields) (d a r : Reg) (h : Nat) (s : State) : Except Trap Done :=
  let p := f.fmt.toNat
  let q := f.fmt2.toNat
  let fp := (thrAt x s).fp
  let mode := modeInForce fp f.rm.toNat
  let va := vAt x s a
  let vc := vAt x s r
  let vd := vAt x s d
  let span := cvtSpan p q h
  let wq := fmtWidth q
  let put := fun (z : Rounded) => replaceLanes wq span.2.2 z.vals vd
  if q = 2 then
    let z := cvtToBlocks p mode fp.srseed va
    vecFree x s [d, r] (done (fun st => setRounded x mode z.2
      (setV x r (replaceLanes 8 (span.2.2 / 32) z.1 vc) (setV x d (put z.2) st))))
  else
    let free := drawFree 1024 s
    let num := fun i =>
      let e := laneAt (fmtWidth p) va (span.2.1 + i)
      if p = 2 then mxNum (laneAt 8 vc ((span.2.1 + i) / 32)) e else laneNum p f.sa e
    let z := roundEach mode fp.srseed span.1 (fun i k =>
      convertTo q mode (satInForce fp f.sat) f.sb k (BitVec.ofNat 32 (laneAt 32 free.1 (i % 32))) (num i))
    vecFree x s [d] (done (fun st => setRounded x mode z
      (setV x d (put z) (if q = 8 then { st with freeCtr := st.freeCtr + 1 } else st))))

def specVcvt (x : At) (f : VFields) (d a r : Reg) (imm : BitVec 15) : OpSpec :=
  let p := f.fmt.toNat
  let q := f.fmt2.toNat
  specLongVec (cvtLegal f d r imm)
    ([a] ++ (if fmtWidth q < fmtWidth p then [d] else []) ++ (if p = 2 || q = 2 then [r] else []))
    (d :: (if q = 2 then [r] else [])) (cvtWord x f d a r imm.toNat)

/-- One lane of VSPLIT (02 R61): hi, lo and flags. -/
def splitLane (a : Nat) : Nat × Nat × Nat :=
  match decodeFloat 7 a with
  | .nan => (nanCode 5, 0, flagNV)
  | .inf _ => (a / 65536, 0, 0)
  | x =>
    let hi := a / 65536
    let lo := roundNum 5 0 false 0 (numAdd x (numNeg (decodeFloat 5 hi)))
    (hi, lo.1, lo.2)

def specVsplit (x : At) (f : VFields) (d r a : Reg) (imm : BitVec 15) : OpSpec :=
  specLongVec (f.fmt == 7 && f.fmt2 == 5 && f.rm == 0 && !f.sat && !f.sa && !f.sb && decide (imm.toNat < 2) && r != d) [a, d, r] [d, r]
    (fun s =>
      let ls := (List.range 32).map (fun i => splitLane (laneAt 32 (vAt x s a) i))
      let vd := replaceLanes 16 (32 * imm.toNat) (ls.map (·.1)) (vAt x s d)
      let vc := replaceLanes 16 (32 * imm.toNat) (ls.map (·.2.1)) (vAt x s r)
      vecFree x s [d, r] (done (fun st => setFlags x (ls.foldl (fun a l => joinFlags a l.2.2) 0) (setV x r vc (setV x d vd st)))))

/-! ### Online softmax (06 R172 to R175) -/

/-- Rows of a score register, and the lanes of a row. -/
def rowLanes (g : Nat) (v : BitVec 1024) (r : Nat) : List Nat := (List.range (2 ^ g)).map (fun i => laneAt 32 v (r * 2 ^ g + i))

/-- The greatest of lane values under R162, with NV for a NaN. -/
def maxOf (f : Nat) (signed : Bool) (ls : List Nat) : Nat × Nat :=
  match ls with
  | [] => (0, 0)
  | x :: r =>
    -- a lone lane goes through the same rule
    r.foldl (fun a y => let z := pickLane true f signed a.1 y; (z.1, joinFlags a.2 z.2)) (pickLane true f signed x x)

/-- The exact sum of numbers. -/
def sumOf (xs : List Num) : Num :=
  match xs with
  | [] => .fin false 0 0
  | x :: r => r.foldl numAdd x

def rowLegal (rounds saturates : Bool) (f : VFields) (imm : BitVec 15) : Bool :=
  fieldsLegal (· == 7) rounds saturates .none f && decide (imm.toNat ≤ 5)

def specVsmax (x : At) (f : VFields) (d a b : Reg) (imm : BitVec 15) : OpSpec :=
  let g := imm.toNat
  specLongVec (rowLegal false false f imm) [a, b] [d] (fun s =>
    vecResult x d 32 0 (eachLane (32 / 2 ^ g) (fun r => maxOf 7 true (laneAt 32 (vAt x s b) r :: rowLanes g (vAt x s a) r))) s)

def specVssum (x : At) (f : VFields) (d a b r : Reg) (imm : BitVec 15) : OpSpec :=
  let g := imm.toNat
  specLongVec (rowLegal true true f imm) [a, b, r] [d] (fun s =>
    let fp := (thrAt x s).fp
    let mode := modeInForce fp f.rm.toNat
    vecResult x d 32 mode (roundEach mode fp.srseed (32 / 2 ^ g) (fun i k =>
      roundNum 7 mode (satInForce fp f.sat) k
        (sumOf (numMul (decodeFloat 7 (laneAt 32 (vAt x s r) i)) (decodeFloat 7 (laneAt 32 (vAt x s b) i)) ::
          (rowLanes g (vAt x s a) i).map (decodeFloat 7))))) s)

/-- One lane of VEXPR (06 R174). -/
def exprLane (sat : Bool) (a b : Nat) : Nat × Nat :=
  let x := decodeFloat 7 a
  let y := decodeFloat 7 b
  if x = .inf true && y = .inf true then (0, 0) else roundNum 7 0 sat 0 (numExp2 (numAdd x (numNeg y)))

def specVexpr (x : At) (f : VFields) (d a b : Reg) (imm : BitVec 15) : OpSpec :=
  let g := imm.toNat
  specLongVec (rowLegal false true f imm) [a, b] [d] (fun s =>
    vecResult x d 32 0 (eachLane 32 (fun i =>
      exprLane (satInForce (thrAt x s).fp f.sat) (laneAt 32 (vAt x s a) i) (laneAt 32 (vAt x s b) (i / 2 ^ g)))) s)

/-! ### Rotary positions and masks (06 R176 to R179) -/

/-- Cosine, sine and flags for a position and a frequency. -/
def ropeLane (p : Int) (freq : Nat) : Nat × Nat × Nat :=
  if p < 0 || 2 ^ 22 ≤ p then (nanCode 7, nanCode 7, flagNV)
  else
    let cs := turnCosSin (p.toNat * freq % 2 ^ 64)
    let c := roundNum 7 0 false 0 cs.1
    let n := roundNum 7 0 false 0 cs.2
    (c.1, n.1, joinFlags c.2 n.2)

def specVrope (x : At) (f : VFields) (d r a : Reg) (imm : BitVec 15) : OpSpec :=
  let k := imm.toNat % 256
  let m1 := imm.getLsbD 8
  specLongVec (fieldsLegal (· == 7) false false .none f && decide (imm.toNat < 512) && !(m1 && decide (224 < k)) && r != d) [a] [d, r]
    (fun s =>
      let rope := (getCore s x.1).rope
      let ls := (List.range 32).map (fun i =>
        ropeLane (toSigned 32 (laneAt 32 (vAt x s a) (if m1 then 0 else i))) (mget rope (if m1 then k + i else k) 0).toNat)
      vecFree x s [d, r] (done (fun st => setFlags x (ls.foldl (fun q l => joinFlags q l.2.2) 0)
        (setV x r (packLanes 32 (ls.map (·.2.1))) (setV x d (packLanes 32 (ls.map (·.1))) st)))))

/-- A mask lane: +0 where the key is visible, −∞ elsewhere. -/
def maskLane (visible : Bool) : Nat × Nat := (if visible then 0 else 0xFF800000, 0)

def specVcmask (x : At) (f : VFields) (d a b : Reg) (imm : BitVec 15) : OpSpec :=
  specLongVec (fieldsLegal (· == 7) false false .none f) [a, b] [d] (fun s =>
    vecResult x d 32 0 (eachLane 32 (fun i =>
      let key := toSigned 32 (laneAt 32 (vAt x s a) i)
      let q := toSigned 32 (laneAt 32 (vAt x s b) i)
      maskLane (decide (key ≤ q) && (imm.toNat == 0 || decide (q - imm.toNat < key))))) s)

def specVpmask (x : At) (f : VFields) (d a b : Reg) : OpSpec :=
  specLongVec (fieldsLegal (· == 7) false false .none f) [a, b] [d] (fun s =>
    vecResult x d 32 0 (eachLane 32 (fun i =>
      maskLane (decide (toSigned 32 (laneAt 32 (vAt x s a) i) < toSigned 32 (laneAt 32 (vAt x s b) i))))) s)

/-! ### Permute, broadcast, reductions, lane moves (06 R168 to R170) -/

def specVperm (x : At) (f : VFields) (d a b : Reg) : OpSpec :=
  let w := fmtWidth f.fmt.toNat
  specLongVec (fieldsLegal fmtWide false false .none f) [a, b] [d] (fun s =>
    vecResult x d w 0 (eachLane (lanesOf w) (fun i => (laneAt w (vAt x s a) (laneAt w (vAt x s b) i % lanesOf w), 0))) s)

def specVbcast (x : At) (f : VFields) (d a : Reg) : OpSpec :=
  let w := fmtWidth f.fmt.toNat
  { specLongVec (fieldsLegal fmtWide false false .none f) [] [d] (fun s =>
      vecResult x d w 0 (eachLane (lanesOf w) (fun _ => ((grAt x s a).toNat % 2 ^ w, 0))) s) with useG := [a] }

/-- The sum of all lanes (06 R169): width of its lane, value, flags, generator. -/
def redSum (f : VFields) (fp : FpRegs) (a : BitVec 1024) : Nat × Nat × Rounded :=
  let fm := f.fmt.toNat
  let w := fmtWidth fm
  let n := lanesOf w
  if isIntFmt fm then
    let t : Int := (List.range n).foldl (fun (z : Int) i => z + intOf fm f.sa (laneAt w a i)) 0
    (32, 0, ⟨[intLane 8 true (fm == 8 && satInForce fp f.sat) t], 0, 0⟩)
  else
    let mode := modeInForce fp f.rm.toNat
    (w, mode, roundEach mode fp.srseed 1 (fun _ r =>
      roundNum fm mode (satInForce fp f.sat) r (sumOf ((List.range n).map (fun i => decodeFloat fm (laneAt w a i))))))

def specVredsum (x : At) (f : VFields) (d a : Reg) : OpSpec :=
  specLongVec (fieldsLegal fmtArith true true .arith f) [a] [d] (fun s =>
    let r := redSum f (thrAt x s).fp (vAt x s a)
    vecResult x d r.1 r.2.1 r.2.2 s)

/-- VREDMAX. R169 gives zeros beside lane 0 for VREDSUM alone; the model writes them here too (assumption log 79). -/
def specVredmax (x : At) (f : VFields) (d a : Reg) : OpSpec :=
  let fm := f.fmt.toNat
  let w := fmtWidth fm
  specLongVec (fieldsLegal fmtArith false false .arith f) [a] [d] (fun s =>
    let r := maxOf fm f.sa ((List.range (lanesOf w)).map (laneAt w (vAt x s a)))
    vecResult x d w 0 ⟨[r.1], r.2, 0⟩ s)

def laneLegal (f : VFields) (imm : BitVec 15) : Bool := decide (imm.toNat < lanesOf (fmtWidth f.fmt.toNat))

def specVmovg (x : At) (f : VFields) (d a : Reg) (imm : BitVec 15) : OpSpec :=
  let w := fmtWidth f.fmt.toNat
  { OpSpec.base 3 (fun s =>
      let v := laneAt w (vAt x s a) imm.toNat
      done (setGr x d (if f.fmt == 1 && f.sa then BitVec.ofInt 64 (toSigned 8 v) else BitVec.ofNat 64 v))) with
    legal := fieldsLegal fmtWide false false .none f && laneLegal f imm, useV := [a], setG := [d] }

def specVins (x : At) (f : VFields) (d a : Reg) (imm : BitVec 15) : OpSpec :=
  let w := fmtWidth f.fmt.toNat
  { specLongVec (fieldsLegal fmtWide false false .none f && laneLegal f imm) [d] [d] (fun s =>
      let v := replaceLanes w imm.toNat [(grAt x s a).toNat % 2 ^ w] (vAt x s d)
      vecFree x s [d] (done (setV x d v))) with useG := [a] }

/-! ### VLD and VST (06 R180) -/

/-- The checks of a vector transfer: its local offset. 09 R243 names LDL and STL alone as what user code may not use on a control core, so VLD
and VST run there (assumption log 79). -/
def vecOffset (x : At) (s : State) (ea : Word) : Except Trap Nat :=
  let o := ea.toNat
  if lmBytes < o + 128 then fault 8 ea
  else if o % 128 ≠ 0 then fault 9 ea
  else if !ownReach s x.1 x.2 o 128 then fault 0xA ea
  else .ok o

def specVld (x : At) (d a : Reg) (imm : BitVec 15) : OpSpec :=
  { specLongVec true [] [d] (fun s =>
      let ea := grAt x s a + zext imm
      match vecOffset x s ea with
      | .error e => .error e
      | .ok o =>
        let v := BitVec.ofNat 1024 (leNat (lmReadN s x.1 o 128))
        let bad := (lmFirstBad s x.1 o 128).isSome
        vecFree x s [d] (done (fun st =>
          let s1 := setV x d v (noteLm x.1 o 128 st)
          if bad then modThr x.1 x.2 (fun h => { h with poisonV := (d.val, ea) :: h.poisonV }) s1 else s1))) with useG := [a] }

def specVst (x : At) (d a : Reg) (imm : BitVec 15) : OpSpec :=
  { specLongVec true [d] [] (fun s =>
      let ea := grAt x s a + zext imm
      match vecOffset x s ea with
      | .error e => .error e
      | .ok o => done (ownStore x.1 x.2 o ea (bytesOf (vAt x s d) 128))) with useG := [a] }

/-! ### The other slot of a pair -/

/-- The specification of a short operation (04 Tables 4.5, 4.11 to 4.15). -/
def specShort (x : At) (o : ShortOp) : OpSpec :=
  match o with
  | .alu op d a b => specAlu x op d a b
  | .aluImm op d a imm =>
    { specAluImm x op d a (sext imm) with legal := match op with | .add | .and | .or | .xor => true | _ => false }
  | .shiftImm op d a n => { specShiftImm x op d a n with legal := match op with | .shl | .shr | .sar => true | _ => false }
  | .mov d a => specMov x d a
  | .lil d imm => specLil x d (sext imm)
  | .cmp k pd a b => specCmp x k pd a b
  | .bld pd a u => specBld x pd a u.toNat
  | .bst ps a u => specBst x ps a u.toNat
  | .bit op a u => specBitOp x op a u.toNat
  | .btas pd a u => specBitTest x true pd a u.toNat
  | .btac pd a u => specBitTest x false pd a u.toNat
  | .bldw d a u => specBldw x d a u.toNat
  | .bstw d a u => specBstw x d a u.toNat
  | .plogic op pd p q => specPlogic x op pd p q false false
  | .movpg d => specMovpg x d
  | .movgp a => specMovgp x a
  | .ld signed lg d a disp => specLoad x .device signed lg d (.base a (shortDisp lg disp))
  | .st lg d a disp => specStore x .device lg d (.base a (shortDisp lg disp))
  | .ldl signed lg d a disp => specLoad x .local_ signed lg d (.base a (shortDisp lg disp))
  | .stl lg d a disp => specStore x .local_ lg d (.base a (shortDisp lg disp))
  | .vec op fmt d a b => specVec x op (shortFields (shortRounds op) fmt) d a b
  | .br disp => specBr x (sext disp)
  | .ret => specRet x
  | .reserved _ => { OpSpec.base 0 (fun _ => done id) with legal := false, short := true }

/-- The other operation of a word. -/
def otherSpec (c : Ctx) (f : Form) : OpSpec :=
  match f with
  | .pair _ _ _ o => specShort (c.site.val, c.thr) o
  | _ => OpSpec.base 0 (fun _ => done id)

/-- The illegal-instruction fault of a word that no meaning takes. -/
def illegalWord (c : Ctx) (pair : Bool) (slot : Nat) (s : State) : State := raise c.site.val c.thr pair slot 1 0 0 0 s

/-- The word at the pc, decoded, under the command `i` with the operation `sp` (03 R63, R65; 04 R105, R106, R108, R119). A word that no
table describes raises the illegal-instruction fault, with PAIR = 1 and SLOT 0 where bit 31 of a pair is set; one that holds `i` is
performed, and one that holds another operation is none that `i` issues (assumption log 8). -/
def performFetched (c : Ctx) (i : Instr) (sp : OpSpec) (w : Word) (s : State) : Option State :=
  match decodeForm w with
  | .badPair => some (illegalWord c true 0 s)
  | .long neg gp =>
    match decodeLong c w with
    | none => some (illegalWord c false 0 s)
    | some j => if j = i then some (performWord c (.long neg gp) sp (otherSpec c .fetched) s) else none
  | .pair sg0 op0 sg1 op1 =>
    match pairFault (specShort (c.site.val, c.thr) op0) (specShort (c.site.val, c.thr) op1) with
    | some k => some (illegalWord c true k s)
    | none =>
      if shortInstr c op0 = some i then some (performWord c (.pair 0 sg0 sg1 op1) sp (specShort (c.site.val, c.thr) op1) s)
      else if shortInstr c op1 = some i then some (performWord c (.pair 1 sg1 sg0 op0) sp (specShort (c.site.val, c.thr) op0) s)
      else none

/-- The word that a command issues, in the form that its context gives. -/
def performAs (c : Ctx) (i : Instr) (sp : OpSpec) (w : Word) (s : State) : Option State :=
  match c.form with
  | .fetched => performFetched c i sp w s
  | f => some (performWord c f sp (otherSpec c f) s)

/-- A word is issued, where its site has the thread; `i` is the operation as a word spells it. -/
def runWord (c : Ctx) (i : Instr) (sp : OpSpec) (s : State) : Host.Outcome State Fault Refusal :=
  if hasThread c.site.val c.thr then .next (issueWord c (performAs c i sp) s) else .fault .noAgent

/-- The thread of a word. -/
def atOf (c : Ctx) : At := (c.site.val, c.thr)

end Sys2Proof.Machine
end

