-- ==== Sys2Proof/Machine/Bit.lean ====
section
/-! DEFINITION. The BIT words (03 R77 to R84, 04 Table 4.12). -/

namespace Sys2Proof.Machine

open Sys2Proof

def execBld (c : Ctx) (pd : PReg) (a : Reg) (u : BitVec 17) (s : State) : Host.Outcome State Fault Refusal :=
  runWord c (.bld c pd a u) (specBld (atOf c) pd a u.toNat) s
def execBst (c : Ctx) (ps : PReg) (a : Reg) (u : BitVec 17) (s : State) : Host.Outcome State Fault Refusal :=
  runWord c (.bst c ps a u) (specBst (atOf c) ps a u.toNat) s
def execBset (c : Ctx) (a : Reg) (u : BitVec 17) (s : State) : Host.Outcome State Fault Refusal :=
  runWord c (.bset c a u) (specBitOp (atOf c) .set a u.toNat) s
def execBclr (c : Ctx) (a : Reg) (u : BitVec 17) (s : State) : Host.Outcome State Fault Refusal :=
  runWord c (.bclr c a u) (specBitOp (atOf c) .clr a u.toNat) s
def execBtgl (c : Ctx) (a : Reg) (u : BitVec 17) (s : State) : Host.Outcome State Fault Refusal :=
  runWord c (.btgl c a u) (specBitOp (atOf c) .tgl a u.toNat) s
def execBtas (c : Ctx) (pd : PReg) (a : Reg) (u : BitVec 17) (s : State) : Host.Outcome State Fault Refusal :=
  runWord c (.btas c pd a u) (specBitTest (atOf c) true pd a u.toNat) s
def execBtac (c : Ctx) (pd : PReg) (a : Reg) (u : BitVec 17) (s : State) : Host.Outcome State Fault Refusal :=
  runWord c (.btac c pd a u) (specBitTest (atOf c) false pd a u.toNat) s
def execBcomb (c : Ctx) (op : LogicOp) (a : Reg) (offa : BitVec 9) (b : Reg) (offb : BitVec 9) (r : Reg) (offc : BitVec 9) (s : State) : Host.Outcome State Fault Refusal :=
  runWord c (.bcomb c op a offa b offb r offc) (specComb (atOf c) op a offa.toNat b offb.toNat r offc.toNat) s
def execBldw (c : Ctx) (d a : Reg) (u : BitVec 11) (s : State) : Host.Outcome State Fault Refusal :=
  runWord c (.bldw c d a u) (specBldw (atOf c) d a u.toNat) s
def execBstw (c : Ctx) (d a : Reg) (u : BitVec 11) (s : State) : Host.Outcome State Fault Refusal :=
  runWord c (.bstw c d a u) (specBstw (atOf c) d a u.toNat) s
def execBitscan (c : Ctx) (d a : Reg) (u : BitVec 17) (b : Reg) (v : Bool) (units : Nat) (s : State) : Host.Outcome State Fault Refusal :=
  runWord c (.bitscan c d a u b v 0) (specScan (atOf c) d a u.toNat b v units) s
def execPand (c : Ctx) (pd p q : PReg) (na nb : Bool) (s : State) : Host.Outcome State Fault Refusal :=
  runWord c (.pand c pd p q na nb) (specPlogic (atOf c) .and pd p q na nb) s
def execPor (c : Ctx) (pd p q : PReg) (na nb : Bool) (s : State) : Host.Outcome State Fault Refusal :=
  runWord c (.por c pd p q na nb) (specPlogic (atOf c) .or pd p q na nb) s
def execPxor (c : Ctx) (pd p q : PReg) (na nb : Bool) (s : State) : Host.Outcome State Fault Refusal :=
  runWord c (.pxor c pd p q na nb) (specPlogic (atOf c) .xor pd p q na nb) s
def execPandn (c : Ctx) (pd p q : PReg) (na nb : Bool) (s : State) : Host.Outcome State Fault Refusal :=
  runWord c (.pandn c pd p q na nb) (specPlogic (atOf c) .andn pd p q na nb) s
def execMovpg (c : Ctx) (d : Reg) (s : State) : Host.Outcome State Fault Refusal := runWord c (.movpg c d) (specMovpg (atOf c) d) s
def execMovgp (c : Ctx) (a : Reg) (s : State) : Host.Outcome State Fault Refusal := runWord c (.movgp c a) (specMovgp (atOf c) a) s

end Sys2Proof.Machine
end

