-- ==== Sys2Proof/Machine/MemOps.lean ====
section
/-! DEFINITION. The memory operations that exist only as long words: atomic operations, fences, the cache operations, GATHER and
MEMFILL (03 R91, R95; 04 Table 4.13; 08 R231; 09 R253 to R261, R597). -/

namespace Sys2Proof.Machine

open Sys2Proof

/-! ### Atomic operations and fences -/

/-- AMO and AMOG (04 R114): c is used by CAS alone. -/
def specAmo (x : At) (sp : Space) (wide : Bool) (op : Fin 10) (d a : Reg) (disp : BitVec 24) (b r : Reg) : OpSpec :=
  let n := if wide then 8 else 4
  { OpSpec.base 2 (fun s =>
      let ea := grAt x s a + sext disp
      amoWord s x.1 x.2 (grKey (thrAt x s).win d) op (grAt x s b) (grAt x s r) (spaceCheck sp x s .store true ea n)) with
    legal := op == 9 || r.val == 0, useG := if op = 9 then [a, b, r] else [a, b], setG := [d] }

def specFence (x : At) (k : FenceKind) : OpSpec := OpSpec.base 2 (fun s => fenceWord s x.1 x.2 k (done id))

/-! ### Line operations (09 R258, R597, Table 9.5) -/

/-- The address translated for the issuing level: by a page that grants loads, or one that grants fetches. -/
def lineXlat (x : At) (s : State) (va : Nat) : Xlat :=
  match translate s x.1 .load (lvlOf (thrAt x s)) va with
  | .fault _ _ => translate s x.1 .fetch (lvlOf (thrAt x s)) va
  | r => r

/-- The line of an effective address, none where its translation fails; the address fault of R597. -/
def lineAddr (x : At) (s : State) (ea : Word) : Except Trap (Option Nat) :=
  if 2 ^ 48 ≤ ea.toNat then fault 8 ea
  else match lineXlat x s ea.toNat with
    | .fault _ _ => .ok none
    | .ok pa _ =>
      match regionOf pa with
      | .hole => fault 8 ea
      | .window _ off => if lmBytes ≤ off then fault 8 ea else .ok (some (pa / 64))
      | _ => .ok (some (pa / 64))

/-- A line operation, after the thread's earlier accesses to the line (03 R94 item 2). -/
def lineWord (x : At) (s : State) (ea : Word) (eff : Nat → State → State) : Except Trap Done :=
  match lineAddr x s ea with
  | .error e => .error e
  | .ok none => done id
  | .ok (some line) =>
    match heldBy (thrAt x s) none (line * 64) 64 false with
    | some r => stallFor (.overlap r)
    | none => done (fun st => eff line (noteTranslation x.1 .load (lvlOf (thrAt x s)) ea.toNat st))

def specLine (x : At) (a : Reg) (disp : BitVec 24) (eff : Nat → State → State) : OpSpec :=
  { OpSpec.base 2 (fun s => lineWord x s (grAt x s a + sext disp) eff) with useG := [a] }

/-- A data-cache line operation does nothing on a target that is never cached. -/
def onCacheable (x : At) (eff : Nat → State → State) (line : Nat) (s : State) : State :=
  if cacheable s x.1 (line * 64) then eff line s else s

/-- CINV: dirty bytes are written back first at the user level, discarded above it. -/
def cinvLine (x : At) (line : Nat) (s : State) : State :=
  dropCopies x.1 line (if lvlOf (thrAt x s) = .user then cleanWord x.1 x.2 line s else s)

def specCinv (x : At) (a : Reg) (disp : BitVec 24) : OpSpec := specLine x a disp (onCacheable x (cinvLine x))
def specCwb (x : At) (a : Reg) (disp : BitVec 24) : OpSpec := specLine x a disp (onCacheable x (cleanWord x.1 x.2))
def specCflush (x : At) (a : Reg) (disp : BitVec 24) : OpSpec :=
  specLine x a disp (onCacheable x (fun line s => dropCopies x.1 line (cleanWord x.1 x.2 line s)))

/-- IINV: the own instruction cache and its side buffer, whatever the target. -/
def specIinv (x : At) (a : Reg) (disp : BitVec 24) : OpSpec :=
  specLine x a disp (fun line => modCache x.1 kIcache (invalidateLine (geomAt x.1 kIcache) line))

/-! ### Operations on whole caches -/

/-- Operations kept from the user level: privilege fault with SUB 0x2 (08 Table 8.1). -/
def supervisorWord (x : At) (s : State) (k : Except Trap Done) : Except Trap Done :=
  if lvlOf (thrAt x s) = .user then faultSub 2 2 0 else k

/-- An outstanding access of the thread to a cacheable address (09 R258). -/
def cacheableWait (s : State) (x : At) : Option Nat :=
  (((thrAt x s).loads ++ (thrAt x s).stores).find? (fun o => o.dev.isNone && cacheable s x.1 o.addr)).map (·.req)

/-- Every line of the own data caches is invalidated, and what an L2 loses leaves its L1s (09 R246). -/
def invalidateData (site : Nat) (s : State) : State :=
  let s1 := modCache site kData invalidateAll s
  if isCcSite site then modCache site kIcache (fun c => { c with lines := [] }) (modCache site kL2 invalidateAll s1) else s1

def cinvallWord (x : At) (s : State) : Except Trap Done :=
  supervisorWord x s (match cacheableWait s x with
    | some r => stallFor (.overlap r)
    | none => done (invalidateData x.1))

def specCinvall (x : At) : OpSpec := OpSpec.base 2 (cinvallWord x)

/-- Some line of the own data cache is dirty. -/
def anyDirty (s : State) (site : Nat) : Bool := (cacheAt s site (dataCache site)).lines.any (fun e => e.2.dirty != 0)

/-- CFLUSHALL: earlier accesses first, then the write-backs, then the invalidation. -/
def cflushallWord (x : At) (s : State) : Except Trap Done :=
  supervisorWord x s (match cacheableWait s x with
    | some r => stallFor (.overlap r)
    | none =>
      if anyDirty s x.1 then .error (.stall (.overlap s.nextReq) (cleanAll x.1 x.2 (fun _ => true)))
      else done (invalidateData x.1))

def specCflushall (x : At) : OpSpec := OpSpec.base 2 (cflushallWord x)

def specIinvall (x : At) : OpSpec := OpSpec.base 2 (fun s => supervisorWord x s (done (modCache x.1 kIcache invalidateAll)))

/-- The lock state that a mask sets (09 R261). -/
def setLocks (site : Nat) (w : Word) (s : State) : State :=
  let lock := fun (k m : Nat) => modCache site k (fun c => { c with locked := BitVec.ofNat 16 m })
  let s1 := lock kIcache (fld w 15 8) (lock kData (fld w 7 0) s)
  if isCcSite site then lock kL2 (fld w 31 16) s1 else s1

def specCwaylk (x : At) (a : Reg) : OpSpec :=
  { OpSpec.base 2 (fun s => supervisorWord x s (done (setLocks x.1 (grAt x s a)))) with useG := [a] }

/-- PREFETCH (09 R260). -/
def prefetchWord (x : At) (ea : Word) (s : State) : Except Trap Done :=
  match checkDevice s x.1 x.2 .load false ea 1 with
  | .error _ => done id
  | .ok v =>
    let pol := policyAt s x.1 v.a v.cd
    if pol = 0 || pol = 3 || wouldHit s x.1 (v.a / 64) then done id
    else done (fun st => sidePrefetch x.1 x.2 kData (v.a / 64) (noteAccess x.1 .load v st))

def specPrefetch (x : At) (a : Reg) (disp : BitVec 24) : OpSpec :=
  { OpSpec.base 2 (fun s => prefetchWord x (grAt x s a + sext disp) s) with useG := [a] }

/-! ### GATHER (03 R98, 04 Table 4.13, 08 R231) -/

/-- The fault of a check, none where it passes. -/
def trapOf (e : Except Trap α) : Option Trap :=
  match e with
  | .error t => some t
  | .ok _ => none

/-- Place of a fault in the order of R122, in which a translation fault stands just before unit-absent (09 R268). -/
def trapRank : Trap → Nat
  | .fault c _ _ _ => if 0x18 ≤ c && c ≤ 0x1B then 11 else 2 * c
  | _ => 0

/-- Of the faults met, the first by R122. -/
def firstTrap (ts : List (Option Trap)) : Option Trap :=
  ts.foldl (fun a t => match a, t with
    | none, t => t
    | some a, some b => if trapRank b < trapRank a then some b else some a
    | some a, none => some a) none

/-- What source k of GATHER holds: bytes read, with the state, or the fault that the target answers; a node counts the uncorrectable
sectors that it meets either way (11 R293). -/
def readSource (s : State) (x : At) (k : Nat) (v : Access) : Except Trap (Nat × State) :=
  let line := v.a / 64
  let bad := fun (b : Bool) (n : Nat) (st : State) =>
    if b then Except.error (faultAfter x.1 x.2 0x0E 0 v.ea (fun _ => progressFault x.1 x.2 k st)) else Except.ok (n, st)
  let mem := fun (st : State) =>
    match regionOf v.a with
    | .hbm => bad (hbmFirstBad st v.a v.n).isSome (leNat (hbmReadN st v.a v.n)) (countKnownBad v.a v.n st)
    | .window w off =>
      let code := if w = x.1 then 0 else windowRefusal st w off v.n
      if code ≠ 0 then fault code v.ea else bad (lmFirstBad st w off v.n).isSome (leNat (lmReadN st w off v.n)) (noteLm w off v.n st)
    | _ => match regAccess (some x.1) v.lvl v.a v.n none st with
      | .ok w st1 => .ok (w.toNat, st1)
      | .held => .error .wait
      | .fault c => fault c v.ea
  if policyAt s x.1 v.a v.cd = 0 then mem s
  else
    let s1 := promote x.1 x.2 line (policyAt s x.1 v.a v.cd != 3) (policyAt s x.1 v.a v.cd == 4) s
    match dataLine s1 x.1 line, otherCopy s1 x.1 line with
    | some l, _ => .ok (lineBytes l.data (v.a % 64) v.n, s1)
    | none, some d => .ok (lineBytes d (v.a % 64) v.n, s1)
    | none, none => mem s1

/-- One element of GATHER: its index, its source, its place. -/
def gatherUnit (x : At) (lg : Fin 4) (d a b : Word) (k : Nat) (s : State) : Except Trap (State × Bool) :=
  let n := 2 ^ lg.val
  let iea := b + BitVec.ofNat 64 (4 * k)
  let dea := d + BitVec.ofNat 64 (n * k)
  let idx := checkLocal s x.1 x.2 iea 4
  let dst := checkLocal s x.1 x.2 dea n
  match idx with
  | .error e => .error ((firstTrap [some e, trapOf dst]).getD e)
  | .ok io =>
    let src := checkDevice s x.1 x.2 .load false (a + BitVec.ofNat 64 (leNat (lmReadN s x.1 io 4) * n)) n
    match src, dst with
    | .error e, _ => .error ((firstTrap [some e, trapOf dst]).getD e)
    | .ok _, .error e => .error e
    | .ok v, .ok o =>
      if (lmFirstBad s x.1 io 4).isSome then .error (faultAfter x.1 x.2 0x0E 0 iea (fun st => progressFault x.1 x.2 k (noteLm x.1 io 4 st)))
      else match overlapWait s x.1 x.2 v with
        | some r => stallFor (.overlap r)
        | none => match readSource (noteAccess x.1 .load v s) x k v with
          | .error e => .error e
          | .ok r => .ok (ownStore x.1 x.2 o dea (leBytes n r.1) r.2, false)

def specGather (x : At) (lg : Fin 4) (d a b r : Reg) (units : Nat) : OpSpec :=
  { OpSpec.base 2 (fun s => resumableWord x.1 x.2 (grAt x s r).toNat units
      (gatherUnit x lg (grAt x s d) (grAt x s a) (grAt x s b)) id) with useG := [a, b, r, d], resumable := true }

/-! ### MEMFILL -/

/-- One 8 B unit of MEMFILL: a posted store. -/
def fillUnit (x : At) (d v : Word) (k : Nat) (s : State) : Except Trap (State × Bool) :=
  match storeWord s x.1 x.2 v (checkDevice s x.1 x.2 .store false (d + BitVec.ofNat 64 (8 * k)) 8) with
  | .error e => .error e
  | .ok e => .ok (e.eff s, false)

/-- MEMFILL: d and b multiples of 8. -/
def memfillWord (x : At) (d a b : Reg) (units : Nat) (s : State) : Except Trap Done :=
  let dst := grAt x s d
  let n := (grAt x s b).toNat
  if dst.toNat % 8 ≠ 0 || n % 8 ≠ 0 then
    let al := Trap.fault 9 0 dst 0
    .error ((firstTrap [trapOf (checkDevice s x.1 x.2 .store false dst 8), some al]).getD al)
  else resumableWord x.1 x.2 (n / 8) units (fillUnit x dst (grAt x s a)) id

def specMemfill (x : At) (d a b : Reg) (units : Nat) : OpSpec :=
  { OpSpec.base 2 (memfillWord x d a b units) with useG := [a, b, d], resumable := true }

end Sys2Proof.Machine
end

