-- ==== Sys2Proof/Machine/TileOps.lean ====
section
/-! DEFINITION. The matrix unit and the tile words (07; 02 R53 to R60; 04 R115, Table 4.16): configuration, transfers, matrix operations
with their checks, their start, commit, abort and replay. -/

namespace Sys2Proof.Machine

open Sys2Proof

/-! ### Operand slots (07 R183, R184, Table 7.2) -/

def slotFmt (w : Word) : Nat := fld w 59 56
def slotSigned (w : Word) : Bool := bit w 55
def slotIsB (w : Word) : Bool := bit w 54
def slotGroup (w : Word) : Nat := 2 ^ fld w 53 52
def slotLow (w : Word) : Nat := fld w 51 50
def slotBase (w : Word) : Nat := fld w 49 45
def slotK (w : Word) : Nat := 8 * fld w 22 16
def slotRows (w : Word) : Nat := 8 * fld w 12 8

/-- Row bytes (07 Table 7.1). -/
def rowBytes (f k : Nat) : Nat :=
  if f = 0 then k / 2 else if f = 2 then k / 2 + k / 32 else if f = 5 || f = 6 then 2 * k else k

def slotRB (w : Word) : Nat := rowBytes (slotFmt w) (slotK w)

/-- Registers that each thread of the group gives. -/
def slotCount (w : Word) : Nat := (slotRows w * slotRB w + 128 * slotGroup w - 1) / (128 * slotGroup w)

/-- A thread is a member of the slot's group. -/
def slotMember (w : Word) (t : Fin 4) : Bool := decide (slotLow w ≤ t.val) && decide (t.val < slotLow w + slotGroup w)

/-- Thread and register of a chunk of the image. -/
def chunkThread (w : Word) (c : Nat) : Fin 4 := Fin.ofNat 4 (slotLow w + c % slotGroup w)
def chunkReg (w : Word) (c : Nat) : Reg := Fin.ofNat 32 (slotBase w + c / slotGroup w)

/-- Bytes of the padded image. -/
def imageBytes (w : Word) : Nat := 128 * slotGroup w * slotCount w

/-- The image that the registers hold, without padding. -/
def slotImage (c : Core) (w : Word) : List Byte :=
  ((List.range (imageBytes w / 128)).flatMap (fun k => bytesOf (readV (coreThr c (chunkThread w k)) (chunkReg w k)) 128)).take
    (slotRows w * slotRB w)

/-- Slot `n` of a core as an operand slot, and accumulator `n - 8`. -/
def slotConf (c : Core) (n : Fin 16) : Word := mget c.mx.slots n.val 0
def accConf (c : Core) (n : Fin 16) : Acc := mget c.mx.accs (n.val - 8) Acc.reset

/-- Accumulator fields (07 Table 7.3). -/
def accFmt (a : Acc) : Nat := fld a.conf 59 56
def accSat (a : Acc) : Bool := bit a.conf 55
def accMode (a : Acc) : Nat := if bit a.conf 54 then 1 else 0
def accOwner (a : Acc) : Fin 4 := Fin.ofNat 4 (fld a.conf 51 50)

/-! ### TCFG (07 R185 to R189) -/

/-- Must-be-zero bits of a configuration. -/
def confReserved (n : Fin 16) : Word :=
  if n.val < 8 then maskOf 62 60 ||| maskOf 38 23 ||| maskOf 15 13 ||| maskOf 7 0
  else maskOf 62 60 ||| maskOf 53 52 ||| maskOf 48 13 ||| maskOf 7 4

/-- R188: the thread may give the slot this configuration. -/
def confOwner (c : Core) (t : Fin 4) (n : Fin 16) (w : Word) : Bool :=
  if n.val < 8 then
    let old := slotConf c n
    (!bit old 63 || slotMember old t) && (!bit w 63 || slotMember w t)
  else
    let old := accConf c n
    if bit old.conf 63 then accOwner old == t else !bit w 63 || fld w 51 50 == t.val

/-- Two operand slots share a register of a thread (07 R186). -/
def slotsOverlap (v w : Word) : Bool :=
  threadsOf.any (fun t => slotMember v t && slotMember w t) && decide (slotBase v < slotBase w + fld w 44 39) &&
  decide (slotBase w < slotBase v + fld v 44 39)

/-- The first subcode of Table 7.4 that applies, 0 where none does. -/
def confError (c : Core) (l : Level) (t : Fin 4) (n : Fin 16) (w : Word) : Nat :=
  let old := accConf c n
  if w &&& confReserved n ≠ 0 || (!bit w 63 && w ≠ 0) then 1
  else if l ≠ .machine && !confOwner c t n w then 2
  else if !bit w 63 then 0
  else if n.val < 8 then
    (if 6 < slotFmt w || (slotSigned w && 1 < slotFmt w) then 3
     else if fld w 22 16 = 0 || 64 < fld w 22 16 || (slotFmt w == 2 && fld w 22 16 % 4 != 0) || fld w 12 8 = 0 ||
         (if slotIsB w then 8 else 16) < fld w 12 8 then 4
     else if fld w 53 52 = 3 || slotLow w % slotGroup w ≠ 0 then 5
     else if fld w 44 39 ≠ slotCount w || 32 < slotBase w + fld w 44 39 ||
         (List.range 8).any (fun k => k != n.val && bit (mget c.mx.slots k 0) 63 && slotsOverlap (mget c.mx.slots k 0) w) then 6
     else 0)
  else if fld w 59 56 ≠ 7 && fld w 59 56 ≠ 8 then 3
  else if fld w 12 8 = 0 || 16 < fld w 12 8 || fld w 3 0 = 0 || 8 < fld w 3 0 then 4
  else if bit w 49 && !(bit old.conf 63 && !old.inc && fld old.conf 59 56 == fld w 59 56 && fld old.conf 12 8 == fld w 12 8 &&
      fld old.conf 3 0 == fld w 3 0) then 7
  else 0

/-- A latched slot that is configured again leaves its latch. -/
def unlatch (n : Nat) (m : Matrix) : Matrix :=
  { m with latchA := if m.latchA = some n then none else m.latchA, latchB := if m.latchB = some n then none else m.latchB }

/-- The configuration is taken. -/
def takeConf (n : Fin 16) (w : Word) (c : Core) : Core :=
  if n.val < 8 then { c with mx := unlatch n.val { c.mx with slots := mset c.mx.slots n.val w } }
  else
    let old := accConf c n
    let conf := w &&& ~~~ (maskOf 49 49)
    let a : Acc := if bit w 49 then { old with conf := conf } else ⟨conf, false, false, [], []⟩
    { c with mx := { c.mx with accs := mset c.mx.accs (n.val - 8) a } }

/-- An outstanding operation uses the slot. -/
def slotUsed (c : Core) (n : Fin 16) : Bool :=
  c.mx.queue.any (fun o => match o.op with
    | .tmma t u w _ _ => t == n || u == n || w == n
    | .tscale t _ => t == n
    | .tzero t => t == n)

/-- No matrix unit at a control core (09 R242). -/
def onMatrix (x : At) (k : Except Trap α) : Except Trap α := if isCcSite x.1 then fault 6 0 else k

def tcfgWord (x : At) (n : Fin 16) (w : Word) (s : State) : Except Trap Done :=
  let c := getCore s x.1
  if slotUsed c n then .error .wait
  else
    let e := confError c (lvlOf (thrAt x s)) x.2 n w
    if e ≠ 0 then faultSub 3 e 0 else done (modCore x.1 (takeConf n w))

def specTcfg (x : At) (n : Fin 16) (a : Reg) : OpSpec :=
  { OpSpec.base 5 (fun s => onMatrix x (tcfgWord x n (grAt x s a) s)) with useG := [a] }

/-! ### Tile shape checks (07 R196, Table 7.8) -/

/-- cs.tpend holds a valid entry. -/
def tpendValid (h : Thread) : Bool := bit h.fp.tpend0 63 || bit h.fp.tpend1 63

/-- The first subcode whose condition holds. -/
def firstSub (l : List (Bool × Nat)) : Nat :=
  match l.find? (·.1) with
  | some e => e.2
  | none => 0

/-- An accumulator that the thread may not use: not valid, of another owner, poisoned, or partly loaded. The TLDA under way goes on
after a row that poisoned its accumulator (07 R592). -/
def accRefused (c : Core) (t : Fin 4) (n : Fin 16) (incOk goesOn : Bool) : Bool :=
  let a := accConf c n
  !bit a.conf 63 || accOwner a != t || (a.psn && !goesOn) || (a.inc && !incOk)

/-- Products per step of a pair of formats (02 Table 2.3), 0 for a pair that is not there. -/
def stepGroup (f g : Nat) : Nat :=
  let int := fun k => k = 0 || k = 1
  let small := fun k => k = 2 || k = 3 || k = 4
  let half := fun k => k = 5 || k = 6
  if int f && int g then (if f = 0 && g = 0 then 8 else 4)
  else if small f && small g then (if f = 2 && g = 2 then 8 else 4)
  else if half f && half g then 2
  else 0

/-- Accumulator format that a pair needs. -/
def pairAcc (f : Nat) : Nat := if f ≤ 1 then 8 else 7

/-- Subcode of a matrix operation, 0 where it may enter the unit. -/
def shapeError (c : Core) (t : Fin 4) (pending : Bool) (op : TileOp) : Nat :=
  match op with
  | .tmma n u w _ _ =>
    let a := accConf c n
    let p := slotConf c u
    let q := slotConf c w
    let g := stepGroup (slotFmt p) (slotFmt q)
    firstSub [(pending, 7),
      (accRefused c t n false false || !bit p 63 || !bit q 63 || slotIsB p || !slotIsB q || !slotMember p t || !slotMember q t, 6),
      (g == 0 || accFmt a != pairAcc (slotFmt p), 4),
      (decide (64 < accRows a) && decide (g < 8), 5),
      (slotRows p != accRows a, 1), (slotRows q != accCols a, 2), (slotK p != slotK q, 3)]
  | .tscale n r =>
    let a := accConf c n
    firstSub [(pending, 7), (accRefused c t n false false, 6), (accFmt a == 8, 4), (decide (31 < r.val + (accRows a - 1) / 32), 1)]
  | .tzero n => firstSub [(pending, 7), (accRefused c t n true false, 6)]

/-- The first poisoned register of a slot, as cs.eaddr shows it (07 R591). -/
def slotPoison (c : Core) (w : Word) : Option Word :=
  threadsOf.findSome? (fun t => ((coreThr c t).poisonV.find? (fun e => slotHolds w t e.1)).map (·.2))

/-- The poisoned register that an operation would read. -/
def opPoison (c : Core) (t : Fin 4) (op : TileOp) : Option Word :=
  match op with
  | .tmma _ u w _ _ => (match slotPoison c (slotConf c u) with | some e => some e | none => slotPoison c (slotConf c w))
  | .tscale n a =>
    ((coreThr c t).poisonV.find? (fun e => decide (a.val ≤ e.1) && decide (e.1 ≤ a.val + (accRows (accConf c n) - 1) / 32))).map (·.2)
  | .tzero _ => none

/-- Outstanding operations of a thread. -/
def opsOf (c : Core) (t : Fin 4) : Nat := (c.mx.queue.filter (fun o => o.thr == t)).length

/-- An operation enters the unit's queue. -/
def enqueueOp (t : Fin 4) (op : TileOp) (c : Core) : Core :=
  { c with mx := { c.mx with queue := c.mx.queue ++ [⟨t, op, false, [], [], [], false⟩] } }

/-- The checks of an operation at issue: the tile shape fault, and the data error of a poisoned operand. -/
def opCheck (c : Core) (t : Fin 4) (pending : Bool) (op : TileOp) : Except Trap Unit :=
  let e := shapeError c t pending op
  if e ≠ 0 then faultSub 4 e 0
  else match opPoison c t op with
    | some ea => fault 0x0E ea
    | none => .ok ()

/-- A matrix operation issues: at most two of a thread are outstanding (07 R197). -/
def matrixWord (x : At) (op : TileOp) (s : State) : Except Trap Done :=
  let c := getCore s x.1
  if 2 ≤ opsOf c x.2 then .error .wait
  else match opCheck c x.2 (tpendValid (thrAt x s)) op with
    | .error e => .error e
    | .ok _ => done (modCore x.1 (enqueueOp x.2 op))

def isAcc (n : Fin 16) : Bool := decide (8 ≤ n.val)

def specTmma (x : At) (t u w : Fin 16) (ra rb : Bool) : OpSpec :=
  { OpSpec.base 5 (fun s => onMatrix x (matrixWord x (.tmma t u w ra rb) s)) with legal := isAcc t && !isAcc u && !isAcc w }
def specTscale (x : At) (t : Fin 16) (a : Reg) : OpSpec :=
  { OpSpec.base 5 (fun s => onMatrix x (matrixWord x (.tscale t a) s)) with legal := isAcc t }
def specTzero (x : At) (t : Fin 16) : OpSpec :=
  { OpSpec.base 5 (fun s => onMatrix x (matrixWord x (.tzero t) s)) with legal := isAcc t }

/-! ### Transfers of operand tiles (07 R190, R591) -/

/-- The address rules of R190 for rows of `rb` bytes. -/
def rowsCheck (base stride : Word) (rows rb : Nat) : Except Trap Unit :=
  let a := base.toNat
  let b := stride.toNat
  if 2 ^ 21 ≤ a || 2 ^ 21 ≤ b then fault 8 base
  else match firstBit rows (fun o => decide (lmBytes < a + o * b + rb)) with
    | some o => fault 8 (BitVec.ofNat 64 (a + o * b))
    | none => if a % 16 ≠ 0 || b % 16 ≠ 0 then fault 9 base else .ok ()

/-- Bytes of a register replaced; a write of its first byte ends an old mark (08 R222). -/
def putBytes (site : Nat) (t : Fin 4) (r : Reg) (off : Nat) (bs : List Byte) (poison : Option Word) (s : State) : State :=
  modCore site (dropLatches t r.val) (modThr site t (fun h =>
    let v := BitVec.ofNat 1024 (leNat (patch (bytesOf (readV h r) 128) off bs))
    let marks := if off = 0 || poison.isSome then mdel h.poisonV r.val else h.poisonV
    { h with vregs := mset h.vregs r.val v,
             poisonV := match poison with | some e => (r.val, e) :: marks | none => marks }) s)

/-- Image bytes from `i` on go to the registers of a slot, chunk by chunk; `bad off n` tells of uncorrectable source bytes. -/
def putImage (site : Nat) (w ea : Word) (bad : Nat → Nat → Bool) : Nat → Nat → Nat → List Byte → State → State
  | 0, _, _, _, s => s
  | n + 1, i, src, bs, s =>
    if bs = [] then s
    else
      let len := min bs.length (128 - i % 128)
      putImage site w ea bad n (i + len) (src + len) (bs.drop len)
        (putBytes site (chunkThread w (i / 128)) (chunkReg w (i / 128)) (i % 128) (bs.take len)
          (if bad src len then some ea else none) s)

/-- Some register of the slot is held by an outstanding operation (07 Table 7.10). -/
def slotHeld (c : Core) (w : Word) : Bool :=
  threadsOf.any (fun t => (List.range 32).any (fun r => slotHolds w t r && readByMatrix c t r))

/-- Checks of a transfer of an operand slot. -/
def tileCheck (x : At) (n : Fin 16) (a b : Word) (s : State) : Except Trap Unit :=
  let w := slotConf (getCore s x.1) n
  let e := firstSub [(tpendValid (thrAt x s), 7), (!bit w 63 || !slotMember w x.2, 6)]
  if e ≠ 0 then faultSub 4 e 0 else rowsCheck a b (slotRows w) (slotRB w)

/-- One row of TLD; the last one writes the padding as zeros. -/
def tldRow (x : At) (w : Word) (a b : Nat) (o : Nat) (s : State) : Except Trap (State × Bool) :=
  let off := a + o * b
  let rb := slotRB w
  let ea := BitVec.ofNat 64 off
  if !ownReach s x.1 x.2 off rb then fault 0xA ea
  else
    let bs := lmReadN s x.1 off rb
    let pad := if o + 1 = slotRows w then imageBytes w - slotRows w * rb else 0
    let s1 := putImage x.1 w ea (fun p n => (lmFirstBad s x.1 p n).isSome) (rb / 64 + 4) (o * rb) off bs (noteLm x.1 off rb s)
    .ok (putImage x.1 w ea (fun _ _ => false) (pad / 64 + 4) (o * rb + rb) 0 (List.replicate pad 0) s1, false)

def tldWord (x : At) (n : Fin 16) (a b : Word) (units : Nat) (s : State) : Except Trap Done :=
  let w := slotConf (getCore s x.1) n
  match tileCheck x n a b s with
  | .error e => .error e
  | .ok _ =>
    if slotHeld (getCore s x.1) w then .error .wait
    else resumableWord x.1 x.2 (slotRows w) units (tldRow x w a.toNat b.toNat) id

def specTld (x : At) (n : Fin 16) (a b : Reg) (units : Nat) : OpSpec :=
  { OpSpec.base 5 (fun s => onMatrix x (tldWord x n (grAt x s a) (grAt x s b) units s)) with
    legal := !isAcc n, useG := [a, b], resumable := true }

/-- One row of TST. -/
def tstRow (x : At) (w : Word) (a b : Nat) (o : Nat) (s : State) : Except Trap (State × Bool) :=
  let off := a + o * b
  let ea := BitVec.ofNat 64 off
  let rb := slotRB w
  if !ownReach s x.1 x.2 off rb then fault 0xA ea
  else .ok (ownStore x.1 x.2 off ea (((slotImage (getCore s x.1) w).drop (o * rb)).take rb) s, false)

def tstWord (x : At) (n : Fin 16) (a b : Word) (units : Nat) (s : State) : Except Trap Done :=
  let w := slotConf (getCore s x.1) n
  match tileCheck x n a b s with
  | .error e => .error e
  | .ok _ =>
    match slotPoison (getCore s x.1) w with
    | some ea => fault 0x0E ea
    | none => resumableWord x.1 x.2 (slotRows w) units (tstRow x w a.toNat b.toNat) id

def specTst (x : At) (n : Fin 16) (a b : Reg) (units : Nat) : OpSpec :=
  { OpSpec.base 5 (fun s => onMatrix x (tstWord x n (grAt x s a) (grAt x s b) units s)) with
    legal := !isAcc n, useG := [a, b], resumable := true }

/-! ### Transfers of accumulators (07 R191, R192, R592) -/

/-- The word at the pc resumes: it is under way, or cs.progress names it (08 R232). -/
def resumes (h : Thread) : Bool :=
  h.mid.isSome || (bit h.exc.progress 63 && fld h.exc.progress 62 48 == progTag h.pc)

/-- Formats that a transfer accepts, by AFMT. -/
def accTransfer (store : Bool) (af f : Nat) : Bool :=
  if af = 8 then f = 8 || (store && f = 1) else f = 7 || f = 5 || f = 6 || (store && (f = 3 || f = 4))

/-- Bytes of a row of an accumulator in a format. -/
def accRowBytes (a : Acc) (f : Nat) : Nat := accCols a * fmtWidth f / 8

/-- Checks of a transfer of an accumulator. -/
def accCheck (x : At) (store : Bool) (n : Fin 16) (a b : Word) (f : Nat) (s : State) : Except Trap Unit :=
  let h := thrAt x s
  let acc := accConf (getCore s x.1) n
  let on := !store && resumes h
  let e := firstSub [(tpendValid h, 7), (accRefused (getCore s x.1) x.2 n on (on && acc.inc), 6), (!accTransfer store (accFmt acc) f, 4)]
  if e ≠ 0 then faultSub 4 e 0 else rowsCheck a b (accRows acc) (accRowBytes acc f)

/-- Elements of a row of an accumulator replaced. -/
def putRow (row : Nat) (vals : List Nat) (a : Acc) : Acc :=
  foldN vals.length (fun j q => putElem (row * 64 + j) (BitVec.ofNat 32 (vals.getD j 0)) q) a

def rowVals (a : Acc) (row n : Nat) : List Nat := (List.range n).map (fun j => (mget a.elems (row * 64 + j) 0).toNat)

/-- An element of format f as the accumulator takes it: bits and flags. -/
def loadElem (af f v : Nat) : Nat × Nat := if f = af then (v, 0) else convertTo 7 0 false false 0 0 (decodeFloat f v)

/-- Element j of a row: its bytes, or a free value where they lie in an uncorrectable word. -/
def rowElem (s : State) (site off f j : Nat) (free : BitVec 2048) : Nat :=
  let n := fmtWidth f / 8
  if (lmFirstBad s site (off + j * n) n).isSome then (free >>> (32 * j)).toNat % 256 ^ n
  else leNat (lmReadN s site (off + j * n) n)

/-- One row of TLDA. -/
def tldaRow (x : At) (n : Fin 16) (a b f : Nat) (r : Nat) (s : State) : Except Trap (State × Bool) :=
  let acc := accConf (getCore s x.1) n
  let off := a + r * b
  let rb := accRowBytes acc f
  if !ownReach s x.1 x.2 off rb then fault 0xA (BitVec.ofNat 64 off)
  else
    let bad := (lmFirstBad s x.1 off rb).isSome
    let free := drawFree 2048 s
    let es := (List.range (accCols acc)).map (fun j => loadElem (accFmt acc) f (rowElem s x.1 off f j free.1))
    let s1 := modAcc x.1 (n.val - 8) (fun q => { putRow r (es.map (·.1)) q with inc := true, psn := q.psn || bad })
      (if bad then noteLm x.1 off rb free.2 else s)
    let s2 := setFlags x (es.foldl (fun z e => joinFlags z e.2) 0) s1
    .ok (if bad then postRecord 1 (threadSrc x.1) 0x12 x.1 (n.val - 8) 0 0 s2 else s2, false)

def tldaWord (x : At) (n : Fin 16) (a b : Word) (f units : Nat) (s : State) : Except Trap Done :=
  if accBusy (getCore s x.1) (n.val - 8) then .error .wait
  else match accCheck x false n a b f s with
    | .error e => .error e
    | .ok _ => resumableWord x.1 x.2 (accRows (accConf (getCore s x.1) n)) units (tldaRow x n a.toNat b.toNat f)
        (modAcc x.1 (n.val - 8) (fun q => { q with inc := false }))

def specTlda (x : At) (n : Fin 16) (a b : Reg) (f : BitVec 4) (units : Nat) : OpSpec :=
  { OpSpec.base 5 (fun s => onMatrix x (tldaWord x n (grAt x s a) (grAt x s b) f.toNat units s)) with
    legal := isAcc n && decide (f.toNat < 10), useG := [a, b], resumable := true }

/-- The accumulator is poisoned. -/
def poisonAcc (site n : Nat) (s : State) : State := modAcc site n (fun a => { a with psn := true }) s

/-- An element that TMOVA or TSTA reads fails its code twice: the accumulator is poisoned and the word raises the binding subcode
(07 R209); `before` records how far a resumable one has come. -/
def codeFault (x : At) (n : Fin 16) (before : State → State) : Trap :=
  faultAfter x.1 x.2 4 6 0 (fun s => poisonAcc x.1 (n.val - 8) (before s))

/-- Some of `len` elements from number `i` on fails its code. -/
def codesBad (a : Acc) (i len : Nat) : Bool := (List.range len).any (fun j => codeBad a (i + j))

/-- One row of TSTA: a copy in the accumulator's own format, else a conversion (02 R44, R45, R51). -/
def tstaRow (x : At) (n : Fin 16) (a b f rm : Nat) (sat : Bool) (r : Nat) (s : State) : Except Trap (State × Bool) :=
  let acc := accConf (getCore s x.1) n
  let off := a + r * b
  let ea := BitVec.ofNat 64 off
  let vals := rowVals acc r (accCols acc)
  if !ownReach s x.1 x.2 off (accRowBytes acc f) then fault 0xA ea
  else if codesBad acc (r * 64) (accCols acc) then .error (codeFault x n (progressFault x.1 x.2 r))
  else if f = accFmt acc then .ok (ownStore x.1 x.2 off ea (vals.flatMap (leBytes 4)) s, false)
  else
    let fp := (thrAt x s).fp
    let mode := modeInForce fp rm
    let z := roundEach mode fp.srseed vals.length (fun j k =>
      convertTo f mode (satInForce fp sat) true k 0 (laneNum (accFmt acc) true (vals.getD j 0)))
    .ok (setRounded x mode z (ownStore x.1 x.2 off ea (z.vals.flatMap (leBytes (fmtWidth f / 8))) s), false)

def tstaWord (x : At) (n : Fin 16) (a b : Word) (f rm : Nat) (sat : Bool) (units : Nat) (s : State) : Except Trap Done :=
  if accBusy (getCore s x.1) (n.val - 8) then .error .wait
  else match accCheck x true n a b f s with
    | .error e => .error e
    | .ok _ => resumableWord x.1 x.2 (accRows (accConf (getCore s x.1) n)) units (tstaRow x n a.toNat b.toNat f rm sat) id

def specTsta (x : At) (n : Fin 16) (a b : Reg) (f : BitVec 4) (rm : BitVec 2) (sat : Bool) (units : Nat) : OpSpec :=
  { OpSpec.base 5 (fun s => onMatrix x (tstaWord x n (grAt x s a) (grAt x s b) f.toNat rm.toNat sat units s)) with
    legal := isAcc n && decide (f.toNat < 10), useG := [a, b], resumable := true }

/-! ### TMOVA and TMOVV (07 R193) -/

/-- Checks of a row move: row b[6:0], half b[7]. -/
def moveCheck (x : At) (n : Fin 16) (b : Word) (s : State) : Except Trap Unit :=
  let c := getCore s x.1
  let acc := accConf c n
  let e := firstSub [(tpendValid (thrAt x s), 7), (accRefused c x.2 n false false, 6), (decide (accRows acc ≤ fld b 6 0), 1),
    (bit b 7 && decide (accCols acc ≤ 32), 2)]
  if e ≠ 0 then faultSub 4 e 0 else .ok ()

/-- Number of columns of the half. -/
def halfCols (acc : Acc) (b : Word) : Nat := min 32 (accCols acc - 32 * fld b 7 7)

def tmovaWord (x : At) (a : Reg) (n : Fin 16) (b : Word) (s : State) : Except Trap Done :=
  let acc := accConf (getCore s x.1) n
  if accBusy (getCore s x.1) (n.val - 8) then .error .wait
  else match moveCheck x n b s with
    | .error e => .error e
    | .ok _ =>
      let i := fld b 6 0 * 64 + 32 * fld b 7 7
      let vals := (List.range (halfCols acc b)).map (fun j => (mget acc.elems (i + j) 0).toNat)
      vecFree x s [a] (if codesBad acc i (halfCols acc b) then .error (codeFault x n id) else done (setV x a (packLanes 32 vals)))

def specTmova (x : At) (a : Reg) (n : Fin 16) (b : Reg) : OpSpec :=
  { OpSpec.base 5 (fun s => onMatrix x (tmovaWord x a n (grAt x s b) s)) with legal := isAcc n, useG := [b], setV := [a] }

def tmovvWord (x : At) (n : Fin 16) (a : Reg) (b : Word) (s : State) : Except Trap Done :=
  let acc := accConf (getCore s x.1) n
  let v := vAt x s a
  if accBusy (getCore s x.1) (n.val - 8) then .error .wait
  else match moveCheck x n b s with
    | .error e => .error e
    | .ok _ => done (modAcc x.1 (n.val - 8) (fun q => foldN (halfCols acc b) (fun j m =>
        putElem (fld b 6 0 * 64 + 32 * fld b 7 7 + j) (BitVec.ofNat 32 (laneAt 32 v j)) m) q))

def specTmovv (x : At) (n : Fin 16) (a b : Reg) : OpSpec :=
  { OpSpec.base 5 (fun s => onMatrix x (tmovvWord x n a (grAt x s b) s)) with legal := isAcc n, useG := [b], useV := [a] }

/-! ### The arithmetic of a step (02 R53 to R60) -/

/-- An exact product of finite factors at or above 2^128. -/
def overflowing : Num → Bool
  | .fin _ m e => m != 0 && decide (128 ≤ leadExp m e)
  | _ => false

def isInf : Num → Bool
  | .inf _ => true
  | _ => false

def numSign : Num → Bool
  | .nan => false
  | .inf n => n
  | .fin n _ _ => n

/-- α(t): the term aligned to weight 2^(emax − 50), truncated (02 R55). -/
def aligned (emax : Int) : Num → Int
  | .fin n m e => signedOf n (quantize 1 0 m (emax - 50 - e)).1
  | _ => 0

/-- Greatest ex(t) of the non-zero terms. -/
def maxExp (ts : List Num) : Int :=
  (ts.foldl (fun (a : Option Int) t => match t with
    | .fin _ m e => if m = 0 then a else some (match a with | some b => max b (leadExp m e) | none => leadExp m e)
    | _ => a) none).getD 0

def isZero : Num → Bool
  | .fin _ m _ => m == 0
  | _ => false

/-- R57 to R59 for a sum that `fin` gives where no term is special: bits and flags. -/
def resolveTerms (sat : Bool) (acc : Num) (ps : List Num) (fin : Nat × Nat) : Nat × Nat :=
  let ov := ps.any overflowing
  let infs := (acc :: ps).filter isInf ++ ps.filter overflowing
  let both := infs.any numSign && infs.any (fun t => !numSign t)
  let nan := (acc :: ps).any isNan
  let fl := joinFlags (if nan || both then flagNV else 0) (if ov then flagOF else 0)
  if nan || both then (0x7FC00000, fl)
  else match infs with
    | t :: _ =>
      let sgn := if numSign t then 0x80000000 else 0
      (sgn + (if sat && !(acc :: ps).any isInf then 0x7F7FFFFF else 0x7F800000), fl)
    | [] => (fin.1, joinFlags fl (fin.2 &&& flagOF))

/-- R55 and R56: the finite sum. -/
def sumTerms (mode : Nat) (sat : Bool) (ts : List Num) : Nat × Nat :=
  let emax := maxExp ts
  let sum : Int := ts.foldl (fun (z : Int) t => z + aligned emax t) 0
  if sum = 0 then ((if ts.all (fun t => isZero t && numSign t) then 0x80000000 else 0), 0)
  else roundFin 7 mode sat 0 (decide (sum < 0)) sum.natAbs (emax - 50)

/-- One floating-point step of an element. -/
def floatStep (mode : Nat) (sat : Bool) (acc : Nat) (ps : List Num) : Nat × Nat :=
  let a := decodeFloat 7 acc
  resolveTerms sat a ps (sumTerms mode sat (a :: ps))

/-- One integer step of an element (02 R60). -/
def intStep (sat : Bool) (acc : Nat) (ps : List Int) : Nat × Nat :=
  let sum : Int := ps.foldl (· + ·) (toSigned 32 acc)
  let b := intBounds 8 true
  if sum < b.1 then (if sat then 0x80000000 else intCode 32 sum, flagOF)
  else if b.2 < sum then (if sat then 0x7FFFFFFF else intCode 32 sum, flagOF)
  else (intCode 32 sum, 0)

/-! ### Operations of the unit (07 R182, R194, R195) -/

/-- Bits of element (o, k) of an image (07 R183). -/
def imageElem (f rb : Nat) (img : List Byte) (o i : Nat) : Nat :=
  let w := fmtWidth f
  if w = 4 then leAt img (o * rb + i / 2) 1 / 16 ^ (i % 2) % 16
  else if w = 8 then leAt img (o * rb + i) 1
  else leAt img (o * rb + 2 * i) 2

/-- An element as a number, with its block scale where the format is FP4. -/
def imageNum (f k rb : Nat) (img : List Byte) (o i : Nat) : Num :=
  let e := imageElem f rb img o i
  if f = 2 then mxNum (leAt img (o * rb + k / 2 + i / 32) 1) e else decodeFloat f e

def imageInt (f : Nat) (signed : Bool) (rb : Nat) (img : List Byte) (o i : Nat) : Int :=
  let e := imageElem f rb img o i
  if signed then toSigned (fmtWidth f) e else (e : Int)

/-- Element (m, n) after every step of a TMMA: bits and flags. -/
def mmaElem (p q : Word) (acc : Acc) (imgA imgB : List Byte) (m n : Nat) : Nat × Nat :=
  let f := slotFmt p
  let h := slotFmt q
  let k := slotK p
  let g := stepGroup f h
  (List.range (k / g)).foldl (fun (z : Nat × Nat) j =>
    let ks := (List.range g).map (g * j + ·)
    let r := if accFmt acc = 8 then
        intStep (accSat acc) z.1 (ks.map (fun i =>
          imageInt f (slotSigned p) (slotRB p) imgA m i * imageInt h (slotSigned q) (slotRB q) imgB n i))
      else
        floatStep (accMode acc) (accSat acc) z.1 (ks.map (fun i =>
          numMul (imageNum f k (slotRB p) imgA m i) (imageNum h k (slotRB q) imgB n i)))
    (r.1, joinFlags z.2 r.2)) ((mget acc.elems (m * 64 + n) 0).toNat, 0)

/-- An element under TSCALE. -/
def scaleElem (acc : Acc) (factor : Nat) (v : Nat) : Nat × Nat :=
  let a := decodeFloat 7 v
  let b := decodeFloat 7 factor
  let p := numMul a b
  match p with
  | .fin n m e =>
    if overflowing p then ((if n then 0x80000000 else 0) + (if accSat acc then 0x7F7FFFFF else 0x7F800000), flagOF)
    else
      let r := roundFin 7 (accMode acc) (accSat acc) 0 n m e
      (r.1, r.2 &&& flagOF)
  | .inf n => ((if n then 0x80000000 else 0) + 0x7F800000, 0)
  | .nan => (0x7FC00000, flagNV)

/-- Every element of an accumulator through a function of row, column and value: the accumulator and the flags. -/
def mapElems (f : Nat → Nat → Nat → Nat × Nat) (a : Acc) : Acc × Nat :=
  let idx := (List.range (accRows a)).flatMap (fun m => (List.range (accCols a)).map (fun n => (m, n)))
  let rs := idx.map (fun e => (e.1 * 64 + e.2, f e.1 e.2 (mget a.elems (e.1 * 64 + e.2) 0).toNat))
  (rs.foldl (fun m e => putElem e.1 (BitVec.ofNat 32 e.2.1) m) a, rs.foldl (fun z e => joinFlags z e.2.2) 0)

/-- Operands that an operation reads as it begins (07 R200). -/
def readOperands (c : Core) (o : MatOp) : MatOp :=
  match o.op with
  | .tmma _ u w _ _ => { o with begun := true, imgA := slotImage c (slotConf c u), imgB := slotImage c (slotConf c w) }
  | .tscale n a =>
    let h := coreThr c o.thr
    { o with begun := true, factors := (List.range (accRows (accConf c n))).map (fun r =>
        BitVec.ofNat 32 (laneAt 32 (readV h (Fin.ofNat 32 (a.val + r / 32))) (r % 32))) }
  | .tzero _ => { o with begun := true }

/-- A TMMA leaves its operands in the latches (07 R198). -/
def latchOperands (op : TileOp) (m : Matrix) : Matrix :=
  match op with
  | .tmma _ u w _ _ => { m with latchA := some u.val, latchB := some w.val }
  | _ => m

/-- The oldest operation begins. -/
def matrixBegin (c : Core) : Core :=
  match c.mx.queue with
  | o :: r => if o.begun then c else { c with mx := latchOperands o.op { c.mx with queue := readOperands c o :: r } }
  | [] => c

/-- MATRIX_OP_BEGIN. -/
def execMatrixOpBegin (site : Site) (s : State) : Host.Outcome State Fault Refusal :=
  if isCoreSite site then .next (modCore site matrixBegin s) else .fault .noAgent

/-- The accumulator and the flags that an operation gives at its commit. -/
def opResult (c : Core) (o : MatOp) : Acc × Nat :=
  let a := mget c.mx.accs (opAcc o.op) Acc.reset
  match o.op with
  | .tmma _ u w _ _ => mapElems (fun m n _ => mmaElem (slotConf c u) (slotConf c w) a o.imgA o.imgB m n) a
  | .tscale _ _ => mapElems (fun m _ v => scaleElem a (o.factors.getD m 0).toNat v) a
  | .tzero _ => ({ a with elems := [], codes := [], inc := false }, 0)

/-! ### Mismatches and replays (07 R206 to R210) -/

def colCount (m : Matrix) (j : Nat) : Nat := (m.cols.toNat / 4 ^ j) % 4
def setColCount (j n : Nat) (m : Matrix) : Matrix := { m with cols := setFld m.cols (2 * j + 1) (2 * j) n }

/-- The operation under way is aborted, to begin again (07 R201, R207). -/
def replayHead (coded : Bool) (m : Matrix) : Matrix :=
  match m.queue with
  | o :: r => { m with queue := { o with begun := false, imgA := [], imgB := [], factors := [], codeRetried := o.codeRetried || coded } :: r,
                       latchA := none, latchB := none, replays := satInc m.replays }
  | [] => m

def modMatrix (site : Nat) (f : Matrix → Matrix) (s : State) : State := modCore site (fun c => { c with mx := f c.mx }) s

def postReplay (site unit : Nat) (s : State) : State :=
  postRecord 0 .core 0x10 site unit 0 (getCore s site).mx.replays.toNat s

/-- A replay of a TMMA counts as a performance event of its thread; one for a MAC column is traced (23 R572, R573). -/
def noteReplay (site : Nat) (col : Option Nat) (s : State) : State :=
  match (getCore s site).mx.queue with
  | o :: _ =>
    (match o.op with
     | .tmma _ _ _ _ _ =>
       let s1 := countPerf site 8 o.thr 1 s
       (match col with | some j => traceRec site 7 o.thr.val j s1 | none => s1)
     | _ => s)
  | [] => s

/-- An arithmetic mismatch in MAC column j. -/
def columnMismatch (site j : Nat) (s : State) : State :=
  let s1 := postReplay site j (noteReplay site (some j)
    (modMatrix site (fun m => setColCount j (min 3 (colCount m j + 1)) (replayHead false m)) s))
  let m := (getCore s1 site).mx
  if colCount m j < 2 then s1
  else if m.spare then fenceCoreSelf site 0 (modMatrix site (fun m => { m with fenced := true }) s1)
  else postRecord 2 .core 0x11 site j 0 0
    (modMatrix site (fun m => setColCount j 0 { m with spare := true, scol := BitVec.ofNat 5 j }) s1)

/-- An operation whose arithmetic is checked in column j is under way. -/
def columnActive (c : Core) (j : Nat) : Bool :=
  match c.mx.queue with
  | o :: _ => o.begun && (match o.op with | .tzero _ => false | _ => decide (j < accCols (mget c.mx.accs (opAcc o.op) Acc.reset)))
  | [] => false

/-- The operation under way reads the elements of its accumulator. -/
def readsAcc (c : Core) (n : Nat) : Bool :=
  match c.mx.queue with
  | o :: _ => o.begun && opAcc o.op == n && (match o.op with | .tzero _ => false | _ => true)
  | [] => false

/-- An element that the operation under way reads fails its code: the operation is replayed, and discarded where it was so before. -/
def codeFails (site n : Nat) (s : State) : State :=
  match (getCore s site).mx.queue with
  | o :: r =>
    if o.codeRetried then
      settleHeld (postRecord 1 .core 0x12 site n 0 0 (poisonAcc site n
        (modMatrix site (fun m => { m with queue := r, latchA := none, latchB := none }) s)))
    else postReplay site (0x100 + n) (noteReplay site none (modMatrix site (replayHead true) s))
  | [] => s

/-- The stored code of element i no longer matches it. -/
def spoilCode (i : Nat) (a : Acc) : Acc :=
  { a with codes := mset a.codes i (BitVec.ofNat 3 ((mget a.elems i 0).toNat % 7 + 1)) }

/-- A stored code of accumulator n fails to match: at the read of the operation under way, or, with none that reads it, in the store, where
the next read of the element finds it. -/
def codeMismatch (site n elem : Nat) (s : State) : State :=
  let a := getAcc s site n
  if !bit a.conf 63 || accRows a ≤ elem / 64 || accCols a ≤ elem % 64 then s
  else if readsAcc (getCore s site) n then codeFails site n s
  else modAcc site n (spoilCode elem) s

/-- Some element of the accumulator fails its code. -/
def accCodesBad (a : Acc) : Bool := (List.range (accRows a)).any (fun r => codesBad a (r * 64) (accCols a))

/-- Array steps of an operation: S of a TMMA (07 R182). -/
def arraySteps (c : Core) (o : MatOp) : Nat :=
  match o.op with
  | .tmma n u w _ _ =>
    let a := accConf c n
    (accRows a + 31) / 32 * ((accCols a + 31) / 32) * (slotK (slotConf c u) / stepGroup (slotFmt (slotConf c u)) (slotFmt (slotConf c w)))
  | _ => 0

/-- The last step: elements, and flags in cs.fpcsr of the accumulator's owner (07 R194, R195; 02 R58). An element read whose code
does not match stops the commit (07 R209). -/
def matrixCommit (site : Nat) (s : State) : State :=
  let c := getCore s site
  match c.mx.queue with
  | o :: r =>
    if !o.begun then s
    else if readsAcc c (opAcc o.op) && accCodesBad (mget c.mx.accs (opAcc o.op) Acc.reset) then codeFails site (opAcc o.op) s
    else
      let z := opResult c o
      settleHeld (countPerf site 7 o.thr (arraySteps c o) <| setFlags (site, accOwner z.1) z.2
        (modCore site (fun c => { c with mx := { c.mx with queue := r, accs := mset c.mx.accs (opAcc o.op) z.1 } }) s))
  | [] => s

/-- TMMA_COMMIT. -/
def execTmmaCommit (site : Site) (s : State) : Host.Outcome State Fault Refusal :=
  if isCoreSite site then .next (matrixCommit site s) else .fault .noAgent

/-- RESIDUE_MISMATCH. -/
def residueMismatch (site : Nat) (m : Mismatch) (s : State) : State :=
  match m with
  | .column j => if columnActive (getCore s site) j.val then columnMismatch site j.val s else s
  | .code n e => codeMismatch site n.val e.val s

def execResidueMismatch (site : Site) (m : Mismatch) (s : State) : Host.Outcome State Fault Refusal :=
  if isCoreSite site then .next (residueMismatch site m s) else .fault .noAgent

end Sys2Proof.Machine
end

