-- ==== Sys2Proof/Machine/CsrWords.lean ====
section
/-! DEFINITION. The CSR moves (04 R116, R117, Table 4.17; 08 R213, Table 8.1): CSRR, CSRW, CSRS and CSRC on every register, and the rows that
name one register. -/

namespace Sys2Proof.Machine

open Sys2Proof

/-- The number is assigned on this kind of core. -/
def csrAssigned (x : At) (n : Nat) : Bool := (csrLevels (isCcSite x.1) n).isSome

/-- The level of the thread permits the access (05 R132, 08 R213). -/
def csrAllowed (x : At) (s : State) (write : Bool) (n : Nat) : Bool :=
  match csrLevels (isCcSite x.1) n with
  | some (r, w) => atLeast (lvlOf (thrAt x s)) r && (!write || atLeast (lvlOf (thrAt x s)) w)
  | none => true

/-- Value of a register as a move reads it. -/
def csrValue (x : At) (s : State) (n : Nat) : Word := (csrRead s x.1 x.2 n).getD 0

/-- CSRR. -/
def csrrWord (x : At) (d : Reg) (n : Nat) (s : State) : Except Trap Done :=
  if csrAllowed x s false n then done (fun st => setGr x d (csrValue x s n) (csrReadEffect x.1 x.2 n st))
  else fault 2 (BitVec.ofNat 64 n)

def specCsrr (x : At) (d : Reg) (n : Nat) : OpSpec :=
  { OpSpec.base 6 (csrrWord x d n) with legal := csrAssigned x n, setG := [d] }

/-- Storage key of a destination as a wait holds it: 0 for gr0. -/
def keyOrZero (x : At) (s : State) (d : Reg) : Nat := (grKey (thrAt x s).win d).getD 0

/-- A write of cs.chwait with WMASK `m` waits until an endpoint of the mask is ready (14 R376). -/
def chwaitWord (x : At) (d : Reg) (m : BitVec 16) (s : State) : Except Trap Done :=
  let r := readyMask s x.1 x.2
  if m = 0 || r &&& m ≠ 0 then done (setGr x d (zext r))
  else .ok ⟨id, .hold (.receive m (keyOrZero x s d))⟩

/-- CSRW, CSRS and CSRC: d takes the old value and the write is made in the same access. -/
def csrMoveWord (x : At) (op : CsrOp) (d : Reg) (n : Nat) (a : Reg) (s : State) : Except Trap Done :=
  if !csrAllowed x s true n then fault 2 (BitVec.ofNat 64 n)
  else if n = 0x171 then chwaitWord x d (if op = .c then 0 else ((grAt x s a) >>> 16).setWidth 16) s
  else
    let old := csrValue x s n
    done (fun st => setGr x d old (csrStore x.1 x.2 (lvlOf (thrAt x s)) n (csrCombine op n old (grAt x s a)) st))

def specCsrMove (x : At) (op : CsrOp) (d : Reg) (n : Nat) (a : Reg) : OpSpec :=
  { OpSpec.base 6 (csrMoveWord x op d n a) with legal := csrAssigned x n, useG := [a], setG := [d] }

/-- A CSR move as its word spells it. -/
def csrInstr (c : Ctx) (op : CsrOp) (d : Reg) (n : Nat) (a : Reg) : Instr :=
  match op with
  | .w => .csrw c d (BitVec.ofNat 12 n) a
  | .s => .csrs c d (BitVec.ofNat 12 n) a
  | .c => .csrc c d (BitVec.ofNat 12 n) a

/-! ### The rows -/

def execCsrr (c : Ctx) (d : Reg) (csr : BitVec 12) (s : State) : Host.Outcome State Fault Refusal :=
  runWord c (.csrr c d csr) (specCsrr (atOf c) d csr.toNat) s
def execCsrw (c : Ctx) (d : Reg) (csr : BitVec 12) (a : Reg) (s : State) : Host.Outcome State Fault Refusal :=
  runWord c (.csrw c d csr a) (specCsrMove (atOf c) .w d csr.toNat a) s
def execCsrs (c : Ctx) (d : Reg) (csr : BitVec 12) (a : Reg) (s : State) : Host.Outcome State Fault Refusal :=
  runWord c (.csrs c d csr a) (specCsrMove (atOf c) .s d csr.toNat a) s
def execCsrc (c : Ctx) (d : Reg) (csr : BitVec 12) (a : Reg) (s : State) : Host.Outcome State Fault Refusal :=
  runWord c (.csrc c d csr a) (specCsrMove (atOf c) .c d csr.toNat a) s

/-- cs.ropedata (06 R176). -/
def execRopedataWrite (c : Ctx) (op : CsrOp) (d a : Reg) (s : State) : Host.Outcome State Fault Refusal :=
  runWord c (csrInstr c op d 0x111 a) (specCsrMove (atOf c) op d 0x111 a) s

/-- cs.chsbdat, read or written (14 R368). -/
def execChsbdatAccess (c : Ctx) (op : Option CsrOp) (d a : Reg) (s : State) : Host.Outcome State Fault Refusal :=
  match op with
  | none => runWord c (.csrr c d 0x173) (specCsrr (atOf c) d 0x173) s
  | some o => runWord c (csrInstr c o d 0x173 a) (specCsrMove (atOf c) o d 0x173 a) s

/-- CSRR of cs.wmsg frees the slot that it returns (15 R399). -/
def execWmsgRead (c : Ctx) (d : Reg) (s : State) : Host.Outcome State Fault Refusal :=
  runWord c (.csrr c d 0x182) (specCsrr (atOf c) d 0x182) s

/-- CSRW of cs.chwait (14 R376). -/
def execChwaitWrite (c : Ctx) (d a : Reg) (s : State) : Host.Outcome State Fault Refusal :=
  runWord c (csrInstr c .w d 0x171 a) (specCsrMove (atOf c) .w d 0x171 a) s

/-- cs.tlbinv (09 R269, Table 9.9). -/
def execTlbinvWrite (c : Ctx) (op : CsrOp) (d a : Reg) (s : State) : Host.Outcome State Fault Refusal :=
  runWord c (csrInstr c op d 0x162 a) (specCsrMove (atOf c) op d 0x162 a) s

/-- cs.lmslice (05 R138). -/
def execLmsliceWrite (c : Ctx) (op : CsrOp) (d a : Reg) (s : State) : Host.Outcome State Fault Refusal :=
  runWord c (csrInstr c op d 0x100 a) (specCsrMove (atOf c) op d 0x100 a) s

/-- cs.tpend0 and cs.tpend1 (07 R205, R596). -/
def execTpendWrite (c : Ctx) (op : CsrOp) (n : Fin 2) (d a : Reg) (s : State) : Host.Outcome State Fault Refusal :=
  runWord c (csrInstr c op d (0x122 + n.val) a) (specCsrMove (atOf c) op d (0x122 + n.val) a) s

/-- cs.ccwd, whose KICK restarts the watchdog of a control core (21 R539). -/
def execCcwdKick (c : Ctx) (op : CsrOp) (d a : Reg) (s : State) : Host.Outcome State Fault Refusal :=
  runWord c (csrInstr c op d 0x190 a) (specCsrMove (atOf c) op d 0x190 a) s

end Sys2Proof.Machine
end

