-- ==== Sys2Proof/Machine/Gates.lean ====
section
/-! DEFINITION. Gate calls and the return from an exception or a gate (08 R233 to R237; 07 R203, R204). -/

namespace Sys2Proof.Machine

open Sys2Proof

/-! ### A gate entry (08 Table 8.12) -/

/-- The 64 B of an entry. -/
structure GateEntry where
  entry : Word
  val : Bool
  callers : Nat
  tlvl : Nat
  argc : Nat
  stk : Nat
  chks : Nat
  params : List Nat
  /-- a bit that Table 8.12 marks zero is set -/
  dirty : Bool
  deriving DecidableEq, Repr

def gateAt (d : BitVec 512) (i n : Nat) : Nat := d.toNat / 256 ^ i % 256 ^ n

def parseGate (d : BitVec 512) : GateEntry :=
  let b8 := gateAt d 8 1
  let b9 := gateAt d 9 1
  let entry : Word := BitVec.ofNat 64 (gateAt d 0 8)
  { entry := entry, val := b8.testBit 7, callers := b8 / 16 % 8, tlvl := b8 % 4, argc := b9 / 16, stk := b9 % 4,
    chks := gateAt d 10 2, params := (List.range 8).map (fun i => gateAt d (16 + 4 * i) 4),
    dirty := fld entry 63 48 != 0 || fld entry 2 0 != 0 || b8 / 4 % 4 != 0 || b9 / 4 % 4 != 0 || gateAt d 12 4 != 0 ||
      gateAt d 48 16 != 0 }

def gateChk (e : GateEntry) (i : Nat) : Nat := e.chks / 4 ^ i % 4
def gateParam (e : GateEntry) (i : Nat) : Nat := e.params.getD i 0

/-- The entry is malformed for a caller (08 R235). PARAM of a pointer check keeps bits [31:3] zero (R234). -/
def gateMalformed (e : GateEntry) (l : Level) : Bool :=
  e.dirty || e.tlvl == 3 || decide (e.tlvl < levelCode l) || decide (8 < e.argc) || decide (2 ≤ e.stk) ||
  (e.stk == 1 && e.tlvl == 0) ||
  (List.range 8).any (fun i =>
    (decide (e.argc ≤ i) && (gateChk e i != 0 || gateParam e i != 0)) ||
    (gateChk e i == 2 && (decide (e.argc ≤ i + 1) || gateChk e (i + 1) != 0 || decide (8 ≤ gateParam e i))) ||
    (gateChk e i == 0 && gateParam e i != 0))

/-! ### Pointer checks (08 R234) -/

/-- One byte as an access. -/
def byteAccess (l : Level) (a : Nat) : Access := { lvl := l, dev := none, ea := 0, a := a, n := 1, cd := false, group := false }

/-- The level reaches one byte at a device address for an access of a kind (08 R215 to R217, 09 R264). A byte of a register block is reached
where Table 8.1 lets the level access the register that holds it (R216). -/
def byteReach (s : State) (x : At) (l : Level) (k : Kind) (a : Nat) : Bool :=
  match translate s x.1 k l a with
  | .fault _ _ => false
  | .ok pa _ =>
    match regionOf pa with
    | .hbm => decide (pa < hbmCapacity s.top.part) && levelReach s x.1 x.2 k (byteAccess l pa)
    | .window w off => decide (off < lmBytes) && levelReach s x.1 x.2 k (byteAccess l pa) && (w != x.1 || ownReach s x.1 x.2 off 1)
    | .siteReg _ _ | .deviceReg _ =>
      k != .fetch && atLeast l (regLevel pa (k == .store)) && regFault s (pa / 8 * 8) 8 (k == .store) != 8
    | .hole => false

/-- The level reaches one byte at a local offset. -/
def localReach (s : State) (x : At) (l : Level) (o : Nat) : Bool :=
  decide (o < lmBytes) && !(isCcSite x.1 && l == .user) && ownReach s x.1 x.2 o 1

/-- A byte passes a pointer check that requires reading, writing, both, or neither, where any reach will do. -/
def pointerPass (s : State) (x : At) (param a : Nat) : Bool :=
  let l := lvlOf (thrAt x s)
  let rd := param.testBit 0
  let wr := param.testBit 1
  if param.testBit 2 then localReach s x l a
  else if !rd && !wr then byteReach s x l .load a || byteReach s x l .store a || byteReach s x l .fetch a
  else (!rd || byteReach s x l .load a) && (!wr || byteReach s x l .store a)

/-- Local offsets at which the reach of a thread can change. -/
def localEdges (s : State) (x : At) : List Nat :=
  let h := thrAt x s
  lmBytes :: h.reach.gbase.toNat * 128 :: h.reach.glimit.toNat * 128 ::
    (List.range 5).map (fun k => k * sliceSize x.1 (getCore s x.1) * 0x8000)

/-- Both ends of a window register. -/
def windowEdges (w : Word) : List Nat := [fld w 47 12 * 4096, fld w 47 12 * 4096 + 2 ^ fld w 55 50]

/-- Addresses from x on, below x + n, at which the answer of `pointerPass` can change: the edges of what R215 to R217 name, the registers
from x on (no block holds 32,768 of them in a row), or, under translation, page by page. -/
def pointerEdges (s : State) (x : At) (param a n : Nat) : List Nat :=
  let h := thrAt x s
  let l := lvlOf h
  if param.testBit 2 then localEdges s x
  else if translated s x.1 l then
    (List.range ((min (a + n) (2 ^ 48) - a) / 4096 + 2)).flatMap (fun i =>
      let p := (a / 4096 + i) * 4096
      p :: (localEdges s x).map (fun o => p + o % 4096) ++ (List.range 512).map (fun i => p + 8 * i))
  else if isRegAddr a then (List.range 0x8000).map (fun i => a / 8 * 8 + 8 * i)
  else
    let win := match regionOf a with
      | .window w _ => (localEdges s x).map (windowAddr w 0 + ·)
      | _ => []
    hbmCapacity s.top.part :: (windowEdges h.reach.mrange ++ (List.range 4).flatMap (fun i => windowEdges (mget h.reach.uwin i windowRegReset))
      ++ win)

/-- The least number of a list that a test finds. -/
def leastOf (l : List Nat) (f : Nat → Bool) : Option Nat :=
  l.foldl (fun (m : Option Nat) n => if f n then (match m with | some k => some (min k n) | none => some n) else m) none

/-- The first byte that fails a pointer check. -/
def pointerFails (s : State) (x : At) (param a n : Nat) : Option Nat :=
  if n = 0 then none
  else if 2 ^ 64 < a + n && pointerPass s x param a then leastOf (a :: pointerEdges s x param a n) (fun c => decide (a ≤ c) && !pointerPass s x param c)
  else leastOf (a :: pointerEdges s x param a n) (fun c => decide (a ≤ c) && decide (c < a + n) && !pointerPass s x param c)

/-- The check of argument i: the value for cs.eaddr where it fails. -/
def argFails (s : State) (x : At) (e : GateEntry) (i : Nat) : Option Word :=
  let v := grAt x s (Fin.ofNat 32 (24 + i))
  let p := gateParam e i
  match gateChk e i with
  | 1 => if v.toNat < p then none else some v
  | 2 => (pointerFails s x p v.toNat (grAt x s (Fin.ofNat 32 (25 + i))).toNat).map (BitVec.ofNat 64)
  | 3 => if v.toNat < 32 && p.testBit v.toNat then none else some v
  | _ => none

/-! ### GATE (08 R236) -/

/-- The call is made: an entry with EXL = 1 is a fault during entry (08 R238). -/
def gateEnter (x : At) (n : Nat) (addr : Word) (e : GateEntry) (s : State) : State :=
  let h := thrAt x s
  let tl := levelOf e.tlvl
  let ec := ecauseWord { mkCause 0x12 0 addr with tag := n } (lvlOf h)
  let epc := h.pc + 8
  stepDone x.1 x.2 (
    if h.status.df then lockUp x.1 0 h.exc.dcause s
    else if h.status.exl then doubleFault x.1 x.2 epc ec addr s
    else enterAt x.1 x.2 epc ec addr tl e.entry
      (if e.stk = 1 then (fun k => let k1 := swapStack tl k
        { k1 with status := { k1.status with gs := true } }) else id) s)

/-- The entry is at hand: its checks, the caller's, and those of the arguments. -/
def gateChecked (x : At) (n : Nat) (addr : Word) (d : BitVec 512) (s : State) : Except Trap Done :=
  let h := thrAt x s
  let l := lvlOf h
  let e := parseGate d
  if gateMalformed e l then faultSub 5 3 addr
  else if !e.val || !e.callers.testBit (levelCode l) then faultSub 5 4 addr
  else
    let args := (List.range e.argc).map (fun i => (Fin.ofNat 32 (24 + i) : Reg))
    let reads := keysOf h (if e.stk = 1 then args ++ [30] else args)
    keysReady h reads [] []
      (match (List.range e.argc).findSome? (fun i => (argFails s x e i).map (fun v => (i, v))) with
       | some f => faultSub 5 (0x10 + f.1) f.2
       | none => .ok ⟨gateEnter x n addr e, .own⟩)

/-- The entry is fetched: from the own local memory at once, else by a request that the thread waits for. -/
def gateFetchWord (x : At) (n a : Nat) (s : State) : Except Trap Done :=
  let addr := BitVec.ofNat 64 a
  let ask := fun (dst : Nat) => (Except.error (.stall .gateEntry (fun st =>
    let r := newReq st
    sendMem x.1 x.2 .machine (ownDev st) dst a r.1 (.fill false)
      (modThr x.1 x.2 (fun h => { h with gateFetch := some (r.1, a, none) }) r.2))) : Except Trap Done)
  match regionOf a with
  | .hbm => (match memSite s a with | some dst => ask dst | none => faultSub 5 2 addr)
  | .window w off =>
    if w = x.1 then
      (if off + 64 ≤ lmBytes && !touchesOtherSlice s x.1 x.2 off 64 && (lmFirstBad s x.1 off 64).isNone then
        gateChecked x n addr (BitVec.ofNat 512 (leNat (lmReadN s x.1 off 64))) s
      else if off + 64 ≤ lmBytes && !touchesOtherSlice s x.1 x.2 off 64 then
        .error (faultAfter x.1 x.2 5 2 addr (noteLm x.1 off 64))
      else faultSub 5 2 addr)
    else if bondAnswers s x.1 w then ask w else faultSub 5 2 addr
  | _ => faultSub 5 2 addr

/-- GATE: the steps of R236. -/
def gateWord (x : At) (n : Nat) (s : State) : Except Trap Done :=
  let h := thrAt x s
  let a := fld h.exc.gtab 47 6 * 64 + 64 * n
  if opsOf (getCore s x.1) x.2 ≠ 0 then .error .wait
  else if fld h.exc.gtab 63 52 ≤ n then faultSub 5 1 (BitVec.ofNat 64 n)
  else match h.gateFetch with
    | some (_, b, r) =>
      if b = a then
        (match r with
         | some d => gateChecked x n (BitVec.ofNat 64 a) d s
         | none => faultSub 5 2 (BitVec.ofNat 64 a))
      else gateFetchWord x n a s
    | none => gateFetchWord x n a s

def specGate (x : At) (n : Nat) : OpSpec := OpSpec.base 6 (gateWord x n)

/-! ### RETX (08 R237) -/

/-- The level and the address that RETX returns to. -/
def returnLevel (h : Thread) : Level := if h.status.df then levelOf (fld h.exc.dcause 23 22) else h.status.plvl
def returnPc (h : Thread) : Word := if h.status.df then h.exc.depc else h.exc.epc

/-- What a return restores. -/
def restoreState (h : Thread) : Thread :=
  let l := h.status.lvl
  let sl := returnLevel h
  goTo (returnPc h)
    (if h.status.df then
      (let k := swapDfstk h
       { k with status := { k.status with lvl := sl, df := false } })
    else
      (let k := if h.status.gs then swapStack l h else h
       { k with status := { k.status with lvl := sl, eie := k.status.peie, exl := false, gs := false } }))

/-- A cs.tpend entry, and its clearing. -/
def tpendOf (f : FpRegs) (n : Fin 2) : Word := if n = 0 then f.tpend0 else f.tpend1
def clearTpend (n : Fin 2) (f : FpRegs) : FpRegs := if n = 0 then { f with tpend0 := 0 } else { f with tpend1 := 0 }

/-- The operation of a valid entry. -/
def tpendOp (f : FpRegs) (n : Fin 2) : Option TileOp := if bit (tpendOf f n) 63 then parseTpend (tpendOf f n) else none

/-- The checks of a reissue. -/
def reissueCheck (x : At) (s : State) (op : TileOp) : Except Trap Unit := onMatrix x (opCheck (getCore s x.1) x.2 false op)

/-- The reissues that RETX would make exceed the limit of two outstanding operations (07 R204). -/
def reissueWaits (x : At) (s : State) : Nat → List TileOp → Bool
  | _, [] => false
  | n, op :: r => if 2 ≤ n then true else match reissueCheck x s op with
    | .error _ => false
    | .ok _ => reissueWaits x s (n + 1) r

/-- The operation of an entry is issued again, and the entry is cleared. -/
def reissueOne (x : At) (n : Fin 2) (op : TileOp) (s : State) : State :=
  modFp x.1 x.2 (clearTpend n) (modCore x.1 (enqueueOp x.2 op) s)

/-- The reissues that the limit of two outstanding operations leaves room for, made before RETX waits for the next (07 R204). -/
def reissueFirst (x : At) : List (Fin 2) → State → State
  | [], s => s
  | n :: r, s =>
    match tpendOp (thrAt x s).fp n with
    | none => reissueFirst x r s
    | some op => if 2 ≤ opsOf (getCore s x.1) x.2 then s else reissueFirst x r (reissueOne x n op s)

/-- The valid entries are reissued in order at the level returned to. The first that fails is taken there, with cs.epc unchanged, and it and
any later entry stay valid. -/
def reissue (x : At) : List (Fin 2) → State → State
  | [], s => s
  | n :: r, s =>
    match tpendOp (thrAt x s).fp n with
    | none => reissue x r s
    | some op =>
      match reissueCheck x s op with
      | .error (.fault code sub ea tag) =>
        takeException x.1 x.2 { mkCause code sub ea with tag := tag } (thrAt x s).pc s
      | .error _ => s
      | .ok _ => reissue x r (reissueOne x n op s)

def retxWord (x : At) (s : State) : Except Trap Done :=
  let h := thrAt x s
  let l := lvlOf h
  let sl := returnLevel h
  let own := fun (c : Cause) => (Except.error (.enter (takeAtLevel x.1 x.2 c l h.pc)) : Except Trap Done)
  if l = .user then faultSub 2 2 0
  else if levelCode l < levelCode sl then own (mkCause 2 1 0)
  else if !reachable s x.1 sl (returnPc h) then own (mkCause 7 0 (returnPc h))
  else if reissueWaits x s (opsOf (getCore s x.1) x.2) ([0, 1].filterMap (tpendOp h.fp)) then .error (.partly (reissueFirst x [0, 1]))
  else keysReady h (if h.status.gs || h.status.df then keysOf h [30] else []) [] []
    (.ok ⟨fun st => stepDone x.1 x.2 (reissue x [0, 1] (traceRec x.1 3 x.2 (levelCode sl) (modThr x.1 x.2 restoreState st))), .own⟩)

def specRetx (x : At) : OpSpec := OpSpec.base 6 (retxWord x)

/-! ### The rows -/

def execGate (c : Ctx) (n : BitVec 12) (s : State) : Host.Outcome State Fault Refusal := runWord c (.gate c n) (specGate (atOf c) n.toNat) s
def execRetx (c : Ctx) (s : State) : Host.Outcome State Fault Refusal := runWord c (.retx c) (specRetx (atOf c)) s

end Sys2Proof.Machine
end

