-- ==== Sys2Proof/Machine/SysOps.lean ====
section
/-! DEFINITION. The SYS words that send, synchronise, post and wait (04 Table 4.17): messages (14), locks (05 R143 to R145), barriers and
watches (15), hod posts (13 R346, R347), WAIT (05 R128, R595) and BRK. -/

namespace Sys2Proof.Machine

open Sys2Proof

/-! ### Messages (14 R367 to R375) -/

/-- MSGW. -/
def specMsgw (x : At) (a : Reg) (off : Nat) : OpSpec :=
  { OpSpec.base 6 (fun s => done (modComm x.1 x.2 (fun k => { k with sendBuf := mset k.sendBuf (off / 8) (grAt x s a) }))) with
    legal := decide (off < 256) && off % 8 == 0, useG := [a] }

/-- The first 16 (len + 1) bytes of the send buffer. -/
def messageBytes (h : Thread) (len : Nat) : List Byte :=
  (List.range (2 * (len + 1))).flatMap (fun i => bytesOf (mget h.comm.sendBuf i 0) 8)

/-- The checks of a destination at a level (14 R369, 17 R439): a doorbell of a site that has a CHN_ sub-block, a target in service on
the own device, and a group reach that holds another device. -/
def checkBell (s : State) (l : Level) (dst : Word) : Except Trap Unit :=
  let dev := fld dst 56 48
  if fld dst 63 57 ≠ 0 then fault 8 dst
  else match doorbellOf (fld dst 47 0) with
    | none => fault 8 dst
    | some (site, _) =>
      if !hasThreads site then fault 8 dst
      else if dev = ownDev s then (if coreInService s site then .ok () else fault 6 dst)
      else guardFault (groupReach s l dev) 0xA dst (.ok ())

/-- A non-blocking send: pd ← 0, and a send that finds no reservation is NACKed at once (14 R372, R374). -/
def sendNow (x : At) (pd : PReg) (dst : Word) (data : List Byte) (s : State) : State :=
  let r := sendAttempt x.1 x.2 dst data pd false (setP x pd false s)
  if r.1 then r.2 else modThr x.1 x.2 (fun h => setNackField 6 (writeP pd true h)) (countPerf x.1 0xF x.2 1 r.2)

/-- A blocking send: the thread waits in the channel stall from its first attempt (14 R375). -/
def sendBlocking (x : At) (pd : PReg) (dst : Word) (data : List Byte) (s : State) : State :=
  blockingAttempt x.1 x.2 ⟨pd, dst, data, 0, none, none⟩ (stallThread x.1 x.2 .send s)

/-- MSGSEND: a fifth send waits for room. -/
def sendWord (x : At) (blocking : Bool) (pd : PReg) (a : Reg) (len : Nat) (s : State) : Except Trap Done :=
  let h := thrAt x s
  let dst := grAt x s a
  match checkBell s (lvlOf h) dst with
  | .error e => .error e
  | .ok _ =>
    if 4 ≤ h.comm.sends.length then stallFor .send
    else if blocking then .ok ⟨sendBlocking x pd dst (messageBytes h len), .own⟩
    else done (sendNow x pd dst (messageBytes h len))

def specSend (x : At) (blocking : Bool) (pd : PReg) (a : Reg) (len : Nat) : OpSpec :=
  { OpSpec.base 6 (sendWord x blocking pd a len) with useG := [a], setP := [pd] }

/-! ### Locks (05 R143 to R145, 19 Table 19.10) -/

/-- Cluster and number of the lock that a word names; a unit that the core cannot reach is absent. -/
def checkLock (x : At) (s : State) (a : Word) : Except Trap (Nat × Nat) :=
  match lockOf a.toNat with
  | none => fault 8 a
  | some (c, n) => if unitGone s x.1 c then fault 6 a else .ok (c, n)

def lockWordOp (x : At) (pd : PReg) (a : Word) (s : State) : Except Trap Done :=
  match checkLock x s a with
  | .error e => .error e
  | .ok (c, n) => .ok ⟨sendLockReq x.1 x.2 c n, .hold (.lock a.toNat pd)⟩

def specLock (x : At) (pd : PReg) (a : Reg) : OpSpec :=
  { OpSpec.base 6 (fun s => lockWordOp x pd (grAt x s a) s) with useG := [a], setP := [pd] }

/-- UNLOCK is posted: the lock leaves the held-lock record (15 R401). -/
def postUnlock (x : At) (a c n : Nat) (s : State) : State :=
  sendSync x.1 (anchorOf c) a (lvlOf (thrAt x s)) (.unlock n (thidOf s x.1 x.2) x.2)
    (modComm x.1 x.2 (fun k => { k with held := k.held.filter (· != a) }) s)

def unlockWord (x : At) (a : Word) (s : State) : Except Trap Done :=
  match checkLock x s a with
  | .error e => .error e
  | .ok (c, n) => fenceWord s x.1 x.2 .st (done (postUnlock x a.toNat c n))

def specUnlock (x : At) (a : Reg) : OpSpec := { OpSpec.base 6 (fun s => unlockWord x (grAt x s a) s) with useG := [a] }

/-! ### Barriers (15 R385, R386, R392) -/

/-- A barrier word of the own cluster. -/
def checkBar (x : At) (a : Word) : Except Trap Nat :=
  match barOf a.toNat with
  | some (c, b) => if c = clusterOf x.1 then .ok b else fault 8 a
  | none => fault 8 a

/-- An arrival leaves for the own cluster's unit. -/
def sendArrival (x : At) (b : Nat) (v : Word) (wait : Bool) (s : State) : State :=
  sendSync x.1 (anchorOf (clusterOf x.1)) (barAddr (clusterOf x.1) b) (lvlOf (thrAt x s))
    (.arrive b (BitVec.ofNat 16 (fld v 15 0)) (bit v 16) wait x.2) s

/-- A BAR at a unit that is gone completes at once with ABSENT; its GEN is not stated: a free value. -/
def absentBar (x : At) (d : Reg) (s : State) : State :=
  let g := drawFree 16 s
  traceRec x.1 4 x.2 (1 + g.1.toNat * 65536) (setGr x d (barResult 6 g.1) g.2)

def barWordOp (x : At) (d : Reg) (a v : Word) (s : State) : Except Trap Done :=
  match checkBar x a with
  | .error e => .error e
  | .ok b => fenceWord s x.1 x.2 .st
      (if unitGone s x.1 (clusterOf x.1) then done (absentBar x d)
       else .ok ⟨sendArrival x b v true, .hold (.barrier (clusterOf x.1) b (keyOrZero x s d))⟩)

def specBar (x : At) (d a b : Reg) : OpSpec :=
  { OpSpec.base 6 (fun s => barWordOp x d (grAt x s a) (grAt x s b) s) with useG := [a, b], setG := [d] }

/-- BARA: its arrival is pending until its release; a fifth waits (15 R386). -/
def baraWordOp (x : At) (a v : Word) (s : State) : Except Trap Done :=
  match checkBar x a with
  | .error e => .error e
  | .ok b => fenceWord s x.1 x.2 .st
      (if unitGone s x.1 (clusterOf x.1) then done id
       else if 4 ≤ (thrAt x s).comm.bara.length then stallFor .baraRoom
       else done (fun st => sendArrival x b v false
         (modComm x.1 x.2 (fun k => { k with bara := k.bara ++ [(clusterOf x.1, b)] }) st)))

def specBara (x : At) (a b : Reg) : OpSpec :=
  { OpSpec.base 6 (fun s => baraWordOp x (grAt x s a) (grAt x s b) s) with useG := [a, b] }

/-! ### Watches (15 R395, R397) -/

/-- The word that a watch may name, with the cluster whose unit serves it; user windows are checked for WATCH alone. -/
def watchTarget (a : Nat) : Option Nat :=
  if a % 8 ≠ 0 then none
  else match lockOf a, barOf a with
    | some (c, _), _ => some c
    | none, some (c, _) => some c
    | none, none => match regionOf a with
      | .window w off => if hasThreads w && off < lmBytes then some (clusterOf w) else none
      | _ => none

def isWindow (a : Nat) : Bool :=
  match regionOf a with
  | .window _ _ => true
  | _ => false

/-- A watch is sent to its unit under a handle; one whose unit is gone has its message at once. -/
def postWatch (x : At) (d : Reg) (k c : Nat) (a cond : Word) (s : State) : State :=
  let s1 := setGr x d (BitVec.ofNat 64 k) s
  if unitGone s x.1 c then fillSlotMsg x.1 x.2 k 6 0 s1
  else sendSync x.1 (anchorOf c) a.toNat (lvlOf (thrAt x s)) (.watchReg k a.toNat cond x.2)
    (modComm x.1 x.2 (fun m => { m with watches := mset m.watches k (.registered a) }) s1)

def watchWord (x : At) (d : Reg) (a cond : Word) (s : State) : Except Trap Done :=
  let h := thrAt x s
  match watchTarget a.toNat with
  | none => fault 8 a
  | some c =>
    if lvlOf h = .user && isWindow a.toNat && !uwinGrants h a.toNat 8 63 then fault 0xA a
    else match firstBit 8 (fun k => mget h.comm.watches k .free == .free) with
      | none => done (setGr x d (BitVec.allOnes 64))
      | some k => done (postWatch x d k c a cond)

def specWatch (x : At) (d a b : Reg) : OpSpec :=
  { OpSpec.base 6 (fun s => watchWord x d (grAt x s a) (grAt x s b) s) with useG := [a, b], setG := [d] }

def unwatchWord (x : At) (a : Word) : Except Trap Done :=
  match watchTarget a.toNat with
  | none => fault 8 a
  | some c =>
    done (fun st => if unitGone st x.1 c then st
      else sendSync x.1 (anchorOf c) a.toNat (lvlOf (thrAt x st)) (.unwatch a.toNat x.2) st)

def specUnwatch (x : At) (a : Reg) : OpSpec := { OpSpec.base 6 (fun s => unwatchWord x (grAt x s a)) with useG := [a] }

/-! ### SYNCCHK (15 R400, Table 15.15) -/

/-- Slots of the delivery point in use. -/
def watchesUsed (k : ThreadComm) : Nat := ((List.range 8).filter (fun n => mget k.watches n .free != .free)).length

def syncResult (k : ThreadComm) : Word :=
  bitAt 63 k.lovf ||| mk 52 48 k.held.length ||| mk 43 40 (watchesUsed k) ||| mk 34 32 k.bara.length

def syncchkWord (x : At) (d : Reg) (s : State) : Except Trap Done :=
  if syncPending s x.1 x.2 then stallFor (.fence .sync) else done (setGr x d (syncResult (thrAt x s).comm))

def specSyncchk (x : At) (d : Reg) : OpSpec := { OpSpec.base 6 (syncchkWord x d) with setG := [d] }

/-! ### Hod posts (13 R346, R347; 09 R242) -/

/-- A post or a return of credits that the ring does not take. -/
def ringRefuses (x : At) : State → State := modRing x.1 x.2 (fun r => { r with perr := true })

/-- HODPOST on a core. -/
def hodpostRing (x : At) (a : Word) (s : State) : Except Trap Done :=
  let r := getRing s x.1 x.2
  let n := fld a 15 0
  let limit := fld a 47 32
  fenceWord s x.1 x.2 .st
    (if r.ctl.gate ≠ .on || 2 ^ r.rlog < n then done (ringRefuses x)
     else if r.out + n ≤ 2 ^ r.rlog && (limit = 0xFFFF || r.out ≤ limit) then
       done (modRing x.1 x.2 (fun r => { r with out := r.out + n }))
     else .ok ⟨id, .hold (.hodSpace false n limit)⟩)

def specHodpost (x : At) (a : Reg) : OpSpec :=
  { OpSpec.base 6 (fun s => onMatrix x (hodpostRing x (grAt x s a) s)) with useG := [a] }

/-- HODCRED on a core. -/
def hodcredRing (x : At) (a : Word) (s : State) : Except Trap Done :=
  let r := getRing s x.1 x.2
  let n := fld a 15 0
  if r.ctl.gate ≠ .on then done (ringRefuses x)
  else if r.cred + n ≤ 65535 then done (modRing x.1 x.2 (fun r => { r with cred := r.cred + n }))
  else .ok ⟨id, .hold (.hodSpace true n 0)⟩

def specHodcred (x : At) (a : Reg) : OpSpec :=
  { OpSpec.base 6 (fun s => onMatrix x (hodcredRing x (grAt x s a) s)) with useG := [a] }

/-! ### WAIT (05 R128, R595; 08 R230) -/

/-- A parked thread with START set enters code 0x11 at the machine level, with cs.epc = 0, and becomes ready (08 R230). -/
def startThread (site : Nat) (t : Fin 4) (s : State) : State :=
  let h := getThr s site t
  if h.run == .parked && !h.halted && h.exc.event.getLsbD 0 && (getCore s site).power == .on then
    let s1 := takeAtLevel site t (mkCause 0x11 0 0) .machine 0 s
    if (getCore s1 site).power == .on then wakeThread site t s1 else s1
  else s

/-- The thread parks; a START that is already set restarts it at once. -/
def parkThread (x : At) (s : State) : State :=
  stepDone x.1 x.2 (startThread x.1 x.2 (giveUpSlot x.1 x.2 .parked 0xD (setPc x.1 x.2 ((thrAt x s).pc + 8) s)))

/-- WAIT with mask 0 gives the slot to another ready thread, if there is one. -/
def yieldSlot (x : At) (s : State) : State :=
  let c := getCore s x.1
  if threadsOf.any (fun u => u != x.2 && canTake c u) then giveUpSlot x.1 x.2 .ready 1 s else s

def waitWord (x : At) (a : Word) (s : State) : Except Trap Done :=
  let h := thrAt x s
  let m := a.setWidth 32
  if bit a 63 then (if lvlOf h = .machine then .ok ⟨parkThread x, .own⟩ else faultSub 2 2 0)
  else if m = 0 then .ok ⟨fun st => stepDone x.1 x.2 (yieldSlot x (setPc x.1 x.2 (h.pc + 8) st)), .own⟩
  else if h.exc.event &&& m ≠ 0 then done id
  else .ok ⟨id, .hold (.event m)⟩

def specWait (x : At) (a : Reg) : OpSpec := { OpSpec.base 6 (fun s => waitWord x (grAt x s a) s) with useG := [a] }

/-! ### BRK -/

def specBrk (tag : Nat) : OpSpec := OpSpec.base 6 (fun _ => .error (.fault 0x0D 0 0 tag))

/-! ### The rows -/

def execMsgw (c : Ctx) (a : Reg) (off : BitVec 24) (s : State) : Host.Outcome State Fault Refusal :=
  runWord c (.msgw c a off) (specMsgw (atOf c) a off.toNat) s
def execMsgsendNonblocking (c : Ctx) (pd : PReg) (a : Reg) (len : Fin 16) (s : State) : Host.Outcome State Fault Refusal :=
  runWord c (.msgsendNonblocking c pd a len) (specSend (atOf c) false pd a len.val) s
def execMsgsendBlocking (c : Ctx) (pd : PReg) (a : Reg) (len : Fin 16) (s : State) : Host.Outcome State Fault Refusal :=
  runWord c (.msgsendBlocking c pd a len) (specSend (atOf c) true pd a len.val) s
def execLock (c : Ctx) (pd : PReg) (a : Reg) (s : State) : Host.Outcome State Fault Refusal := runWord c (.lock c pd a) (specLock (atOf c) pd a) s
def execUnlock (c : Ctx) (a : Reg) (s : State) : Host.Outcome State Fault Refusal := runWord c (.unlock c a) (specUnlock (atOf c) a) s
def execBar (c : Ctx) (d a b : Reg) (s : State) : Host.Outcome State Fault Refusal := runWord c (.bar c d a b) (specBar (atOf c) d a b) s
def execBara (c : Ctx) (a b : Reg) (s : State) : Host.Outcome State Fault Refusal := runWord c (.bara c a b) (specBara (atOf c) a b) s
def execWatch (c : Ctx) (d a b : Reg) (s : State) : Host.Outcome State Fault Refusal := runWord c (.watch c d a b) (specWatch (atOf c) d a b) s
def execUnwatch (c : Ctx) (a : Reg) (s : State) : Host.Outcome State Fault Refusal := runWord c (.unwatch c a) (specUnwatch (atOf c) a) s
def execSyncchk (c : Ctx) (d : Reg) (s : State) : Host.Outcome State Fault Refusal := runWord c (.syncchk c d) (specSyncchk (atOf c) d) s
def execHodpost (c : Ctx) (a : Reg) (s : State) : Host.Outcome State Fault Refusal := runWord c (.hodpost c a) (specHodpost (atOf c) a) s
def execHodcred (c : Ctx) (a : Reg) (s : State) : Host.Outcome State Fault Refusal := runWord c (.hodcred c a) (specHodcred (atOf c) a) s
def execWait (c : Ctx) (a : Reg) (s : State) : Host.Outcome State Fault Refusal := runWord c (.wait c a) (specWait (atOf c) a) s

/-- The WAIT that parks: the same word, with a[63] = 1. -/
def execWaitPark (c : Ctx) (a : Reg) (s : State) : Host.Outcome State Fault Refusal := runWord c (.wait c a) (specWait (atOf c) a) s

def execBrk (c : Ctx) (tag : BitVec 24) (s : State) : Host.Outcome State Fault Refusal := runWord c (.brk c tag) (specBrk tag.toNat) s

end Sys2Proof.Machine
end

