-- ==== Sys2Proof/Machine/CoreEvents.lean ====
section
/-! DEFINITION. What happens to a core beside its words: asynchronous causes at a word boundary (08 R221, R227, R228, R230; 05 R152),
answers to what its threads have outstanding (03 R94; 05 R129; 12 R331; 19 R500), and accesses that reach its local memory or a
register block (05 R137; 08 R226; 10 R274). -/

namespace Sys2Proof.Machine

open Sys2Proof

/-! ### Asynchronous causes -/

/-- The thread stands at a word boundary with the slot, and no halt is due. -/
def atBoundary (s : State) (site : Nat) (t : Fin 4) : Bool :=
  canIssue s site t && !((getCore s site).dbg.pendHalt.getLsbD t.val && mayHalt s (getThr s site t))

/-- A pending imprecise fault is taken (08 R221, R228). -/
def impreciseTaken (site : Nat) (t : Fin 4) (s : State) : State :=
  let h := getThr s site t
  if atBoundary s site t && acceptsAsync h then
    match h.imprecise with
    | some i => stepDone site t (takeImprecise site t i s)
    | none => s
  else s

def execImpreciseFaultTaken (site : Site) (thr : Fin 4) (s : State) : Host.Outcome State Fault Refusal :=
  if hasThread site thr then .next (impreciseTaken site thr s) else .fault .noAgent

/-- The lowest deliverable event is taken, after an imprecise fault (08 R227, R228). -/
def eventTaken (site : Nat) (t : Fin 4) (s : State) : State :=
  let h := getThr s site t
  if atBoundary s site t && h.imprecise.isNone then
    match deliverableBit h with
    | some b => stepDone site t (takeEvent site t b s)
    | none => s
  else s

def execEventInterrupt (site : Site) (thr : Fin 4) (s : State) : Host.Outcome State Fault Refusal :=
  if hasThread site thr then .next (eventTaken site thr s) else .fault .noAgent

def execThreadStart (site : Site) (thr : Fin 4) (s : State) : Host.Outcome State Fault Refusal :=
  if hasThread site thr then .next (startThread site thr s) else .fault .noAgent

/-- Long-stall code of a thread's wait, 0 where it has none. -/
def stallOf (h : Thread) : Nat :=
  match h.run with
  | .stalled w => waitCode w
  | _ => 0

/-- The idle-deadlock delay of a core has passed. -/
def idleDue (s : State) (site : Nat) : Bool :=
  let c := getCore s site
  c.idleEn && idleStuck s site &&
  match c.idleSince with
  | some p => decide (p + c.idleDelay.toNat * 64 ≤ (paceOf s site).toNat)
  | none => false

/-- The idle-deadlock exception on thread 0 (05 R152): its wait is abandoned, and detection starts again. -/
def idleDeadlock (site : Nat) (s : State) : State :=
  let h := getThr s site 0
  if idleDue s site && acceptsAsync h then
    let s1 := modThr site 0 (fun k => { k with comm := { k.comm with blocking := none } }) (modCore site (fun c => { c with idleSince := none }) s)
    let s2 := takeException site 0 { mkCause 0x10 0 0 with stall := stallOf h } h.pc s1
    if (getCore s2 site).power = .on then wakeThread site 0 s2 else s2
  else s

def execIdleDeadlock (site : Site) (s : State) : Host.Outcome State Fault Refusal :=
  if isCoreSite site then .next (idleDeadlock site s) else .fault .noAgent

/-! ### Answers (05 R129, 09 R263) -/

/-- Threads of a site that wait for an instruction line. -/
def fetchWaiters (s : State) (site : Nat) : List (Fin 4) :=
  threadsOf.filter (fun t => match (getThr s site t).run with | .stalled (.fetch _) => true | _ => false)

/-- A waiting thread whose word the fill answers: at hand, or with the code that its fetch draws (08 R222). -/
def markFetched (site line : Nat) (d : BitVec 512) (code : Word → Nat) (t : Fin 4) (s : State) : State :=
  match (getThr s site t).run with
  | .stalled (.fetch l) =>
    if l = line then modThr site t (fun h => { h with fetched := some (h.pc, code h.pc, wordIn d h.pc.toNat) }) s else s
  | _ => s

/-- A fetch miss ends: the line is kept unless it was invalidated, holds bad data, or finds every way locked; the fill satisfies the
words that wait for it in any case (09 R259, R261; 08 R222). -/
def endFetchMiss (site : Nat) (m : Miss) (res : MemResult) (s : State) : State :=
  match res, m.kind with
  | .line v bad, .side => sideFill site kIcache m v bad s
  | .line v bad, .demand _ =>
    let held := heldForFetch s site m.line
    let bad1 := if held.isSome then 0 else bad
    let kept := if m.killed || bad1 ≠ 0 then none else installFetch site m.line (withStores m (held.getD v)) s
    (match kept with
     | some s1 => s1
     | none => (fetchWaiters s site).foldl (fun st t =>
         markFetched site m.line (withStores m (held.getD v)) (fun pc => if bad1 &&& byteMask (pc.toNat % 64) 8 ≠ 0 then 0x0E else 0) t st) s)
  | .fault code _, _ => (fetchWaiters s site).foldl (fun st t => markFetched site m.line 0 (fun _ => code) t st) s
  | _, _ => s

/-- An instruction fill reaches its core: its miss ends, and every thread that waits for a line issues its word again. -/
def fetchReply (site req : Nat) (res : MemResult) (s : State) : State :=
  let s1 := (missesOf s site kIcache req).foldl (fun st m => endFetchMiss site m res st) (dropMisses site kIcache req s)
  (fetchWaiters s1 site).foldl (fun st t => wakeThread site t st) s1

/-- The fetch of a gate entry that a thread waits for under a request. -/
def gateWaiter (s : State) (site req : Nat) : Option (Fin 4) :=
  threadsOf.find? (fun t => match (getThr s site t).gateFetch with | some (r, _, none) => r == req | _ => false)

/-- A gate entry arrives, or fails to (08 R236). -/
def gateReply (site : Nat) (t : Fin 4) (res : MemResult) (s : State) : State :=
  let d := match res with
    | .line v bad => if bad = 0 then some v else none
    | _ => none
  let s1 := modThr site t (fun h => { h with gateFetch := h.gateFetch.map (fun g => (g.1, g.2.1, d)) }) s
  match (getThr s site t).run with
  | .stalled .gateEntry => wakeThread site t s1
  | _ => s1

/-- The outstanding load of a request, with its thread. -/
def loadOf (s : State) (site req : Nat) : Option (Fin 4 × Outstanding) :=
  threadsOf.findSome? (fun t => ((getThr s site t).loads.find? (fun o => o.req == req)).map (fun o => (t, o)))

/-- Some thread waits for the acknowledgement of a request. -/
def isStoreReq (s : State) (site req : Nat) : Bool :=
  threadsOf.any (fun t => (getThr s site t).stores.any (fun o => o.req == req))
def isFetchReq (s : State) (site req : Nat) : Bool := !(missesOf s site kIcache req).isEmpty

/-- A result reaches the load, the data fill or the gate call that awaits it; a reply that nothing awaits is discarded (19 R500). -/
def endResult (site req : Nat) (res : MemResult) (s : State) : State :=
  match loadOf s site req with
  | some (t, o) => endLoad site t o res s
  | none =>
    match gateWaiter s site req with
    | some t => gateReply site t res s
    | none => fillReply site req res s

/-- A request that thread t issued ends. -/
def endRequest (site : Nat) (t : Fin 4) (req : Nat) (res : MemResult) (s : State) : State :=
  if isStoreReq s site req then endStore site t req res s
  else if isFetchReq s site req then fetchReply site req res s else endResult site req res s

def remoteResult (n : Nat) (s : State) : State :=
  match arrived s n with
  | some p => match p.body with
    | .memReply req _ res =>
      if isStoreReq s p.dsite req || isFetchReq s p.dsite req then s else endResult p.dsite req res (acceptReply p s)
    | _ => s
  | none => s

def execRemoteResultReturn (pkt : Nat) (s : State) : Host.Outcome State Fault Refusal := .next (remoteResult pkt s)

def storeAck (n : Nat) (s : State) : State :=
  match arrived s n with
  | some p => match p.body with
    | .memReply req t res => if isStoreReq s p.dsite req then endStore p.dsite t req res (acceptReply p s) else s
    | _ => s
  | none => s

def execStoreAck (pkt : Nat) (s : State) : Host.Outcome State Fault Refusal := .next (storeAck pkt s)

def icacheFill (n : Nat) (s : State) : State :=
  match arrived s n with
  | some p => match p.body with
    | .memReply req _ res => if isFetchReq s p.dsite req then fetchReply p.dsite req res (acceptReply p s) else s
    | _ => s
  | none => s

def execIcacheLineFill (pkt : Nat) (s : State) : Host.Outcome State Fault Refusal := .next (icacheFill pkt s)

/-! ### UNREACHABLE and timeouts (12 R331, 17 R443, 19 R500) -/

/-- The stream of a message that did not arrive starts again, and the message is NACKed. -/
def sendLost (site : Nat) (t : Fin 4) (seq : Nat) (s : State) : State :=
  match findSend s site t seq with
  | none => s
  | some m =>
    let s1 := match doorbellOf (fld m.dst 47 0) with
      | some (peer, _) => restartStream site t (fld m.dst 56 48) peer s
      | none => s
    sendNacked site t seq 7 s1

/-- The stream of a hod ring to a site starts again. -/
def restartHodStream (site : Nat) (t : Fin 4) (dev dst : Nat) (s : State) : State :=
  inject { mkPacket s 0 .machine site dst 0 (.streamReset site) with ddev := dev, strm := t.val }
    (modRing site t (fun r => { r with streams := r.streams.filter (fun e => e.1 != dev * 2048 + dst) }) s)

/-- A request of a hod that did not arrive: its stream starts again, and the descriptor reports it. A bond link carries no stream. -/
def hodLost (site : Nat) (t : Fin 4) (tag : Nat) (s : State) : State :=
  match descOfTag (getRing s site t) tag with
  | none => s
  | some (d, pos) =>
    let f := parseHod d.bytes
    let dst := if f.kind = 3 then some (nodeSite f.raddr) else pieceSite s f (pos / f.len) (pos % f.len)
    let dev := if f.kind = 3 then ownDev s else hodDev f
    let s1 := match dst with
      | some x => if dev = ownDev s && bonded s site x then s else restartHodStream site t dev x s
      | none => s
    hodUnreachable site t tag s1

/-- The descriptor of a gather-reduce request. -/
def gruLost (site : Nat) (t : Fin 4) (tag : Nat) (s : State) : State :=
  match descOfTag (getRing s site t) tag with
  | some (d, _) => hodUnreachable site t tag (restartHodStream site t (ownDev s) (nodeSite (parseHod d.bytes).raddr) s)
  | none => s

/-- UNREACHABLE reaches the requester. -/
def unreachable (n : Nat) (s : State) : State :=
  match arrived s n with
  | some p => match p.body with
    | .unreachable (.memReq req t _) => endRequest p.dsite t req (.fault 6 p.addr) (acceptReply p s)
    | .unreachable (.hodRead ring tag _) => hodLost p.dsite ring tag (acceptReply p s)
    | .unreachable (.hodWrite ring tag _) => hodLost p.dsite ring tag (acceptReply p s)
    | .unreachable (.gruReq ring tag _ _ _) => gruLost p.dsite ring tag (acceptReply p s)
    | .unreachable (.chanReq _ seq t _ _ _) => sendLost p.dsite t seq (acceptReply p s)
    | .unreachable (.chanReply _ _ seq t _ _) => sendLost p.dsite t seq (acceptReply p s)
    | .unreachable _ =>
      -- at a collective engine it ends the collective (17 R451)
      (match engineOf p.dsite with
       | some t => collStop t 2 (acceptReply p s)
       | none => acceptReply p s)
    | _ => s
  | none => s

def execUnreachableReply (pkt : Nat) (s : State) : Host.Outcome State Fault Refusal := .next (unreachable pkt s)

/-- A request has drawn no reply for MGT_RSPTMO.TMO pace counts. -/
def timedOut (r : Requester) (s : State) : State :=
  match r with
  | .thread site t req => endRequest site t req (.fault 6 0) s
  | .hod site ring tag => hodLost site ring tag s
  | .send site thr seq => sendLost site thr seq s

def execResponseTimeout (r : Requester) (s : State) : Host.Outcome State Fault Refusal := .next (timedOut r s)

/-! ### Accesses that arrive (05 R137, 10 R272 to R276) -/

/-- A request on a local memory window: the own core reaches all of it, others the shared region. -/
def windowAnswer (p : Packet) (w off : Nat) (s : State) : Option (Body × State) :=
  let own := p.sdev = ownDev s && p.ssite = w
  let code := fun (n : Nat) => if own then (if lmBytes < off + n then 8 else 0) else windowRefusal s w off n
  match p.body with
  | .memReq req t op =>
    let r := if code (memOpBytes op) ≠ 0 then (MemResult.fault (code (memOpBytes op)) p.addr, s) else serveLm w off p.addr op s
    some (.memReply req t r.1, r.2)
  | .hodRead ring tag n =>
    let c := code n
    some (.hodData ring tag (if c ≠ 0 then .fault c p.addr
      else .bytes (lmReadN s w off n) (badBytes p.addr n (fun a => lmBadAt (getCore s w) ((off + (a - p.addr)) / 8)))),
      if c ≠ 0 then s else noteLm w off n s)
  | .hodWrite ring tag d =>
    let c := code d.length
    if c ≠ 0 then some (.hodAck ring tag (.fault c p.addr), s)
    else some (.hodAck ring tag (match lmFirstLost s w off d.length with
      | some o => .fault 0x0E (p.addr + (o - off))
      | none => .done), lmWriteN w off d s)
  | _ => none

/-- A request on a register block; none while it is held (23 R571). -/
def registerAnswer (p : Packet) (s : State) : Option (Body × State) :=
  let who := if p.sdev = ownDev s then some p.ssite else none
  if unitLost s p.addr then some (.unreachable p.body, s)
  else match p.body with
  | .memReq req t (.load n) =>
    (match regAccess who p.lvl p.addr n none s with
     | .ok v s1 => some (.memReply req t (.data v), s1)
     | .held => none
     | .fault code => some (.memReply req t (.fault code p.addr), s))
  | .memReq req t (.store d) =>
    (match regAccess who p.lvl p.addr d.length (some (BitVec.ofNat 64 (leNat d))) s with
     | .ok _ s1 => some (.memReply req t .done, s1)
     | .held => none
     | .fault code => some (.memReply req t (.fault code p.addr), s))
  | .hodRead ring tag n =>
    (match regAccess who p.lvl p.addr n none s with
     | .ok v s1 => some (.hodData ring tag (.bytes (leBytes n v.toNat) []), s1)
     | .held => none
     | .fault code => some (.hodData ring tag (.fault code p.addr), s))
  | .hodWrite ring tag d =>
    (match regAccess who p.lvl p.addr d.length (some (BitVec.ofNat 64 (leNat d))) s with
     | .ok _ s1 => some (.hodAck ring tag .done, s1)
     | .held => none
     | .fault code => some (.hodAck ring tag (.fault code p.addr), s))
  | b => (refusedBody 8 p.addr b).map (fun r => (r, s))

/-- The packet is answered, unless what it did has emptied the mesh. -/
def answer (p : Packet) (r : Body × State) : State :=
  if (findPacket r.2 p.id).isSome then sendReply p r.1 (dropPacket p.id r.2) else r.2

/-- An access reaches a local memory window, where error detection finds `flaws` at words that it touches (assumption log 86), a
register block, or an event message its thread. -/
def accessArrives (n : Nat) (flaws : List (Nat × Bool)) (s : State) : State :=
  match arrived s n with
  | some p =>
    (match p.body with
     | .eventSet t bits =>
       let s1 := dropPacket n s
       if coreRuns s p.dsite then setEvents p.dsite t p.lvl bits s1 else s1
     | b =>
       (match regionOf p.addr with
        | .hbm => s
        | .window w off =>
          (match windowAnswer p w off (if windowServed s w then applyLmFlaws w (flawsWithin 8 off b flaws) s else s) with | some r => answer p r | none => s)
        | .siteReg _ _ | .deviceReg _ => (match registerAnswer p s with | some r => answer p r | none => s)
        | .hole => (match refusedBody 8 p.addr b with | some r => answer p (r, s) | none => s)))
  | none => s

def execMeshAccessArrival (arr : Arrival) (s : State) : Host.Outcome State Fault Refusal :=
  .next (afterSettle (accessArrives arr.pkt arr.flaws s))
where
  /-- Accesses of the debugger that an accumulator held back are tried again. -/
  afterSettle (s : State) : State := settleHeld s

/-- CORE_EVSETt (08 R226). -/
def coreEvset (site : Nat) (t : Fin 4) (lvl : Level) (bits : BitVec 32) (s : State) : State :=
  if coreRuns s site then setEvents site t lvl bits s else s

def execCoreEvsetStore (site : Site) (thr : Fin 4) (lvl : Level) (bits : BitVec 32) (s : State) : Host.Outcome State Fault Refusal :=
  if hasThread site thr then .next (coreEvset site thr lvl bits s) else .fault .noAgent

end Sys2Proof.Machine
end

