-- ==== Sys2Proof/Machine/Ctl.lean ====
section
/-! DEFINITION. The CTL words (03 R71 to R75, R99 to R102; 04 Table 4.15). -/

namespace Sys2Proof.Machine

open Sys2Proof

def execBr (c : Ctx) (disp : BitVec 26) (s : State) : Host.Outcome State Fault Refusal := runWord c (.br c disp) (specBr (atOf c) (sext disp)) s
def execBrr (c : Ctx) (a : Reg) (s : State) : Host.Outcome State Fault Refusal := runWord c (.brr c a) (specBrr (atOf c) a) s
def execCall (c : Ctx) (disp : BitVec 26) (s : State) : Host.Outcome State Fault Refusal := runWord c (.call c disp) (specCall (atOf c) (sext disp)) s
def execCallr (c : Ctx) (a : Reg) (s : State) : Host.Outcome State Fault Refusal := runWord c (.callr c a) (specCallr (atOf c) a) s
def execRet (c : Ctx) (s : State) : Host.Outcome State Fault Refusal := runWord c (.ret c) (specRet (atOf c)) s
def execWspill (c : Ctx) (s : State) : Host.Outcome State Fault Refusal := runWord c (.wspill c) (specWspill (atOf c)) s

end Sys2Proof.Machine
end

