-- ==== Sys2Proof/Machine/Int.lean ====
section
/-! DEFINITION. The INT words (03 Table 3.2, 04 Table 4.11): each issues its operation over the shared specifications. -/

namespace Sys2Proof.Machine

open Sys2Proof

def execAdd (c : Ctx) (d a b : Reg) (s : State) : Host.Outcome State Fault Refusal := runWord c (.add c d a b) (specAlu (atOf c) .add d a b) s
def execSub (c : Ctx) (d a b : Reg) (s : State) : Host.Outcome State Fault Refusal := runWord c (.sub c d a b) (specAlu (atOf c) .sub d a b) s
def execAnd (c : Ctx) (d a b : Reg) (s : State) : Host.Outcome State Fault Refusal := runWord c (.and c d a b) (specAlu (atOf c) .and d a b) s
def execOr (c : Ctx) (d a b : Reg) (s : State) : Host.Outcome State Fault Refusal := runWord c (.or c d a b) (specAlu (atOf c) .or d a b) s
def execXor (c : Ctx) (d a b : Reg) (s : State) : Host.Outcome State Fault Refusal := runWord c (.xor c d a b) (specAlu (atOf c) .xor d a b) s
def execAndn (c : Ctx) (d a b : Reg) (s : State) : Host.Outcome State Fault Refusal := runWord c (.andn c d a b) (specAlu (atOf c) .andn d a b) s
def execShl (c : Ctx) (d a b : Reg) (s : State) : Host.Outcome State Fault Refusal := runWord c (.shl c d a b) (specAlu (atOf c) .shl d a b) s
def execShr (c : Ctx) (d a b : Reg) (s : State) : Host.Outcome State Fault Refusal := runWord c (.shr c d a b) (specAlu (atOf c) .shr d a b) s
def execSar (c : Ctx) (d a b : Reg) (s : State) : Host.Outcome State Fault Refusal := runWord c (.sar c d a b) (specAlu (atOf c) .sar d a b) s
def execMul (c : Ctx) (d a b : Reg) (s : State) : Host.Outcome State Fault Refusal := runWord c (.mul c d a b) (specAlu (atOf c) .mul d a b) s
def execMulhs (c : Ctx) (d a b : Reg) (s : State) : Host.Outcome State Fault Refusal := runWord c (.mulhs c d a b) (specAlu (atOf c) .mulhs d a b) s
def execMulhu (c : Ctx) (d a b : Reg) (s : State) : Host.Outcome State Fault Refusal := runWord c (.mulhu c d a b) (specAlu (atOf c) .mulhu d a b) s
def execAddi (c : Ctx) (d a : Reg) (imm : BitVec 24) (s : State) : Host.Outcome State Fault Refusal :=
  runWord c (.addi c d a imm) (specAluImm (atOf c) .add d a (sext imm)) s
def execAndi (c : Ctx) (d a : Reg) (imm : BitVec 24) (s : State) : Host.Outcome State Fault Refusal :=
  runWord c (.andi c d a imm) (specAluImm (atOf c) .and d a (sext imm)) s
def execOri (c : Ctx) (d a : Reg) (imm : BitVec 24) (s : State) : Host.Outcome State Fault Refusal :=
  runWord c (.ori c d a imm) (specAluImm (atOf c) .or d a (sext imm)) s
def execXori (c : Ctx) (d a : Reg) (imm : BitVec 24) (s : State) : Host.Outcome State Fault Refusal :=
  runWord c (.xori c d a imm) (specAluImm (atOf c) .xor d a (sext imm)) s
def execShli (c : Ctx) (d a : Reg) (n : BitVec 6) (s : State) : Host.Outcome State Fault Refusal :=
  runWord c (.shli c d a n) (specShiftImm (atOf c) .shl d a n) s
def execShri (c : Ctx) (d a : Reg) (n : BitVec 6) (s : State) : Host.Outcome State Fault Refusal :=
  runWord c (.shri c d a n) (specShiftImm (atOf c) .shr d a n) s
def execSari (c : Ctx) (d a : Reg) (n : BitVec 6) (s : State) : Host.Outcome State Fault Refusal :=
  runWord c (.sari c d a n) (specShiftImm (atOf c) .sar d a n) s
def execMov (c : Ctx) (d a : Reg) (s : State) : Host.Outcome State Fault Refusal := runWord c (.mov c d a) (specMov (atOf c) d a) s
def execLil (c : Ctx) (d : Reg) (imm : BitVec 32) (s : State) : Host.Outcome State Fault Refusal :=
  runWord c (.lil c d imm) (specLil (atOf c) d (sext imm)) s
def execLih (c : Ctx) (d : Reg) (imm : BitVec 32) (s : State) : Host.Outcome State Fault Refusal :=
  runWord c (.lih c d imm) (specLih (atOf c) d imm) s
def execCmp (c : Ctx) (k : Cond) (pd : PReg) (a b : Reg) (s : State) : Host.Outcome State Fault Refusal :=
  runWord c (.cmp c k pd a b) (specCmp (atOf c) k pd a b) s
def execCmpi (c : Ctx) (k : Cond) (pd : PReg) (a : Reg) (imm : BitVec 24) (s : State) : Host.Outcome State Fault Refusal :=
  runWord c (.cmpi c k pd a imm) (specCmpi (atOf c) k pd a imm) s

end Sys2Proof.Machine
end

