-- ==== Sys2Proof/Machine/Mem.lean ====
section
/-! DEFINITION. The MEM words (03 R85 to R98, 04 Table 4.13, 09 R258 to R261). -/

namespace Sys2Proof.Machine

open Sys2Proof

def execLd (c : Ctx) (lg : Fin 4) (d : Reg) (m : AMode) (s : State) : Host.Outcome State Fault Refusal :=
  runWord c (.ld c lg d m) (specLoad (atOf c) .device true lg d m) s
def execLdu (c : Ctx) (lg : Fin 4) (d : Reg) (m : AMode) (s : State) : Host.Outcome State Fault Refusal :=
  runWord c (.ldu c lg d m) (specLoad (atOf c) .device false lg d m) s
def execSt (c : Ctx) (lg : Fin 4) (d : Reg) (m : AMode) (s : State) : Host.Outcome State Fault Refusal :=
  runWord c (.st c lg d m) (specStore (atOf c) .device lg d m) s
def execLdl (c : Ctx) (lg : Fin 4) (d : Reg) (m : AMode) (s : State) : Host.Outcome State Fault Refusal :=
  runWord c (.ldl c lg d m) (specLoad (atOf c) .local_ true lg d m) s
def execLdlu (c : Ctx) (lg : Fin 4) (d : Reg) (m : AMode) (s : State) : Host.Outcome State Fault Refusal :=
  runWord c (.ldlu c lg d m) (specLoad (atOf c) .local_ false lg d m) s
def execStl (c : Ctx) (lg : Fin 4) (d : Reg) (m : AMode) (s : State) : Host.Outcome State Fault Refusal :=
  runWord c (.stl c lg d m) (specStore (atOf c) .local_ lg d m) s
def execLdg (c : Ctx) (lg : Fin 4) (d : Reg) (m : AMode) (s : State) : Host.Outcome State Fault Refusal :=
  runWord c (.ldg c lg d m) (specLoad (atOf c) .group true lg d m) s
def execLdgu (c : Ctx) (lg : Fin 4) (d : Reg) (m : AMode) (s : State) : Host.Outcome State Fault Refusal :=
  runWord c (.ldgu c lg d m) (specLoad (atOf c) .group false lg d m) s
def execStg (c : Ctx) (lg : Fin 4) (d : Reg) (m : AMode) (s : State) : Host.Outcome State Fault Refusal :=
  runWord c (.stg c lg d m) (specStore (atOf c) .group lg d m) s
def execAmo (c : Ctx) (wide : Bool) (op : Fin 10) (d a : Reg) (disp : BitVec 24) (b r : Reg) (s : State) : Host.Outcome State Fault Refusal :=
  runWord c (.amo c wide op d a disp b r) (specAmo (atOf c) .device wide op d a disp b r) s
def execAmog (c : Ctx) (wide : Bool) (op : Fin 10) (d a : Reg) (disp : BitVec 24) (b r : Reg) (s : State) : Host.Outcome State Fault Refusal :=
  runWord c (.amog c wide op d a disp b r) (specAmo (atOf c) .group wide op d a disp b r) s
def execFenceLd (c : Ctx) (s : State) : Host.Outcome State Fault Refusal := runWord c (.fenceLd c) (specFence (atOf c) .ld) s
def execFenceSt (c : Ctx) (s : State) : Host.Outcome State Fault Refusal := runWord c (.fenceSt c) (specFence (atOf c) .st) s
def execFenceAll (c : Ctx) (s : State) : Host.Outcome State Fault Refusal := runWord c (.fenceAll c) (specFence (atOf c) .all) s
def execCinv (c : Ctx) (a : Reg) (disp : BitVec 24) (s : State) : Host.Outcome State Fault Refusal :=
  runWord c (.cinv c a disp) (specCinv (atOf c) a disp) s
def execCwb (c : Ctx) (a : Reg) (disp : BitVec 24) (s : State) : Host.Outcome State Fault Refusal :=
  runWord c (.cwb c a disp) (specCwb (atOf c) a disp) s
def execCflush (c : Ctx) (a : Reg) (disp : BitVec 24) (s : State) : Host.Outcome State Fault Refusal :=
  runWord c (.cflush c a disp) (specCflush (atOf c) a disp) s
def execCinvall (c : Ctx) (s : State) : Host.Outcome State Fault Refusal := runWord c (.cinvall c) (specCinvall (atOf c)) s
def execCflushall (c : Ctx) (s : State) : Host.Outcome State Fault Refusal := runWord c (.cflushall c) (specCflushall (atOf c)) s
def execPrefetch (c : Ctx) (a : Reg) (disp : BitVec 24) (s : State) : Host.Outcome State Fault Refusal :=
  runWord c (.prefetch c a disp) (specPrefetch (atOf c) a disp) s
def execCwaylk (c : Ctx) (a : Reg) (s : State) : Host.Outcome State Fault Refusal := runWord c (.cwaylk c a) (specCwaylk (atOf c) a) s
def execIinv (c : Ctx) (a : Reg) (disp : BitVec 24) (s : State) : Host.Outcome State Fault Refusal :=
  runWord c (.iinv c a disp) (specIinv (atOf c) a disp) s
def execIinvall (c : Ctx) (s : State) : Host.Outcome State Fault Refusal := runWord c (.iinvall c) (specIinvall (atOf c)) s
def execGather (c : Ctx) (lg : Fin 4) (d a b r : Reg) (units : Nat) (s : State) : Host.Outcome State Fault Refusal :=
  runWord c (.gather c lg d a b r 0) (specGather (atOf c) lg d a b r units) s
def execMemfill (c : Ctx) (d a b : Reg) (units : Nat) (s : State) : Host.Outcome State Fault Refusal :=
  runWord c (.memfill c d a b 0) (specMemfill (atOf c) d a b units) s

end Sys2Proof.Machine
end

