-- ==== Sys2Proof/Machine/Tile.lean ====
section
/-! DEFINITION. The TILE words (07, 04 Table 4.16). -/

namespace Sys2Proof.Machine

open Sys2Proof

def execTcfg (c : Ctx) (t : Fin 16) (a : Reg) (s : State) : Host.Outcome State Fault Refusal := runWord c (.tcfg c t a) (specTcfg (atOf c) t a) s
def execTld (c : Ctx) (t : Fin 16) (a b : Reg) (units : Nat) (s : State) : Host.Outcome State Fault Refusal :=
  runWord c (.tld c t a b 0) (specTld (atOf c) t a b units) s
def execTst (c : Ctx) (t : Fin 16) (a b : Reg) (units : Nat) (s : State) : Host.Outcome State Fault Refusal :=
  runWord c (.tst c t a b 0) (specTst (atOf c) t a b units) s
def execTlda (c : Ctx) (t : Fin 16) (a b : Reg) (fmt : BitVec 4) (units : Nat) (s : State) : Host.Outcome State Fault Refusal :=
  runWord c (.tlda c t a b fmt 0) (specTlda (atOf c) t a b fmt units) s
def execTsta (c : Ctx) (t : Fin 16) (a b : Reg) (fmt : BitVec 4) (rm : BitVec 2) (sat : Bool) (units : Nat) (s : State) : Host.Outcome State Fault Refusal :=
  runWord c (.tsta c t a b fmt rm sat 0) (specTsta (atOf c) t a b fmt rm sat units) s
def execTmma (c : Ctx) (t u w : Fin 16) (reua reub : Bool) (s : State) : Host.Outcome State Fault Refusal :=
  runWord c (.tmma c t u w reua reub) (specTmma (atOf c) t u w reua reub) s
def execTscale (c : Ctx) (t : Fin 16) (a : Reg) (s : State) : Host.Outcome State Fault Refusal :=
  runWord c (.tscale c t a) (specTscale (atOf c) t a) s
def execTzero (c : Ctx) (t : Fin 16) (s : State) : Host.Outcome State Fault Refusal := runWord c (.tzero c t) (specTzero (atOf c) t) s
def execTmova (c : Ctx) (a : Reg) (t : Fin 16) (b : Reg) (s : State) : Host.Outcome State Fault Refusal :=
  runWord c (.tmova c a t b) (specTmova (atOf c) a t b) s
def execTmovv (c : Ctx) (t : Fin 16) (a b : Reg) (s : State) : Host.Outcome State Fault Refusal :=
  runWord c (.tmovv c t a b) (specTmovv (atOf c) t a b) s

end Sys2Proof.Machine
end

