-- ==== Sys2Proof/Machine/Vec.lean ====
section
/-! DEFINITION. The VEC words (06, 04 Table 4.14). -/

namespace Sys2Proof.Machine

open Sys2Proof

def execVadd (c : Ctx) (f : VFields) (d a b : Reg) (s : State) : Host.Outcome State Fault Refusal :=
  runWord c (.vadd c f d a b) (specVec (atOf c) .vadd f d a b) s
def execVsub (c : Ctx) (f : VFields) (d a b : Reg) (s : State) : Host.Outcome State Fault Refusal :=
  runWord c (.vsub c f d a b) (specVec (atOf c) .vsub f d a b) s
def execVmul (c : Ctx) (f : VFields) (d a b : Reg) (s : State) : Host.Outcome State Fault Refusal :=
  runWord c (.vmul c f d a b) (specVec (atOf c) .vmul f d a b) s
def execVfma (c : Ctx) (f : VFields) (d a b r : Reg) (s : State) : Host.Outcome State Fault Refusal :=
  runWord c (.vfma c f d a b r) (specVfma (atOf c) f d a b r) s
def execVmin (c : Ctx) (f : VFields) (d a b : Reg) (s : State) : Host.Outcome State Fault Refusal :=
  runWord c (.vmin c f d a b) (specVec (atOf c) .vmin f d a b) s
def execVmax (c : Ctx) (f : VFields) (d a b : Reg) (s : State) : Host.Outcome State Fault Refusal :=
  runWord c (.vmax c f d a b) (specVec (atOf c) .vmax f d a b) s
def execVabs (c : Ctx) (f : VFields) (d a : Reg) (s : State) : Host.Outcome State Fault Refusal :=
  runWord c (.vabs c f d a) (specVec (atOf c) .vabs f d a 0) s
def execVneg (c : Ctx) (f : VFields) (d a : Reg) (s : State) : Host.Outcome State Fault Refusal :=
  runWord c (.vneg c f d a) (specVec (atOf c) .vneg f d a 0) s
def execVand (c : Ctx) (f : VFields) (d a b : Reg) (s : State) : Host.Outcome State Fault Refusal :=
  runWord c (.vand c f d a b) (specVec (atOf c) .vand f d a b) s
def execVor (c : Ctx) (f : VFields) (d a b : Reg) (s : State) : Host.Outcome State Fault Refusal :=
  runWord c (.vor c f d a b) (specVec (atOf c) .vor f d a b) s
def execVxor (c : Ctx) (f : VFields) (d a b : Reg) (s : State) : Host.Outcome State Fault Refusal :=
  runWord c (.vxor c f d a b) (specVec (atOf c) .vxor f d a b) s
def execVshl (c : Ctx) (f : VFields) (d a : Reg) (imm : BitVec 15) (s : State) : Host.Outcome State Fault Refusal :=
  runWord c (.vshl c f d a imm) (specVshift (atOf c) false f d a imm) s
def execVshr (c : Ctx) (f : VFields) (d a : Reg) (imm : BitVec 15) (s : State) : Host.Outcome State Fault Refusal :=
  runWord c (.vshr c f d a imm) (specVshift (atOf c) true f d a imm) s
def execVcmp (c : Ctx) (f : VFields) (d a b : Reg) (imm : BitVec 15) (s : State) : Host.Outcome State Fault Refusal :=
  runWord c (.vcmp c f d a b imm) (specVcmp (atOf c) f d a b imm) s
def execVsel (c : Ctx) (f : VFields) (d a b r : Reg) (s : State) : Host.Outcome State Fault Refusal :=
  runWord c (.vsel c f d a b r) (specVsel (atOf c) f d a b r) s
def execVcvt (c : Ctx) (f : VFields) (d a r : Reg) (imm : BitVec 15) (s : State) : Host.Outcome State Fault Refusal :=
  runWord c (.vcvt c f d a r imm) (specVcvt (atOf c) f d a r imm) s
def execVsplit (c : Ctx) (f : VFields) (d r a : Reg) (imm : BitVec 15) (s : State) : Host.Outcome State Fault Refusal :=
  runWord c (.vsplit c f d r a imm) (specVsplit (atOf c) f d r a imm) s
def execVexp2 (c : Ctx) (f : VFields) (d a : Reg) (s : State) : Host.Outcome State Fault Refusal :=
  runWord c (.vexp2 c f d a) (specVec (atOf c) .vexp2 f d a 0) s
def execVrcp (c : Ctx) (f : VFields) (d a : Reg) (s : State) : Host.Outcome State Fault Refusal :=
  runWord c (.vrcp c f d a) (specVec (atOf c) .vrcp f d a 0) s
def execVrsq (c : Ctx) (f : VFields) (d a : Reg) (s : State) : Host.Outcome State Fault Refusal :=
  runWord c (.vrsq c f d a) (specVec (atOf c) .vrsq f d a 0) s
def execVsmax (c : Ctx) (f : VFields) (d a b : Reg) (imm : BitVec 15) (s : State) : Host.Outcome State Fault Refusal :=
  runWord c (.vsmax c f d a b imm) (specVsmax (atOf c) f d a b imm) s
def execVssum (c : Ctx) (f : VFields) (d a b r : Reg) (imm : BitVec 15) (s : State) : Host.Outcome State Fault Refusal :=
  runWord c (.vssum c f d a b r imm) (specVssum (atOf c) f d a b r imm) s
def execVexpr (c : Ctx) (f : VFields) (d a b : Reg) (imm : BitVec 15) (s : State) : Host.Outcome State Fault Refusal :=
  runWord c (.vexpr c f d a b imm) (specVexpr (atOf c) f d a b imm) s
def execVrope (c : Ctx) (f : VFields) (d r a : Reg) (imm : BitVec 15) (s : State) : Host.Outcome State Fault Refusal :=
  runWord c (.vrope c f d r a imm) (specVrope (atOf c) f d r a imm) s
def execVcmask (c : Ctx) (f : VFields) (d a b : Reg) (imm : BitVec 15) (s : State) : Host.Outcome State Fault Refusal :=
  runWord c (.vcmask c f d a b imm) (specVcmask (atOf c) f d a b imm) s
def execVpmask (c : Ctx) (f : VFields) (d a b : Reg) (s : State) : Host.Outcome State Fault Refusal :=
  runWord c (.vpmask c f d a b) (specVpmask (atOf c) f d a b) s
def execVperm (c : Ctx) (f : VFields) (d a b : Reg) (s : State) : Host.Outcome State Fault Refusal :=
  runWord c (.vperm c f d a b) (specVperm (atOf c) f d a b) s
def execVbcast (c : Ctx) (f : VFields) (d a : Reg) (s : State) : Host.Outcome State Fault Refusal :=
  runWord c (.vbcast c f d a) (specVbcast (atOf c) f d a) s
def execVredsum (c : Ctx) (f : VFields) (d a : Reg) (s : State) : Host.Outcome State Fault Refusal :=
  runWord c (.vredsum c f d a) (specVredsum (atOf c) f d a) s
def execVredmax (c : Ctx) (f : VFields) (d a : Reg) (s : State) : Host.Outcome State Fault Refusal :=
  runWord c (.vredmax c f d a) (specVredmax (atOf c) f d a) s
def execVmovg (c : Ctx) (f : VFields) (d a : Reg) (imm : BitVec 15) (s : State) : Host.Outcome State Fault Refusal :=
  runWord c (.vmovg c f d a imm) (specVmovg (atOf c) f d a imm) s
def execVins (c : Ctx) (f : VFields) (d a : Reg) (imm : BitVec 15) (s : State) : Host.Outcome State Fault Refusal :=
  runWord c (.vins c f d a imm) (specVins (atOf c) f d a imm) s
def execVld (c : Ctx) (d a : Reg) (imm : BitVec 15) (s : State) : Host.Outcome State Fault Refusal :=
  runWord c (.vld c d a imm) (specVld (atOf c) d a imm) s
def execVst (c : Ctx) (d a : Reg) (imm : BitVec 15) (s : State) : Host.Outcome State Fault Refusal :=
  runWord c (.vst c d a imm) (specVst (atOf c) d a imm) s

end Sys2Proof.Machine
end

