-- ==== Sys2Proof/Machine/Dispatch.lean ====
section
/-! DEFINITION. The one case split over the commands: each arm calls the command's meaning. -/

namespace Sys2Proof.Machine

open Sys2Proof

/-- The effect of one command on everything but the queue. -/
def exec (i : Instr) (s : State) : Host.Outcome State Fault Refusal :=
  match i with
  | .add c d a b => Sys2Proof.Machine.execAdd c d a b s
  | .sub c d a b => Sys2Proof.Machine.execSub c d a b s
  | .and c d a b => Sys2Proof.Machine.execAnd c d a b s
  | .or c d a b => Sys2Proof.Machine.execOr c d a b s
  | .xor c d a b => Sys2Proof.Machine.execXor c d a b s
  | .andn c d a b => Sys2Proof.Machine.execAndn c d a b s
  | .shl c d a b => Sys2Proof.Machine.execShl c d a b s
  | .shr c d a b => Sys2Proof.Machine.execShr c d a b s
  | .sar c d a b => Sys2Proof.Machine.execSar c d a b s
  | .mul c d a b => Sys2Proof.Machine.execMul c d a b s
  | .mulhs c d a b => Sys2Proof.Machine.execMulhs c d a b s
  | .mulhu c d a b => Sys2Proof.Machine.execMulhu c d a b s
  | .addi c d a imm => Sys2Proof.Machine.execAddi c d a imm s
  | .andi c d a imm => Sys2Proof.Machine.execAndi c d a imm s
  | .ori c d a imm => Sys2Proof.Machine.execOri c d a imm s
  | .xori c d a imm => Sys2Proof.Machine.execXori c d a imm s
  | .shli c d a n => Sys2Proof.Machine.execShli c d a n s
  | .shri c d a n => Sys2Proof.Machine.execShri c d a n s
  | .sari c d a n => Sys2Proof.Machine.execSari c d a n s
  | .mov c d a => Sys2Proof.Machine.execMov c d a s
  | .lil c d imm => Sys2Proof.Machine.execLil c d imm s
  | .lih c d imm => Sys2Proof.Machine.execLih c d imm s
  | .cmp c k pd a b => Sys2Proof.Machine.execCmp c k pd a b s
  | .cmpi c k pd a imm => Sys2Proof.Machine.execCmpi c k pd a imm s
  | .bld c pd a u => Sys2Proof.Machine.execBld c pd a u s
  | .bst c ps a u => Sys2Proof.Machine.execBst c ps a u s
  | .bset c a u => Sys2Proof.Machine.execBset c a u s
  | .bclr c a u => Sys2Proof.Machine.execBclr c a u s
  | .btgl c a u => Sys2Proof.Machine.execBtgl c a u s
  | .btas c pd a u => Sys2Proof.Machine.execBtas c pd a u s
  | .btac c pd a u => Sys2Proof.Machine.execBtac c pd a u s
  | .bcomb c op a offa b offb r offc => Sys2Proof.Machine.execBcomb c op a offa b offb r offc s
  | .bldw c d a u => Sys2Proof.Machine.execBldw c d a u s
  | .bstw c d a u => Sys2Proof.Machine.execBstw c d a u s
  | .bitscan c d a u b v units => Sys2Proof.Machine.execBitscan c d a u b v units s
  | .pand c pd p q na nb => Sys2Proof.Machine.execPand c pd p q na nb s
  | .por c pd p q na nb => Sys2Proof.Machine.execPor c pd p q na nb s
  | .pxor c pd p q na nb => Sys2Proof.Machine.execPxor c pd p q na nb s
  | .pandn c pd p q na nb => Sys2Proof.Machine.execPandn c pd p q na nb s
  | .movpg c d => Sys2Proof.Machine.execMovpg c d s
  | .movgp c a => Sys2Proof.Machine.execMovgp c a s
  | .ld c lg d m => Sys2Proof.Machine.execLd c lg d m s
  | .ldu c lg d m => Sys2Proof.Machine.execLdu c lg d m s
  | .st c lg d m => Sys2Proof.Machine.execSt c lg d m s
  | .ldl c lg d m => Sys2Proof.Machine.execLdl c lg d m s
  | .ldlu c lg d m => Sys2Proof.Machine.execLdlu c lg d m s
  | .stl c lg d m => Sys2Proof.Machine.execStl c lg d m s
  | .ldg c lg d m => Sys2Proof.Machine.execLdg c lg d m s
  | .ldgu c lg d m => Sys2Proof.Machine.execLdgu c lg d m s
  | .stg c lg d m => Sys2Proof.Machine.execStg c lg d m s
  | .amo c wide op d a disp b r => Sys2Proof.Machine.execAmo c wide op d a disp b r s
  | .amog c wide op d a disp b r => Sys2Proof.Machine.execAmog c wide op d a disp b r s
  | .fenceLd c => Sys2Proof.Machine.execFenceLd c s
  | .fenceSt c => Sys2Proof.Machine.execFenceSt c s
  | .fenceAll c => Sys2Proof.Machine.execFenceAll c s
  | .cinv c a disp => Sys2Proof.Machine.execCinv c a disp s
  | .cwb c a disp => Sys2Proof.Machine.execCwb c a disp s
  | .cflush c a disp => Sys2Proof.Machine.execCflush c a disp s
  | .cinvall c => Sys2Proof.Machine.execCinvall c s
  | .cflushall c => Sys2Proof.Machine.execCflushall c s
  | .prefetch c a disp => Sys2Proof.Machine.execPrefetch c a disp s
  | .cwaylk c a => Sys2Proof.Machine.execCwaylk c a s
  | .iinv c a disp => Sys2Proof.Machine.execIinv c a disp s
  | .iinvall c => Sys2Proof.Machine.execIinvall c s
  | .gather c lg d a b r units => Sys2Proof.Machine.execGather c lg d a b r units s
  | .memfill c d a b units => Sys2Proof.Machine.execMemfill c d a b units s
  | .vadd c f d a b => Sys2Proof.Machine.execVadd c f d a b s
  | .vsub c f d a b => Sys2Proof.Machine.execVsub c f d a b s
  | .vmul c f d a b => Sys2Proof.Machine.execVmul c f d a b s
  | .vfma c f d a b r => Sys2Proof.Machine.execVfma c f d a b r s
  | .vmin c f d a b => Sys2Proof.Machine.execVmin c f d a b s
  | .vmax c f d a b => Sys2Proof.Machine.execVmax c f d a b s
  | .vabs c f d a => Sys2Proof.Machine.execVabs c f d a s
  | .vneg c f d a => Sys2Proof.Machine.execVneg c f d a s
  | .vand c f d a b => Sys2Proof.Machine.execVand c f d a b s
  | .vor c f d a b => Sys2Proof.Machine.execVor c f d a b s
  | .vxor c f d a b => Sys2Proof.Machine.execVxor c f d a b s
  | .vshl c f d a imm => Sys2Proof.Machine.execVshl c f d a imm s
  | .vshr c f d a imm => Sys2Proof.Machine.execVshr c f d a imm s
  | .vcmp c f d a b imm => Sys2Proof.Machine.execVcmp c f d a b imm s
  | .vsel c f d a b r => Sys2Proof.Machine.execVsel c f d a b r s
  | .vcvt c f d a r imm => Sys2Proof.Machine.execVcvt c f d a r imm s
  | .vsplit c f d r a imm => Sys2Proof.Machine.execVsplit c f d r a imm s
  | .vexp2 c f d a => Sys2Proof.Machine.execVexp2 c f d a s
  | .vrcp c f d a => Sys2Proof.Machine.execVrcp c f d a s
  | .vrsq c f d a => Sys2Proof.Machine.execVrsq c f d a s
  | .vsmax c f d a b imm => Sys2Proof.Machine.execVsmax c f d a b imm s
  | .vssum c f d a b r imm => Sys2Proof.Machine.execVssum c f d a b r imm s
  | .vexpr c f d a b imm => Sys2Proof.Machine.execVexpr c f d a b imm s
  | .vrope c f d r a imm => Sys2Proof.Machine.execVrope c f d r a imm s
  | .vcmask c f d a b imm => Sys2Proof.Machine.execVcmask c f d a b imm s
  | .vpmask c f d a b => Sys2Proof.Machine.execVpmask c f d a b s
  | .vperm c f d a b => Sys2Proof.Machine.execVperm c f d a b s
  | .vbcast c f d a => Sys2Proof.Machine.execVbcast c f d a s
  | .vredsum c f d a => Sys2Proof.Machine.execVredsum c f d a s
  | .vredmax c f d a => Sys2Proof.Machine.execVredmax c f d a s
  | .vmovg c f d a imm => Sys2Proof.Machine.execVmovg c f d a imm s
  | .vins c f d a imm => Sys2Proof.Machine.execVins c f d a imm s
  | .vld c d a imm => Sys2Proof.Machine.execVld c d a imm s
  | .vst c d a imm => Sys2Proof.Machine.execVst c d a imm s
  | .br c disp => Sys2Proof.Machine.execBr c disp s
  | .brr c a => Sys2Proof.Machine.execBrr c a s
  | .call c disp => Sys2Proof.Machine.execCall c disp s
  | .callr c a => Sys2Proof.Machine.execCallr c a s
  | .ret c => Sys2Proof.Machine.execRet c s
  | .wspill c => Sys2Proof.Machine.execWspill c s
  | .tcfg c t a => Sys2Proof.Machine.execTcfg c t a s
  | .tld c t a b units => Sys2Proof.Machine.execTld c t a b units s
  | .tst c t a b units => Sys2Proof.Machine.execTst c t a b units s
  | .tlda c t a b fmt units => Sys2Proof.Machine.execTlda c t a b fmt units s
  | .tsta c t a b fmt rm sat units => Sys2Proof.Machine.execTsta c t a b fmt rm sat units s
  | .tmma c t u w reua reub => Sys2Proof.Machine.execTmma c t u w reua reub s
  | .tscale c t a => Sys2Proof.Machine.execTscale c t a s
  | .tzero c t => Sys2Proof.Machine.execTzero c t s
  | .tmova c a t b => Sys2Proof.Machine.execTmova c a t b s
  | .tmovv c t a b => Sys2Proof.Machine.execTmovv c t a b s
  | .matrixOpBegin site => Sys2Proof.Machine.execMatrixOpBegin site s
  | .tmmaCommit site => Sys2Proof.Machine.execTmmaCommit site s
  | .residueMismatch site m => Sys2Proof.Machine.execResidueMismatch site m s
  | .csrr c d csr => Sys2Proof.Machine.execCsrr c d csr s
  | .csrw c d csr a => Sys2Proof.Machine.execCsrw c d csr a s
  | .csrs c d csr a => Sys2Proof.Machine.execCsrs c d csr a s
  | .csrc c d csr a => Sys2Proof.Machine.execCsrc c d csr a s
  | .ropedataWrite c op d a => Sys2Proof.Machine.execRopedataWrite c op d a s
  | .chsbdatAccess c op d a => Sys2Proof.Machine.execChsbdatAccess c op d a s
  | .wmsgRead c d => Sys2Proof.Machine.execWmsgRead c d s
  | .chwaitWrite c d a => Sys2Proof.Machine.execChwaitWrite c d a s
  | .tlbinvWrite c op d a => Sys2Proof.Machine.execTlbinvWrite c op d a s
  | .lmsliceWrite c op d a => Sys2Proof.Machine.execLmsliceWrite c op d a s
  | .tpendWrite c op n d a => Sys2Proof.Machine.execTpendWrite c op n d a s
  | .ccwdKick c op d a => Sys2Proof.Machine.execCcwdKick c op d a s
  | .msgw c a off => Sys2Proof.Machine.execMsgw c a off s
  | .msgsendNonblocking c pd a len => Sys2Proof.Machine.execMsgsendNonblocking c pd a len s
  | .msgsendBlocking c pd a len => Sys2Proof.Machine.execMsgsendBlocking c pd a len s
  | .lock c pd a => Sys2Proof.Machine.execLock c pd a s
  | .unlock c a => Sys2Proof.Machine.execUnlock c a s
  | .bar c d a b => Sys2Proof.Machine.execBar c d a b s
  | .bara c a b => Sys2Proof.Machine.execBara c a b s
  | .watch c d a b => Sys2Proof.Machine.execWatch c d a b s
  | .unwatch c a => Sys2Proof.Machine.execUnwatch c a s
  | .syncchk c d => Sys2Proof.Machine.execSyncchk c d s
  | .hodpost c a => Sys2Proof.Machine.execHodpost c a s
  | .hodcred c a => Sys2Proof.Machine.execHodcred c a s
  | .gate c n => Sys2Proof.Machine.execGate c n s
  | .retx c => Sys2Proof.Machine.execRetx c s
  | .wait c a => Sys2Proof.Machine.execWait c a s
  | .waitPark c a => Sys2Proof.Machine.execWaitPark c a s
  | .brk c tag => Sys2Proof.Machine.execBrk c tag s
  | .eventInterrupt site thr => Sys2Proof.Machine.execEventInterrupt site thr s
  | .impreciseFaultTaken site thr => Sys2Proof.Machine.execImpreciseFaultTaken site thr s
  | .idleDeadlock site => Sys2Proof.Machine.execIdleDeadlock site s
  | .threadStart site thr => Sys2Proof.Machine.execThreadStart site thr s
  | .remoteResultReturn pkt => Sys2Proof.Machine.execRemoteResultReturn pkt s
  | .storeAck pkt => Sys2Proof.Machine.execStoreAck pkt s
  | .icacheLineFill pkt => Sys2Proof.Machine.execIcacheLineFill pkt s
  | .unreachableReply pkt => Sys2Proof.Machine.execUnreachableReply pkt s
  | .strbusyReply pkt => Sys2Proof.Machine.execStrbusyReply pkt s
  | .strbusyResend site pkt => Sys2Proof.Machine.execStrbusyResend site pkt s
  | .meshAccessArrival arr => Sys2Proof.Machine.execMeshAccessArrival arr s
  | .coreEvsetStore site thr lvl bits => Sys2Proof.Machine.execCoreEvsetStore site thr lvl bits s
  | .lockRequestArrival pkt => Sys2Proof.Machine.execLockRequestArrival pkt s
  | .lockRetry site thr => Sys2Proof.Machine.execLockRetry site thr s
  | .unlockArrival pkt => Sys2Proof.Machine.execUnlockArrival pkt s
  | .lockGrantArrival pkt => Sys2Proof.Machine.execLockGrantArrival pkt s
  | .ownerResetNotice pkt => Sys2Proof.Machine.execOwnerResetNotice pkt s
  | .synBcfgWrite cluster bar v => Sys2Proof.Machine.execSynBcfgWrite cluster bar v s
  | .barrierAbort cluster bar => Sys2Proof.Machine.execBarrierAbort cluster bar s
  | .barrierArrival pkt => Sys2Proof.Machine.execBarrierArrival pkt s
  | .combinedArrival pkt => Sys2Proof.Machine.execCombinedArrival pkt s
  | .deviceArrival pkt => Sys2Proof.Machine.execDeviceArrival pkt s
  | .releaseCopyArrival pkt => Sys2Proof.Machine.execReleaseCopyArrival pkt s
  | .releaseNotice pkt => Sys2Proof.Machine.execReleaseNotice pkt s
  | .unitLostNotice pkt => Sys2Proof.Machine.execUnitLostNotice pkt s
  | .watchRegistration pkt => Sys2Proof.Machine.execWatchRegistration pkt s
  | .wordWatchMatch pkt => Sys2Proof.Machine.execWordWatchMatch pkt s
  | .watchTimeout cluster entry => Sys2Proof.Machine.execWatchTimeout cluster entry s
  | .unwatchArrival pkt => Sys2Proof.Machine.execUnwatchArrival pkt s
  | .watchMessageArrival pkt => Sys2Proof.Machine.execWatchMessageArrival pkt s
  | .paceTick cluster => Sys2Proof.Machine.execPaceTick cluster s
  | .paceRatioUpdate cluster => Sys2Proof.Machine.execPaceRatioUpdate cluster s
  | .paceRateUpdate h rate => Sys2Proof.Machine.execPaceRateUpdate h rate s
  | .topPaceClr h => Sys2Proof.Machine.execTopPaceClr h s
  | .hbmRequest pkt flaws => Sys2Proof.Machine.execHbmRequest pkt flaws s
  | .hbmRetirePage node addr => Sys2Proof.Machine.execHbmRetirePage node addr s
  | .hbmRetirePc node addr => Sys2Proof.Machine.execHbmRetirePc node addr s
  | .pcMigrationEnd node => Sys2Proof.Machine.execPcMigrationEnd node s
  | .pcSwitch node pc => Sys2Proof.Machine.execPcSwitch node pc s
  | .hbmScrubRow node flaws => Sys2Proof.Machine.execHbmScrubRow node flaws s
  | .stackTempCheck node temp => Sys2Proof.Machine.execStackTempCheck node temp s
  | .hbmEccClr node => Sys2Proof.Machine.execHbmEccClr node s
  | .gruPool pkt => Sys2Proof.Machine.execGruPool pkt s
  | .gruScatter pkt => Sys2Proof.Machine.execGruScatter pkt s
  | .gruRequestDone node => Sys2Proof.Machine.execGruRequestDone node s
  | .gruCtlEn node en => Sys2Proof.Machine.execGruCtlEn node en s
  | .gruDrainComplete node => Sys2Proof.Machine.execGruDrainComplete node s
  | .packetRoute pkt router => Sys2Proof.Machine.execPacketRoute pkt router s
  | .streamDelivery pkt => Sys2Proof.Machine.execStreamDelivery pkt s
  | .streamResetNotice pkt => Sys2Proof.Machine.execStreamResetNotice pkt s
  | .meshFlitCrcError site port replay => Sys2Proof.Machine.execMeshFlitCrcError site port replay s
  | .injectionRateRecover site => Sys2Proof.Machine.execInjectionRateRecover site s
  | .mshCtlEn site en => Sys2Proof.Machine.execMshCtlEn site en s
  | .injectionGateQuiet site => Sys2Proof.Machine.execInjectionGateQuiet site s
  | .mshErrClr site => Sys2Proof.Machine.execMshErrClr site s
  | .hodRctlEn site ring lvl v => Sys2Proof.Machine.execHodRctlEn site ring lvl v s
  | .hodRingDrainComplete site ring => Sys2Proof.Machine.execHodRingDrainComplete site ring s
  | .hodDescriptorCheck site ring => Sys2Proof.Machine.execHodDescriptorCheck site ring s
  | .hodDescriptorBegin site ring => Sys2Proof.Machine.execHodDescriptorBegin site ring s
  | .hodReadData pkt => Sys2Proof.Machine.execHodReadData pkt s
  | .hodWriteAck pkt => Sys2Proof.Machine.execHodWriteAck pkt s
  | .hodReadback pkt => Sys2Proof.Machine.execHodReadback pkt s
  | .hodGruStatus pkt => Sys2Proof.Machine.execHodGruStatus pkt s
  | .hodCompletion site ring => Sys2Proof.Machine.execHodCompletion site ring s
  | .chnEpctlEn site x v => Sys2Proof.Machine.execChnEpctlEn site x v s
  | .chnEndpointDrainComplete site x => Sys2Proof.Machine.execChnEndpointDrainComplete site x s
  | .tokenCancel site e tok => Sys2Proof.Machine.execTokenCancel site e tok s
  | .requestMessageArrival pkt => Sys2Proof.Machine.execRequestMessageArrival pkt s
  | .replyMessageArrival pkt => Sys2Proof.Machine.execReplyMessageArrival pkt s
  | .msgAckArrival pkt => Sys2Proof.Machine.execMsgAckArrival pkt s
  | .msgNackArrival pkt => Sys2Proof.Machine.execMsgNackArrival pkt s
  | .blockingSendRetry site thr => Sys2Proof.Machine.execBlockingSendRetry site thr s
  | .lnkCtlEn port v => Sys2Proof.Machine.execLnkCtlEn port v s
  | .lnkSleepRequest port sleep => Sys2Proof.Machine.execLnkSleepRequest port sleep s
  | .lnkFecClr port => Sys2Proof.Machine.execLnkFecClr port s
  | .lnkErrClr port => Sys2Proof.Machine.execLnkErrClr port s
  | .controlLaneLock port => Sys2Proof.Machine.execControlLaneLock port s
  | .controlLockLoss port => Sys2Proof.Machine.execControlLockLoss port s
  | .linkStateTimeout port => Sys2Proof.Machine.execLinkStateTimeout port s
  | .lmMeas port pair probe => Sys2Proof.Machine.execLmMeas port pair probe s
  | .lmMeasr port pair echo => Sys2Proof.Machine.execLmMeasr port pair echo s
  | .lmCap port body => Sys2Proof.Machine.execLmCap port body s
  | .lmCapack port => Sys2Proof.Machine.execLmCapack port s
  | .dtrainDone port lanes => Sys2Proof.Machine.execDtrainDone port lanes s
  | .dcheckDone port => Sys2Proof.Machine.execDcheckDone port s
  | .dataFlitArrival port flit fecBad => Sys2Proof.Machine.execDataFlitArrival port flit fecBad s
  | .controlFlitArrival port flit => Sys2Proof.Machine.execControlFlitArrival port flit s
  | .linkNak port ctrl last => Sys2Proof.Machine.execLinkNak port ctrl last s
  | .replayTimeout port ctrl => Sys2Proof.Machine.execReplayTimeout port ctrl s
  | .recoverDiscardTimeout port => Sys2Proof.Machine.execRecoverDiscardTimeout port s
  | .dataLaneFailure port lane period => Sys2Proof.Machine.execDataLaneFailure port lane period s
  | .lmSpare port lane period => Sys2Proof.Machine.execLmSpare port lane period s
  | .lmSpareack port period => Sys2Proof.Machine.execLmSpareack port period s
  | .lmPwr port sleep => Sys2Proof.Machine.execLmPwr port sleep s
  | .lmPwrack port accept => Sys2Proof.Machine.execLmPwrack port accept s
  | .lmRetrain port => Sys2Proof.Machine.execLmRetrain port s
  | .lmDown port => Sys2Proof.Machine.execLmDown port s
  | .portDrainTimeout port => Sys2Proof.Machine.execPortDrainTimeout port s
  | .collGo t desc => Sys2Proof.Machine.execCollGo t desc s
  | .collAbort t => Sys2Proof.Machine.execCollAbort t s
  | .collUpArrival pkt => Sys2Proof.Machine.execCollUpArrival pkt s
  | .collDownArrival pkt => Sys2Proof.Machine.execCollDownArrival pkt s
  | .collDstWriteAck t chunk => Sys2Proof.Machine.execCollDstWriteAck t chunk s
  | .grpHctlEn lvl v => Sys2Proof.Machine.execGrpHctlEn lvl v s
  | .bridgeDrainComplete => Sys2Proof.Machine.execBridgeDrainComplete s
  | .grpHintStore v => Sys2Proof.Machine.execGrpHintStore v s
  | .grpStatClr => Sys2Proof.Machine.execGrpStatClr s
  | .grpHstatClr => Sys2Proof.Machine.execGrpHstatClr s
  | .hctlDbell dev site thr bits => Sys2Proof.Machine.execHctlDbell dev site thr bits s
  | .hctlRegrd off tag => Sys2Proof.Machine.execHctlRegrd off tag s
  | .hctlRegwr off tag v => Sys2Proof.Machine.execHctlRegwr off tag v s
  | .hctlSreset dev site strm => Sys2Proof.Machine.execHctlSreset dev site strm s
  | .errfwdArrival record => Sys2Proof.Machine.execErrfwdArrival record s
  | .imgLoad => Sys2Proof.Machine.execImgLoad s
  | .imgDrain => Sys2Proof.Machine.execImgDrain s
  | .imgDrainComplete => Sys2Proof.Machine.execImgDrainComplete s
  | .imgDrainTimeout => Sys2Proof.Machine.execImgDrainTimeout s
  | .imgApply => Sys2Proof.Machine.execImgApply s
  | .imgUndrain => Sys2Proof.Machine.execImgUndrain s
  | .imgRun => Sys2Proof.Machine.execImgRun s
  | .imgAbort => Sys2Proof.Machine.execImgAbort s
  | .imgdata sdev off data => Sys2Proof.Machine.execImgdata sdev off data s
  | .imgcmd sdev cmd serial => Sys2Proof.Machine.execImgcmd sdev cmd serial s
  | .errorRecordArrival n => Sys2Proof.Machine.execErrorRecordArrival n s
  | .healthViewCompare => Sys2Proof.Machine.execHealthViewCompare s
  | .responseTimeout r => Sys2Proof.Machine.execResponseTimeout r s
  | .mgtErrqEnable v => Sys2Proof.Machine.execMgtErrqEnable v s
  | .mgtErrconsClr v => Sys2Proof.Machine.execMgtErrconsClr v s
  | .fenceCore site => Sys2Proof.Machine.execFenceCore site s
  | .fenceRouter site => Sys2Proof.Machine.execFenceRouter site s
  | .fenceNode node => Sys2Proof.Machine.execFenceNode node s
  | .fenceGru node => Sys2Proof.Machine.execFenceGru node s
  | .fencePort port => Sys2Proof.Machine.execFencePort port s
  | .fenceSyncUnit cluster => Sys2Proof.Machine.execFenceSyncUnit cluster s
  | .fenceCollEngine t => Sys2Proof.Machine.execFenceCollEngine t s
  | .lcadv fuses => Sys2Proof.Machine.execLcadv fuses s
  | .genid fuses => Sys2Proof.Machine.execGenid fuses s
  | .provision addr fuses => Sys2Proof.Machine.execProvision addr fuses s
  | .returnDev addr fuses => Sys2Proof.Machine.execReturnDev addr fuses s
  | .eol fuses => Sys2Proof.Machine.execEol fuses s
  | .advsvn fuses => Sys2Proof.Machine.execAdvsvn fuses s
  | .secAttest run => Sys2Proof.Machine.execSecAttest run s
  | .kill fuses => Sys2Proof.Machine.execKill fuses s
  | .dbgChallenge => Sys2Proof.Machine.execDbgChallenge s
  | .dbgUnlock msg => Sys2Proof.Machine.execDbgUnlock msg s
  | .alarmVolt => Sys2Proof.Machine.execAlarmVolt s
  | .alarmTemp => Sys2Proof.Machine.execAlarmTemp s
  | .alarmTamper => Sys2Proof.Machine.execAlarmTamper s
  | .poweron straps => Sys2Proof.Machine.execPoweron straps s
  | .inputUndervoltage => Sys2Proof.Machine.execInputUndervoltage s
  | .inputWarning => Sys2Proof.Machine.execInputWarning s
  | .railUndervoltage rail => Sys2Proof.Machine.execRailUndervoltage rail s
  | .railWarning rail => Sys2Proof.Machine.execRailWarning rail s
  | .railGood rail m => Sys2Proof.Machine.execRailGood rail m s
  | .resetNLow => Sys2Proof.Machine.execResetNLow s
  | .resetNGlitch => Sys2Proof.Machine.execResetNGlitch s
  | .resetStretchEnd m => Sys2Proof.Machine.execResetStretchEnd m s
  | .clockGood group => Sys2Proof.Machine.execClockGood group s
  | .refclkFailure => Sys2Proof.Machine.execRefclkFailure s
  | .startBudgetExpiry => Sys2Proof.Machine.execStartBudgetExpiry s
  | .swreset => Sys2Proof.Machine.execSwreset s
  | .bootok => Sys2Proof.Machine.execBootok s
  | .mkick => Sys2Proof.Machine.execMkick s
  | .force bits => Sys2Proof.Machine.execForce bits s
  | .mgtWatchdogExpiry => Sys2Proof.Machine.execMgtWatchdogExpiry s
  | .ccWatchdogExpiry cc => Sys2Proof.Machine.execCcWatchdogExpiry cc s
  | .thermalTrip => Sys2Proof.Machine.execThermalTrip s
  | .throttleStart h tj => Sys2Proof.Machine.execThrottleStart h tj s
  | .throttleTick h tj => Sys2Proof.Machine.execThrottleTick h tj s
  | .throttleEnd h tj => Sys2Proof.Machine.execThrottleEnd h tj s
  | .powerWindow draw vin => Sys2Proof.Machine.execPowerWindow draw vin s
  | .kilnGo issuer kind inst => Sys2Proof.Machine.execKilnGo issuer kind inst s
  | .kilnSliceDone r => Sys2Proof.Machine.execKilnSliceDone r s
  | .kilnBudgetExpiry => Sys2Proof.Machine.execKilnBudgetExpiry s
  | .dbgHalt site mask => Sys2Proof.Machine.execDbgHalt site mask s
  | .haltTaken site thr => Sys2Proof.Machine.execHaltTaken site thr s
  | .dbgResume site mask => Sys2Proof.Machine.execDbgResume site mask s
  | .dbgStep site mask => Sys2Proof.Machine.execDbgStep site mask s
  | .dbgDiscsb site mask => Sys2Proof.Machine.execDbgDiscsb site mask s
  | .dbgdataAccess site w => Sys2Proof.Machine.execDbgdataAccess site w s
  | .jtagIdcode => Sys2Proof.Machine.execJtagIdcode s
  | .jtagSamplePreload lands => Sys2Proof.Machine.execJtagSamplePreload lands s
  | .jtagExtest drive => Sys2Proof.Machine.execJtagExtest drive s
  | .jtagBypass => Sys2Proof.Machine.execJtagBypass s
  | .dbgaccRead addr => Sys2Proof.Machine.execDbgaccRead addr s
  | .dbgaccWrite addr v => Sys2Proof.Machine.execDbgaccWrite addr v s
  | .dbgaccDebugReset => Sys2Proof.Machine.execDbgaccDebugReset s
  | .dbgaccCoreReset addr => Sys2Proof.Machine.execDbgaccCoreReset addr s
  | .otpprog image key => Sys2Proof.Machine.execOtpprog image key s
  | .scansel chain => Sys2Proof.Machine.execScansel chain s
  | .i3cIdent f => Sys2Proof.Machine.execI3cIdent f s
  | .i3cSensor f first count => Sys2Proof.Machine.execI3cSensor f first count s
  | .i3cRegrd f addr => Sys2Proof.Machine.execI3cRegrd f addr s
  | .i3cRegwr f addr v => Sys2Proof.Machine.execI3cRegwr f addr v s
  | .i3cAttest f nonce => Sys2Proof.Machine.execI3cAttest f nonce s
  | .i3cStage f off data => Sys2Proof.Machine.execI3cStage f off data s
  | .i3cImgcmd f cmd serial => Sys2Proof.Machine.execI3cImgcmd f cmd serial s
  | .i3cFlashrd f addr len => Sys2Proof.Machine.execI3cFlashrd f addr len s
  | .i3cFlashwr f addr data => Sys2Proof.Machine.execI3cFlashwr f addr data s
  | .i3cFlasherase f addr => Sys2Proof.Machine.execI3cFlasherase f addr s
  | .i3cReset f => Sys2Proof.Machine.execI3cReset f s
  | .i3cResponseRead => Sys2Proof.Machine.execI3cResponseRead s
  | .i3cResetTimeout => Sys2Proof.Machine.execI3cResetTimeout s
  | .sensorRefresh vals => Sys2Proof.Machine.execSensorRefresh vals s
  | .coreTrcctlEnable site v => Sys2Proof.Machine.execCoreTrcctlEnable site v s
  | .registerWrite addr lvl v => Sys2Proof.Machine.execRegisterWrite addr lvl v s
  | .spareLaneFailure port => Sys2Proof.Machine.execSpareLaneFailure port s
  | .lmRequestRepeat port n => Sys2Proof.Machine.execLmRequestRepeat port n s
  | .railRecovery rail => Sys2Proof.Machine.execRailRecovery rail s
  | .resetSourceEnd code => Sys2Proof.Machine.execResetSourceEnd code s
  | .coreResetEnd site => Sys2Proof.Machine.execCoreResetEnd site s
  | .mgtRestartDone => Sys2Proof.Machine.execMgtRestartDone s
  | .imgrptArrival dev cmd last state serial => Sys2Proof.Machine.execImgrptArrival dev cmd last state serial s
  | .imgackArrival dev status => Sys2Proof.Machine.execImgackArrival dev status s

end Sys2Proof.Machine
end

