-- ==== Sys2Proof/Machine/Lands.lean ====
section
/-! DEFINITION. The signal lands of the management connector as the state drives them (24 R581 to R583, Tables 24.3, 24.4). -/

namespace Sys2Proof.Machine

open Sys2Proof

/-- What the module does at a land. -/
inductive Drive where
  | highZ
  | weakDown
  | weakUp
  | low
  | high
  deriving DecidableEq, Repr

/-- The single-ended signal lands of Table 24.3. -/
inductive Land where
  | resetN
  | pwrGood
  | alertN
  | thermTripN
  | tamperN
  | i3cScl
  | i3cSda
  | tck
  | tms
  | tdi
  | tdo
  | trstN
  | modid (n : Fin 4)
  | gpio (n : Fin 4)
  deriving DecidableEq, Repr

/-- A land that is released: no pull of its own, or the weak pull-up of the forerunner mode. -/
def released (s : State) : Drive := if s.mgt.fmode then .weakUp else .highZ

/-- An open-drain land: low while its condition holds. -/
def openDrain (s : State) (cond : Bool) : Drive := if cond then .low else released s

/-- A warning bit of PWR_STAT is set (21 R542). -/
def anyWarning (p : Pwr) : Bool := p.iwarn || p.mwarn || p.bwarn || p.swarn || p.hwarn != 0

/-- A GPIO: driven by OUT where OE is 1, else at the pull of its reset state (24 R581, R583). -/
def gpioDrive (s : State) (n : Nat) : Drive :=
  let m := s.mgt
  if m.oe.getLsbD n then (if m.out.getLsbD n then .high else .low)
  else if m.fmode then .weakUp
  else
    let p := m.pinmap.toNat / 4 ^ n % 4
    if p = 1 then .weakDown else if p = 2 then .weakUp else .highZ

/-- The state of a land (24 Table 24.4). Before the option block of a POWERON reset has been read every land but the straps is high
impedance. The I3C lands and TDO are driven by transfers alone. -/
def landDrive (s : State) (x : Land) : Drive :=
  match x with
  | .modid _ => .weakUp
  | x =>
    if s.rst.phase = .off then .highZ
    else match x with
      | .resetN => openDrain s (s.rst.phase == .reset)
      | .pwrGood => if s.rst.powerGood then .high else .low
      | .alertN => openDrain s (anyWarning s.pwr)
      | .thermTripN => openDrain s s.rst.thermTrip
      | .tck => if s.mgt.fmode then .weakUp else .weakDown
      | .tms | .tdi | .trstN => .weakUp
      | .gpio n => gpioDrive s n
      | _ => released s

end Sys2Proof.Machine
end

