-- ==== Sys2Proof/WellFormed.lean ====
section
/-! DEFINITION. Well-formed commands: those that name an agent which the device has by its fixed geometry (01 Table 1.2). A word, and an
event of a thread, need a site that has that thread; a matrix or hod event needs a core site; an endpoint or debug event needs a site
with threads. -/

namespace Sys2Proof

open Sys2Proof.Machine

/-- The command names an agent of the device. -/
def Instr.wellFormed (i : Instr) : Bool :=
  match i with
  | .add c _ _ _ => hasThread c.site.val c.thr
  | .sub c _ _ _ => hasThread c.site.val c.thr
  | .and c _ _ _ => hasThread c.site.val c.thr
  | .or c _ _ _ => hasThread c.site.val c.thr
  | .xor c _ _ _ => hasThread c.site.val c.thr
  | .andn c _ _ _ => hasThread c.site.val c.thr
  | .shl c _ _ _ => hasThread c.site.val c.thr
  | .shr c _ _ _ => hasThread c.site.val c.thr
  | .sar c _ _ _ => hasThread c.site.val c.thr
  | .mul c _ _ _ => hasThread c.site.val c.thr
  | .mulhs c _ _ _ => hasThread c.site.val c.thr
  | .mulhu c _ _ _ => hasThread c.site.val c.thr
  | .addi c _ _ _ => hasThread c.site.val c.thr
  | .andi c _ _ _ => hasThread c.site.val c.thr
  | .ori c _ _ _ => hasThread c.site.val c.thr
  | .xori c _ _ _ => hasThread c.site.val c.thr
  | .shli c _ _ _ => hasThread c.site.val c.thr
  | .shri c _ _ _ => hasThread c.site.val c.thr
  | .sari c _ _ _ => hasThread c.site.val c.thr
  | .mov c _ _ => hasThread c.site.val c.thr
  | .lil c _ _ => hasThread c.site.val c.thr
  | .lih c _ _ => hasThread c.site.val c.thr
  | .cmp c _ _ _ _ => hasThread c.site.val c.thr
  | .cmpi c _ _ _ _ => hasThread c.site.val c.thr
  | .bld c _ _ _ => hasThread c.site.val c.thr
  | .bst c _ _ _ => hasThread c.site.val c.thr
  | .bset c _ _ => hasThread c.site.val c.thr
  | .bclr c _ _ => hasThread c.site.val c.thr
  | .btgl c _ _ => hasThread c.site.val c.thr
  | .btas c _ _ _ => hasThread c.site.val c.thr
  | .btac c _ _ _ => hasThread c.site.val c.thr
  | .bcomb c _ _ _ _ _ _ _ => hasThread c.site.val c.thr
  | .bldw c _ _ _ => hasThread c.site.val c.thr
  | .bstw c _ _ _ => hasThread c.site.val c.thr
  | .bitscan c _ _ _ _ _ _ => hasThread c.site.val c.thr
  | .pand c _ _ _ _ _ => hasThread c.site.val c.thr
  | .por c _ _ _ _ _ => hasThread c.site.val c.thr
  | .pxor c _ _ _ _ _ => hasThread c.site.val c.thr
  | .pandn c _ _ _ _ _ => hasThread c.site.val c.thr
  | .movpg c _ => hasThread c.site.val c.thr
  | .movgp c _ => hasThread c.site.val c.thr
  | .ld c _ _ _ => hasThread c.site.val c.thr
  | .ldu c _ _ _ => hasThread c.site.val c.thr
  | .st c _ _ _ => hasThread c.site.val c.thr
  | .ldl c _ _ _ => hasThread c.site.val c.thr
  | .ldlu c _ _ _ => hasThread c.site.val c.thr
  | .stl c _ _ _ => hasThread c.site.val c.thr
  | .ldg c _ _ _ => hasThread c.site.val c.thr
  | .ldgu c _ _ _ => hasThread c.site.val c.thr
  | .stg c _ _ _ => hasThread c.site.val c.thr
  | .amo c _ _ _ _ _ _ _ => hasThread c.site.val c.thr
  | .amog c _ _ _ _ _ _ _ => hasThread c.site.val c.thr
  | .fenceLd c => hasThread c.site.val c.thr
  | .fenceSt c => hasThread c.site.val c.thr
  | .fenceAll c => hasThread c.site.val c.thr
  | .cinv c _ _ => hasThread c.site.val c.thr
  | .cwb c _ _ => hasThread c.site.val c.thr
  | .cflush c _ _ => hasThread c.site.val c.thr
  | .cinvall c => hasThread c.site.val c.thr
  | .cflushall c => hasThread c.site.val c.thr
  | .prefetch c _ _ => hasThread c.site.val c.thr
  | .cwaylk c _ => hasThread c.site.val c.thr
  | .iinv c _ _ => hasThread c.site.val c.thr
  | .iinvall c => hasThread c.site.val c.thr
  | .gather c _ _ _ _ _ _ => hasThread c.site.val c.thr
  | .memfill c _ _ _ _ => hasThread c.site.val c.thr
  | .vadd c _ _ _ _ => hasThread c.site.val c.thr
  | .vsub c _ _ _ _ => hasThread c.site.val c.thr
  | .vmul c _ _ _ _ => hasThread c.site.val c.thr
  | .vfma c _ _ _ _ _ => hasThread c.site.val c.thr
  | .vmin c _ _ _ _ => hasThread c.site.val c.thr
  | .vmax c _ _ _ _ => hasThread c.site.val c.thr
  | .vabs c _ _ _ => hasThread c.site.val c.thr
  | .vneg c _ _ _ => hasThread c.site.val c.thr
  | .vand c _ _ _ _ => hasThread c.site.val c.thr
  | .vor c _ _ _ _ => hasThread c.site.val c.thr
  | .vxor c _ _ _ _ => hasThread c.site.val c.thr
  | .vshl c _ _ _ _ => hasThread c.site.val c.thr
  | .vshr c _ _ _ _ => hasThread c.site.val c.thr
  | .vcmp c _ _ _ _ _ => hasThread c.site.val c.thr
  | .vsel c _ _ _ _ _ => hasThread c.site.val c.thr
  | .vcvt c _ _ _ _ _ => hasThread c.site.val c.thr
  | .vsplit c _ _ _ _ _ => hasThread c.site.val c.thr
  | .vexp2 c _ _ _ => hasThread c.site.val c.thr
  | .vrcp c _ _ _ => hasThread c.site.val c.thr
  | .vrsq c _ _ _ => hasThread c.site.val c.thr
  | .vsmax c _ _ _ _ _ => hasThread c.site.val c.thr
  | .vssum c _ _ _ _ _ _ => hasThread c.site.val c.thr
  | .vexpr c _ _ _ _ _ => hasThread c.site.val c.thr
  | .vrope c _ _ _ _ _ => hasThread c.site.val c.thr
  | .vcmask c _ _ _ _ _ => hasThread c.site.val c.thr
  | .vpmask c _ _ _ _ => hasThread c.site.val c.thr
  | .vperm c _ _ _ _ => hasThread c.site.val c.thr
  | .vbcast c _ _ _ => hasThread c.site.val c.thr
  | .vredsum c _ _ _ => hasThread c.site.val c.thr
  | .vredmax c _ _ _ => hasThread c.site.val c.thr
  | .vmovg c _ _ _ _ => hasThread c.site.val c.thr
  | .vins c _ _ _ _ => hasThread c.site.val c.thr
  | .vld c _ _ _ => hasThread c.site.val c.thr
  | .vst c _ _ _ => hasThread c.site.val c.thr
  | .br c _ => hasThread c.site.val c.thr
  | .brr c _ => hasThread c.site.val c.thr
  | .call c _ => hasThread c.site.val c.thr
  | .callr c _ => hasThread c.site.val c.thr
  | .ret c => hasThread c.site.val c.thr
  | .wspill c => hasThread c.site.val c.thr
  | .tcfg c _ _ => hasThread c.site.val c.thr
  | .tld c _ _ _ _ => hasThread c.site.val c.thr
  | .tst c _ _ _ _ => hasThread c.site.val c.thr
  | .tlda c _ _ _ _ _ => hasThread c.site.val c.thr
  | .tsta c _ _ _ _ _ _ _ => hasThread c.site.val c.thr
  | .tmma c _ _ _ _ _ => hasThread c.site.val c.thr
  | .tscale c _ _ => hasThread c.site.val c.thr
  | .tzero c _ => hasThread c.site.val c.thr
  | .tmova c _ _ _ => hasThread c.site.val c.thr
  | .tmovv c _ _ _ => hasThread c.site.val c.thr
  | .matrixOpBegin site => isCoreSite site
  | .tmmaCommit site => isCoreSite site
  | .residueMismatch site _ => isCoreSite site
  | .csrr c _ _ => hasThread c.site.val c.thr
  | .csrw c _ _ _ => hasThread c.site.val c.thr
  | .csrs c _ _ _ => hasThread c.site.val c.thr
  | .csrc c _ _ _ => hasThread c.site.val c.thr
  | .ropedataWrite c _ _ _ => hasThread c.site.val c.thr
  | .chsbdatAccess c _ _ _ => hasThread c.site.val c.thr
  | .wmsgRead c _ => hasThread c.site.val c.thr
  | .chwaitWrite c _ _ => hasThread c.site.val c.thr
  | .tlbinvWrite c _ _ _ => hasThread c.site.val c.thr
  | .lmsliceWrite c _ _ _ => hasThread c.site.val c.thr
  | .tpendWrite c _ _ _ _ => hasThread c.site.val c.thr
  | .ccwdKick c _ _ _ => hasThread c.site.val c.thr
  | .msgw c _ _ => hasThread c.site.val c.thr
  | .msgsendNonblocking c _ _ _ => hasThread c.site.val c.thr
  | .msgsendBlocking c _ _ _ => hasThread c.site.val c.thr
  | .lock c _ _ => hasThread c.site.val c.thr
  | .unlock c _ => hasThread c.site.val c.thr
  | .bar c _ _ _ => hasThread c.site.val c.thr
  | .bara c _ _ => hasThread c.site.val c.thr
  | .watch c _ _ _ => hasThread c.site.val c.thr
  | .unwatch c _ => hasThread c.site.val c.thr
  | .syncchk c _ => hasThread c.site.val c.thr
  | .hodpost c _ => hasThread c.site.val c.thr
  | .hodcred c _ => hasThread c.site.val c.thr
  | .gate c _ => hasThread c.site.val c.thr
  | .retx c => hasThread c.site.val c.thr
  | .wait c _ => hasThread c.site.val c.thr
  | .waitPark c _ => hasThread c.site.val c.thr
  | .brk c _ => hasThread c.site.val c.thr
  | .eventInterrupt site thr => hasThread site thr
  | .impreciseFaultTaken site thr => hasThread site thr
  | .idleDeadlock site => isCoreSite site
  | .threadStart site thr => hasThread site thr
  | .remoteResultReturn _ => true
  | .storeAck _ => true
  | .icacheLineFill _ => true
  | .unreachableReply _ => true
  | .strbusyReply _ => true
  | .strbusyResend _ _ => true
  | .meshAccessArrival _ => true
  | .coreEvsetStore site thr _ _ => hasThread site thr
  | .lockRequestArrival _ => true
  | .lockRetry site thr => hasThread site thr
  | .unlockArrival _ => true
  | .lockGrantArrival _ => true
  | .ownerResetNotice _ => true
  | .synBcfgWrite _ _ _ => true
  | .barrierAbort _ _ => true
  | .barrierArrival _ => true
  | .combinedArrival _ => true
  | .deviceArrival _ => true
  | .releaseCopyArrival _ => true
  | .releaseNotice _ => true
  | .unitLostNotice _ => true
  | .watchRegistration _ => true
  | .wordWatchMatch _ => true
  | .watchTimeout _ _ => true
  | .unwatchArrival _ => true
  | .watchMessageArrival _ => true
  | .paceTick _ => true
  | .paceRatioUpdate _ => true
  | .paceRateUpdate _ _ => true
  | .topPaceClr _ => true
  | .hbmRequest _ _ => true
  | .hbmRetirePage _ _ => true
  | .hbmRetirePc _ _ => true
  | .pcMigrationEnd _ => true
  | .pcSwitch _ _ => true
  | .hbmScrubRow _ _ => true
  | .stackTempCheck _ _ => true
  | .hbmEccClr _ => true
  | .gruPool _ => true
  | .gruScatter _ => true
  | .gruRequestDone _ => true
  | .gruCtlEn _ _ => true
  | .gruDrainComplete _ => true
  | .packetRoute _ _ => true
  | .streamDelivery _ => true
  | .streamResetNotice _ => true
  | .meshFlitCrcError _ _ _ => true
  | .injectionRateRecover _ => true
  | .mshCtlEn _ _ => true
  | .injectionGateQuiet _ => true
  | .mshErrClr _ => true
  | .hodRctlEn site _ _ _ => isCoreSite site
  | .hodRingDrainComplete site _ => isCoreSite site
  | .hodDescriptorCheck site _ => isCoreSite site
  | .hodDescriptorBegin site _ => isCoreSite site
  | .hodReadData _ => true
  | .hodWriteAck _ => true
  | .hodReadback _ => true
  | .hodGruStatus _ => true
  | .hodCompletion site _ => isCoreSite site
  | .chnEpctlEn site _ _ => hasThreads site
  | .chnEndpointDrainComplete site _ => hasThreads site
  | .tokenCancel site _ _ => hasThreads site
  | .requestMessageArrival _ => true
  | .replyMessageArrival _ => true
  | .msgAckArrival _ => true
  | .msgNackArrival _ => true
  | .blockingSendRetry site thr => hasThread site thr
  | .lnkCtlEn _ _ => true
  | .lnkSleepRequest _ _ => true
  | .lnkFecClr _ => true
  | .lnkErrClr _ => true
  | .controlLaneLock _ => true
  | .controlLockLoss _ => true
  | .linkStateTimeout _ => true
  | .lmMeas _ _ _ => true
  | .lmMeasr _ _ _ => true
  | .lmCap _ _ => true
  | .lmCapack _ => true
  | .dtrainDone _ lanes => lanes.length == 9
  | .dcheckDone _ => true
  | .dataFlitArrival _ _ _ => true
  | .controlFlitArrival _ _ => true
  | .linkNak _ _ _ => true
  | .replayTimeout _ _ => true
  | .recoverDiscardTimeout _ => true
  | .dataLaneFailure _ _ _ => true
  | .lmSpare _ _ _ => true
  | .lmSpareack _ _ => true
  | .lmPwr _ _ => true
  | .lmPwrack _ _ => true
  | .lmRetrain _ => true
  | .lmDown _ => true
  | .portDrainTimeout _ => true
  | .collGo _ _ => true
  | .collAbort _ => true
  | .collUpArrival _ => true
  | .collDownArrival _ => true
  | .collDstWriteAck _ _ => true
  | .grpHctlEn _ _ => true
  | .bridgeDrainComplete => true
  | .grpHintStore _ => true
  | .grpStatClr => true
  | .grpHstatClr => true
  | .hctlDbell _ _ _ _ => true
  | .hctlRegrd _ _ => true
  | .hctlRegwr _ _ _ => true
  | .hctlSreset _ _ _ => true
  | .errfwdArrival _ => true
  | .imgLoad => true
  | .imgDrain => true
  | .imgDrainComplete => true
  | .imgDrainTimeout => true
  | .imgApply => true
  | .imgUndrain => true
  | .imgRun => true
  | .imgAbort => true
  | .imgdata _ _ _ => true
  | .imgcmd _ _ _ => true
  | .errorRecordArrival _ => true
  | .healthViewCompare => true
  | .responseTimeout _ => true
  | .mgtErrqEnable _ => true
  | .mgtErrconsClr _ => true
  | .fenceCore _ => true
  | .fenceRouter _ => true
  | .fenceNode _ => true
  | .fenceGru _ => true
  | .fencePort _ => true
  | .fenceSyncUnit _ => true
  | .fenceCollEngine _ => true
  | .lcadv _ => true
  | .genid _ => true
  | .provision _ _ => true
  | .returnDev _ _ => true
  | .eol _ => true
  | .advsvn _ => true
  | .secAttest _ => true
  | .kill _ => true
  | .dbgChallenge => true
  | .dbgUnlock _ => true
  | .alarmVolt => true
  | .alarmTemp => true
  | .alarmTamper => true
  | .poweron _ => true
  | .inputUndervoltage => true
  | .inputWarning => true
  | .railUndervoltage _ => true
  | .railWarning _ => true
  | .railGood _ _ => true
  | .resetNLow => true
  | .resetNGlitch => true
  | .resetStretchEnd _ => true
  | .clockGood _ => true
  | .refclkFailure => true
  | .startBudgetExpiry => true
  | .swreset => true
  | .bootok => true
  | .mkick => true
  | .force _ => true
  | .mgtWatchdogExpiry => true
  | .ccWatchdogExpiry _ => true
  | .thermalTrip => true
  | .throttleStart _ _ => true
  | .throttleTick _ _ => true
  | .throttleEnd _ _ => true
  | .powerWindow _ _ => true
  | .kilnGo _ _ _ => true
  | .kilnSliceDone _ => true
  | .kilnBudgetExpiry => true
  | .dbgHalt site _ => hasThreads site
  | .haltTaken site thr => hasThread site thr
  | .dbgResume site _ => hasThreads site
  | .dbgStep site _ => hasThreads site
  | .dbgDiscsb site _ => hasThreads site
  | .dbgdataAccess site _ => hasThreads site
  | .jtagIdcode => true
  | .jtagSamplePreload _ => true
  | .jtagExtest _ => true
  | .jtagBypass => true
  | .dbgaccRead _ => true
  | .dbgaccWrite _ _ => true
  | .dbgaccDebugReset => true
  | .dbgaccCoreReset _ => true
  | .otpprog _ _ => true
  | .scansel _ => true
  | .i3cIdent _ => true
  | .i3cSensor _ _ _ => true
  | .i3cRegrd _ _ => true
  | .i3cRegwr _ _ _ => true
  | .i3cAttest _ _ => true
  | .i3cStage _ _ _ => true
  | .i3cImgcmd _ _ _ => true
  | .i3cFlashrd _ _ _ => true
  | .i3cFlashwr _ _ _ => true
  | .i3cFlasherase _ _ => true
  | .i3cReset _ => true
  | .i3cResponseRead => true
  | .i3cResetTimeout => true
  | .sensorRefresh _ => true
  | .coreTrcctlEnable site _ => hasThreads site
  | .registerWrite _ _ _ => true
  | .spareLaneFailure _ => true
  | .lmRequestRepeat _ _ => true
  | .railRecovery _ => true
  | .resetSourceEnd _ => true
  | .coreResetEnd _ => true
  | .mgtRestartDone => true
  | .imgrptArrival _ _ _ _ _ => true
  | .imgackArrival _ _ => true

end Sys2Proof
end

