-- ==== Sys2Proof/Safety.lean ====
section
/-! DEFINITION. The terms in which statements speak of runs: when a word of a thread issues, when its registers can be used, what a word that
completes leaves, and the properties of states that steps keep. -/

namespace Sys2Proof.Safety

open Sys2Proof Sys2Proof.Machine

/-! ### Properties of states -/

/-- The memory of the HBM stacks is in its canonical form: addresses strictly rising, no entry equal to what an unlisted address reads
as. -/
def MemoryOk (s : State) : Prop := Memory.wf s.hbm = true

/-- No access of the debugger or of the board waits, and no thread waits for an access that is over: there is nothing that the end of a
word sets going (23 R571). -/
def NothingHeld (s : State) : Prop :=
  s.io.running = none ∧ s.io.accHeld = none ∧ ∀ e ∈ s.cores, ∀ t : Fin 4, overlapOver (coreThr e.2 t) = false

/-! ### Words -/

/-- The thread of a word, in a state. -/
def thr (c : Ctx) (s : State) : Thread := getThr s c.site.val c.thr

/-- The word at the pc of a thread that holds the slot is fetched: no halt, no imprecise fault and no event comes first (08 R228), and the
fetch leaves the state `f`. -/
structure Issues (c : Ctx) (s f : State) : Prop where
  thread : hasThread c.site.val c.thr = true
  slot : canIssue s c.site.val c.thr = true
  noHalt : ((getCore s c.site.val).dbg.pendHalt.getLsbD c.thr.val && mayHalt s (thr c s)) = false
  noFault : acceptsAsync (thr c s) = true → (thr c s).imprecise = none
  noEvent : deliverableBit (thr c s) = none
  fetch : ∃ w, fetchWord c.site.val c.thr (modThr c.site.val c.thr (fun h => { h with abandoned := 0 }) s) = .word f w

/-- A long word whose guard holds (03 R78). -/
def LongOn (c : Ctx) (f : State) : Prop :=
  ∃ neg gp, c.form = .long neg gp ∧ (readP (thr c f) gp != neg) = true

/-- A long word whose guard is false. -/
def LongOff (c : Ctx) (f : State) : Prop :=
  ∃ neg gp, c.form = .long neg gp ∧ (readP (thr c f) gp != neg) = false

/-- General registers that are read and written, and vector registers that are read, can be used: none awaits a result, none that is read is
poisoned (05 R129, 08 R222). -/
structure Usable (h : Thread) (reads writes vecs : List Reg) : Prop where
  noneAwaited : ∀ k ∈ keysOf h reads ++ keysOf h writes, keyPending h k = false
  clean : ∀ e ∈ h.poisonG, ¬ e.1 ∈ keysOf h reads
  cleanVec : ∀ e ∈ h.poisonV, ∀ v ∈ vecs, v.val ≠ e.1

/-- The state in which a word has its effect: it has been counted (23 R573, event 2). -/
def issued (c : Ctx) (f : State) : State := countPerf c.site.val 2 c.thr 1 f

/-- The same for a long word of the vector unit, which event 9 counts too. -/
def issuedVec (c : Ctx) (f : State) : State := countPerf c.site.val 9 c.thr 1 (issued c f)

/-- A word ends with the pc at an address: a step of the debugger is over, and accesses that were held are tried again (23 R570, R571). -/
def endAt (c : Ctx) (a : Word) (s : State) : State := afterWord (stepDone c.site.val c.thr (setPc c.site.val c.thr a s))

/-- A word ends and the thread goes on with the next word. -/
def retire (c : Ctx) (s : State) : State := endAt c ((thr c s).pc + 8) s

/-- The word `i`, fetched in `f`, has the effect `eff` and ends. -/
def Does (i : Instr) (c : Ctx) (s f : State) (reads writes vecs : List Reg) (eff : State → State) : Prop :=
  Usable (thr c f) reads writes vecs → exec i s = .next (retire c (eff (issued c f)))

/-- A vector word `i` has the effect `eff` and ends. -/
def DoesVec (i : Instr) (c : Ctx) (s f : State) (reads writes vecs : List Reg) (eff : State → State) : Prop :=
  Usable (thr c f) reads writes vecs → exec i s = .next (retire c (eff (issuedVec c f)))

/-- The word `i` transfers control to `a` with the effect `eff`. -/
def Jumps (i : Instr) (c : Ctx) (s f : State) (reads writes : List Reg) (a : Word) (eff : State → State) : Prop :=
  Usable (thr c f) reads writes [] → exec i s = .next (endAt c a (eff (issued c f)))

/-- The word `i` has its effect and waits in a long stall (05 R128). -/
def Holds (i : Instr) (c : Ctx) (s f : State) (reads writes : List Reg) (w : Wait) (eff : State → State) : Prop :=
  Usable (thr c f) reads writes [] → exec i s = .next (afterWord (stallThread c.site.val c.thr w (eff (issued c f))))

/-- The word `i` raises an exception of the word at its own level or another: code, SUB, address, TAG. -/
def Raises (i : Instr) (c : Ctx) (s f : State) (code sub : Nat) (ea : Word) (tag : Nat) : Prop :=
  exec i s = .next (afterWord (raise c.site.val c.thr false 0 code sub ea tag f))

/-- The thread may reach bit `b` of the bit-variable store: the shared part, or its own quarter of the rest (03 Table 3.9). -/
def Reaches (t : Fin 4) (b : Nat) : Prop := b < 0x10000 ∨ (b - 0x10000) / 0x4000 = t.val

/-- A resumable instruction starts with its first unit: none is under way, and cs.progress is not valid (08 R231, R232). -/
def AtFirstUnit (h : Thread) : Prop := h.mid = none ∧ bit h.exc.progress 63 = false

/-- The units from `k` on, `n` of them, none of which ends the instruction: the state after them, none where one traps or ends it. -/
def unitsFrom (unit : Nat → State → Except Trap (State × Bool)) : Nat → Nat → State → Option State
  | _, 0, s => some s
  | k, n + 1, s =>
    match unit k s with
    | .ok (u, false) => unitsFrom unit (k + 1) n u
    | _ => none

/-- cs.progress becomes 0. -/
def clearProgress (c : Ctx) (s : State) : State := modExc c.site.val c.thr (fun e => { e with progress := 0 }) s

/-- The thread of a word is not being stepped by the debugger, and nothing is held. -/
def Undisturbed (c : Ctx) (s : State) : Prop := (thr c s).stepOne = false ∧ NothingHeld s

/-! ### Accesses of the board and of the debugger -/

/-- What stands in the way of an access of 8 B that the management island makes for I3C or JTAG, as a code of the fault table, 0 where nothing does: at a
register block the level first, then absence, address and alignment (10 R274 to R276); in memory the alignment, an absent node or core, the reach
of a window, and, for a read, an uncorrectable byte (05 R137, 10 R271, R272, 23 R564, R568). -/
def islandCode (s : State) (a : Nat) (w : Option Word) : Nat :=
  if isRegAddr a then
    (if atLeast (islandLevel s) (regLevel a w.isSome) then regFault s a 8 w.isSome else 2)
  else if a % 8 ≠ 0 then 9
  else match regionOf a with
    | .hbm => if (hbmNodeFor s a).isNone then 6 else if w.isNone && (hbmFirstBad s a 8).isSome then 0xE else 0
    | .window site off =>
      if windowRefusal s site off 8 ≠ 0 then windowRefusal s site off 8 else if w.isNone && (lmFirstBad s site off 8).isSome then 0xE else 0
    | _ => 8

/-- The word that memory holds at an address that the island reaches. -/
def islandWord (s : State) (a : Nat) : Word :=
  match regionOf a with
  | .window site off => BitVec.ofNat 64 (leNat (lmReadN s site off 8))
  | _ => BitVec.ofNat 64 (leNat (hbmReadN s a 8))

/-- A register whose access is no plain read or write of its block: CORE_DBGDATA, which may wait, and the counters of step events. -/
def ownAccess (s : State) (a : Nat) : Bool :=
  match blockOf a with
  | some (.core _, off) => off == 0x818 || (inArray off 0x908 8 4).isSome
  | _ => false

end Sys2Proof.Safety
end

