-- ==== Sys2Proof/Certificates/Slice0/Obligations.lean ====
section
/-! DEFINITION. The statements about the model, for the provers. Every statement is about all states and all operands that meet its
hypotheses; a word that issues is fetched first, `f` being the state that the fetch leaves. -/

open Sys2Proof Sys2Proof.Machine Sys2Proof.Safety

/-! ### The queue -/

/-- A step takes the command at the front of the queue and executes it with the rest of the queue. -/
def Obligations.StepRunsFront : Prop :=
  ∀ (i : Instr) (rest : List Instr) (s : State), s.pending = i :: rest → step s = exec i { s with pending := rest }

/-! ### INT words (03 R70, 04 Table 4.11) -/

/-- The integer words: the value that each writes into `d`. Shifts are by bits [5:0] of a register or by an immediate of 0 to 63, immediates are sign-
extended, and LIH keeps the lower half (04 R109, Table 4.11). CMP and CMPI write the predicate with the condition of their field, and p0 stays 1 (03
R77, 04 Table 4.11). -/
def Obligations.IntegerWordsCompute : Prop :=
  (
  ∀ (c : Ctx) (s f : State), Issues c s f → LongOn c f → ∀ (d a b : Reg) (imm : BitVec 24) (k : BitVec 6) (w : BitVec 32),
    let x := grAt (atOf c) f a
    let y := grAt (atOf c) f b
    let z := imm.signExtend 64
    let n := y.toNat % 64
    let puts := fun (i : Instr) (v : Word) => Does i c s f [a, b] [d] [] (setGr (atOf c) d v)
    let puts1 := fun (i : Instr) (reads : List Reg) (v : Word) => Does i c s f reads [d] [] (setGr (atOf c) d v)
    puts (.add c d a b) (x + y) ∧ puts (.sub c d a b) (x - y) ∧ puts (.and c d a b) (x &&& y) ∧ puts (.or c d a b) (x ||| y) ∧
    puts (.xor c d a b) (x ^^^ y) ∧ puts (.andn c d a b) (x &&& ~~~ y) ∧ puts (.shl c d a b) (x <<< n) ∧
    puts (.shr c d a b) (x >>> n) ∧ puts (.sar c d a b) (x.sshiftRight n) ∧ puts (.mul c d a b) (x * y) ∧
    puts (.mulhs c d a b) (BitVec.ofInt 64 (x.toInt * y.toInt / 2 ^ 64)) ∧
    puts (.mulhu c d a b) (BitVec.ofNat 64 (x.toNat * y.toNat / 2 ^ 64)) ∧
    puts1 (.addi c d a imm) [a] (x + z) ∧ puts1 (.andi c d a imm) [a] (x &&& z) ∧ puts1 (.ori c d a imm) [a] (x ||| z) ∧
    puts1 (.xori c d a imm) [a] (x ^^^ z) ∧ puts1 (.shli c d a k) [a] (x <<< k.toNat) ∧ puts1 (.shri c d a k) [a] (x >>> k.toNat) ∧
    puts1 (.sari c d a k) [a] (x.sshiftRight k.toNat) ∧ puts1 (.mov c d a) [a] x ∧ puts1 (.lil c d w) [] (w.signExtend 64) ∧
    puts1 (.lih c d w) [d] (w ++ (grAt (atOf c) f d).setWidth 32)
  ) ∧
  (
  ∀ (c : Ctx) (s f : State), Issues c s f → LongOn c f → ∀ (pd : PReg) (a b : Reg) (imm : BitVec 24),
    let x := grAt (atOf c) f a
    let y := grAt (atOf c) f b
    let z := imm.signExtend 64
    let sets := fun (i : Instr) (reads : List Reg) (p : Bool) => Does i c s f reads [] [] (setP (atOf c) pd p)
    (sets (.cmp c .eq pd a b) [a, b] (decide (x = y)) ∧ sets (.cmp c .ne pd a b) [a, b] (decide (x ≠ y)) ∧
     sets (.cmp c .lt pd a b) [a, b] (decide (x.toInt < y.toInt)) ∧ sets (.cmp c .ltu pd a b) [a, b] (decide (x.toNat < y.toNat)) ∧
     sets (.cmp c .ge pd a b) [a, b] (decide (y.toInt ≤ x.toInt)) ∧ sets (.cmp c .geu pd a b) [a, b] (decide (y.toNat ≤ x.toNat))) ∧
    (sets (.cmpi c .eq pd a imm) [a] (decide (x = z)) ∧ sets (.cmpi c .ne pd a imm) [a] (decide (x ≠ z)) ∧
     sets (.cmpi c .lt pd a imm) [a] (decide (x.toInt < z.toInt)) ∧ sets (.cmpi c .ltu pd a imm) [a] (decide (x.toNat < z.toNat)) ∧
     sets (.cmpi c .ge pd a imm) [a] (decide (z.toInt ≤ x.toInt)) ∧ sets (.cmpi c .geu pd a imm) [a] (decide (z.toNat ≤ x.toNat))) ∧
    ∀ (v : Bool) (u : State), readP (thrAt (atOf c) (setP (atOf c) 0 v u)) 0 = true
  )

/-! ### BIT words (03 R77 to R84, 04 Table 4.12) -/

/-- The words on one bit: its address is (a + u) mod 2^17, its value is the one before the word, and a thread that may not reach it draws a protection
fault with the bit's address. A bit that is written reads as written, and every other bit reads as before. -/
def Obligations.BitWordsAct : Prop :=
  (
  ∀ (c : Ctx) (s f : State), Issues c s f → LongOn c f → ∀ (p : PReg) (a : Reg) (u : BitVec 17),
    let x := atOf c
    let b := ((grAt x f a).toNat + u.toNat) % 2 ^ 17
    let v := readBit (bitsAt x f) b
    let acts := fun (i : Instr) (eff : State → State) => Does i c s f [a] [] [] eff
    (Reaches c.thr b →
      acts (.bld c p a u) (setP x p v) ∧ acts (.bst c p a u) (setBit x b (readP (thr c f) p)) ∧
      acts (.bset c a u) (setBit x b true) ∧ acts (.bclr c a u) (setBit x b false) ∧ acts (.btgl c a u) (setBit x b (!v)) ∧
      acts (.btas c p a u) (fun st => setBit x b true (setP x p v st)) ∧
      acts (.btac c p a u) (fun st => setBit x b false (setP x p v st))) ∧
    (¬ Reaches c.thr b → Usable (thr c f) [a] [] [] →
      ∀ i ∈ [Instr.bld c p a u, .bst c p a u, .bset c a u, .bclr c a u, .btgl c a u, .btas c p a u, .btac c p a u],
        Raises i c s f 0xA 0 (BitVec.ofNat 64 b) 0)
  ) ∧
  (
  ∀ (x : At) (b b' : Nat) (v : Bool) (u : State),
    readBit (bitsAt x (setBit x b v u)) b' = if b' = b then v else readBit (bitsAt x u) b'
  )

/-- BCOMB writes one bit with a function of two others, BLDW and BSTW move a word of the bit store; the predicate words combine predicates, whose
inputs may be complemented, and MOVPG and MOVGP move them all: p0 reads 1 (03 R77, R79, R83). BITSCAN gives the address of the first of n bits from b
on that holds v, and all ones where none does; it looks no further than the end of b's region. A command that performs at least that many units ends
it. -/
def Obligations.LogicWordsCompute : Prop :=
  (
  ∀ (c : Ctx) (s f : State), Issues c s f → LongOn c f → ∀ (a b r d : Reg) (i j k : BitVec 9) (u : BitVec 11) (pd pp pq : PReg) (na nb : Bool),
    let x := atOf c
    let m := readP (thr c f) pp != na
    let n := readP (thr c f) pq != nb
    let sets := fun (i : Instr) (w : Bool) => Does i c s f [] [] [] (setP x pd w)
    let bi := ((grAt x f a).toNat + i.toNat) % 2 ^ 17
    let bj := ((grAt x f b).toNat + j.toNat) % 2 ^ 17
    let bk := ((grAt x f r).toNat + k.toNat) % 2 ^ 17
    let p := readBit (bitsAt x f) bj
    let q := readBit (bitsAt x f) bk
    let w := ((grAt x f a).toNat + u.toNat) % 2048
    let combines := fun (op : LogicOp) (v : Bool) => Does (.bcomb c op a i b j r k) c s f [a, b, r] [] [] (setBit x bi v)
    (Reaches c.thr bi → Reaches c.thr bj → Reaches c.thr bk →
      combines .and (p && q) ∧ combines .or (p || q) ∧ combines .xor (p != q) ∧ combines .andn (p && !q)) ∧
    (Reaches c.thr (64 * w) →
      Does (.bldw c d a u) c s f [a] [d] [] (setGr x d (mget (bitsAt x f) w 0)) ∧
      Does (.bstw c d a u) c s f [a, d] [] [] (modCore x.1 (fun e => { e with bits := mset e.bits w (grAt x f d) }))) ∧
    sets (.pand c pd pp pq na nb) (m && n) ∧ sets (.por c pd pp pq na nb) (m || n) ∧ sets (.pxor c pd pp pq na nb) (m != n) ∧
    sets (.pandn c pd pp pq na nb) (m && !n) ∧
    Does (.movpg c d) c s f [] [d] [] (setGr x d ((thr c f).preds.setWidth 64 ||| 1)) ∧
    Does (.movgp c a) c s f [a] [] [] (modThr x.1 x.2 (fun h => { h with preds := (grAt x f a).setWidth 8 ||| 1 }))
  ) ∧
  (
  ∀ (c : Ctx) (s f : State), Issues c s f → LongOn c f → AtFirstUnit (thr c f) →
    ∀ (d a n : Reg) (u : BitVec 17) (v : Bool) (units : Nat),
    let x := atOf c
    let b := ((grAt x f a).toNat + u.toNat) % 2 ^ 17
    let count := min ((grAt x f n).toNat % 2 ^ 17) (bitRegionEnd b - b)
    let found := (List.range count).find? (fun k => readBit (bitsAt x f) (b + k) == v)
    let result := match found with | some k => BitVec.ofNat 64 (b + k) | none => BitVec.allOnes 64
    Reaches c.thr b → count ≤ units →
      Does (.bitscan c d a u n v units) c s f [a, n] [d] [] (fun st => clearProgress c (setGr x d result st))
  )

/-! ### Guards and pairs (03 R65, R68, R78; 04 R105) -/

/-- A long word whose guard is false only advances the pc; a resumable one leaves cs.progress 0 (03 R78). The two operations of a pair read the state
before the word and take effect together, whichever slot's command is sent (03 R65, R68); two operations of one class are no pair, and draw the
illegal-instruction fault of slot 1. A word in the form in which memory holds it is the operation that its bits spell: it is performed in the form of bit 63
with its guard, a word that no table describes draws the illegal-instruction fault, with PAIR = 1 where bit 31 of a pair is set, and a command of another
operation issues nothing (03 R63, 04 R104 to R119, R123). That last is the model's choice (assumption log 8). -/
def Obligations.GuardsAndPairsAct : Prop :=
  (
  ∀ (c : Ctx) (s f : State), Issues c s f → LongOff c f →
    ∀ (d a b r : Reg) (p : PReg) (imm : BitVec 24) (u : BitVec 17) (disp : BitVec 26) (lg : Fin 4) (v : Bool) (units : Nat),
    (∀ i ∈ [Instr.add c d a b, .mulhu c d a b, .addi c d a imm, .cmp c .lt p a b, .bld c p a u, .bset c a u, .movgp c a,
        .ldl c lg d (.base a imm), .stl c lg d (.base a imm), .st c lg d (.index a b), .fenceAll c, .br c disp, .callr c a,
        .ret c, .retx c, .lock c p a, .wait c a, .brk c imm],
      exec i s = .next (retire c (issued c f))) ∧
    ∀ i ∈ [Instr.bitscan c d a u b v units, .gather c lg d a b r units, .memfill c d a b units],
      exec i s = .next (retire c (clearProgress c (issued c f)))
  ) ∧
  (
  ∀ (c : Ctx) (s f : State), Issues c s f → ∀ (d a b : Reg) (pd p q : PReg) (g k : Fin 4),
    let x := atOf c
    let first := { c with form := .pair 0 g k (.plogic .and pd p q) }
    let second := { c with form := .pair 1 k g (.alu .add d a b) }
    let same := { c with form := .pair 0 g k (.alu .sub a d b) }
    let h := thr c f
    let both := setP x pd (readP h p && readP h q) (setGr x d (grAt x f a + grAt x f b) (countPerf c.site.val 3 c.thr 1 (issued c f)))
    (Usable h [a, b] [d] [] → readP h (Fin.ofNat 8 g.val) = true → readP h (Fin.ofNat 8 k.val) = true →
      exec (.add first d a b) s = .next (retire c both) ∧ exec (.pand second pd p q false false) s = .next (retire c both)) ∧
    exec (.add same d a b) s = .next (afterWord (raise c.site.val c.thr true 1 1 0 0 0 f))
  ) ∧
  (
  ∀ (c : Ctx) (s f : State) (w : Word), c.form = .fetched → Issues c s f →
    fetchWord c.site.val c.thr (modThr c.site.val c.thr (fun h => { h with abandoned := 0 }) s) = .word f w →
    ∀ (d a b t : Reg) (lg : Fin 4) (m : AMode) (disp : BitVec 26) (csr : BitVec 12) (slot : Fin 16) (v : VFields),
    let words := fun (k : Ctx) => [Instr.add k d a b, .mov k d a, .ldl k lg d m, .vadd k v d a b, .br k disp, .ret k, .tcfg k slot a, .csrw k d csr a, .lock k 0 a,
      .bar k d a b, .gather k lg d a b t 0]
    let illegal := fun (pair : Bool) (n : Nat) => ∀ i ∈ words c, exec i s = .next (afterWord (raise c.site.val c.thr pair n 1 0 0 0 f))
    (bit w 63 = true → bit w 31 = true → illegal true 0) ∧
    (bit w 63 = false → (7 ≤ fld w 62 59 ∨ fld w 62 59 = 0 ∧ fld w 58 52 = 0x0C ∨ fld w 62 59 = 0 ∧ fld w 58 52 = 0 ∧ fld w 32 0 ≠ 0) → illegal false 0) ∧
    (bit w 63 = false → decodeLong c w = none → illegal false 0) ∧
    (∀ sg0 op0 sg1 op1 n, decodeForm w = .pair sg0 op0 sg1 op1 → pairFault (specShort (atOf c) op0) (specShort (atOf c) op1) = some n → illegal true n) ∧
    (fld w 63 52 = 0 → fld w 32 0 = 0 → fld w 47 43 = d.val → fld w 42 38 = a.val → fld w 37 33 = b.val →
      (readP (thr c f) (Fin.ofNat 8 (fld w 50 48)) != bit w 51) = true →
      Does (.add c d a b) c s f [a, b] [d] [] (setGr (atOf c) d (grAt (atOf c) f a + grAt (atOf c) f b))) ∧
    (∀ neg gp, decodeForm w = .long neg gp → ∀ i ∈ (words c).zip (words { c with form := .long neg gp }), decodeLong c w = some i.1 → exec i.1 s = exec i.2 s) ∧
    (∀ sg0 op0 sg1 op1, decodeForm w = .pair sg0 op0 sg1 op1 → pairFault (specShort (atOf c) op0) (specShort (atOf c) op1) = none →
      (shortInstr c op0 = some (.add c d a b) → exec (.add c d a b) s = exec (.add { c with form := .pair 0 sg0 sg1 op1 } d a b) s) ∧
      (shortInstr c op0 ≠ some (.ret c) → shortInstr c op1 = some (.ret c) → exec (.ret c) s = exec (.ret { c with form := .pair 1 sg1 sg0 op0 }) s)) ∧
    (∀ j, bit w 63 = false → decodeLong c w = some j → ∀ i ∈ words c, i ≠ j → exec i s = .next s)
  )

/-! ### MEM words (03 R85 to R98; 04 Table 4.13; 09 R245 to R263, R597) -/

/-- LDL, LDLU and STL that pass their checks: a load writes the sign- or zero-extended bytes, poisoned where they lie in an uncorrectable word, of
which the core posts a record; a store writes the low bytes of its register; post-modify moves the base on. LDL, LDLU and STL outside the local memory draw code 8, unaligned ones code
9, those into the slice of another thread or, at the user level, into the guarded range code 0xA, in this order; cs.eaddr is the effective address.
STL changes the bytes that it stores and no other byte of the local memory, no byte of any other local memory and no byte of the HBM. -/
def Obligations.LocalAccessWordsAct : Prop :=
  (
  ∀ (c : Ctx) (s f : State), Issues c s f → LongOn c f → ∀ (lg : Fin 4) (d : Reg) (m : AMode),
    let x := atOf c
    let n := 2 ^ lg.val
    let ea := effAddr x f n m
    let dst := grKey (thr c f).win d
    let v := leNat (lmReadN f x.1 ea.toNat n)
    let poison := if (lmFirstBad f x.1 ea.toNat n).isSome then some ea else none
    let loads := fun (i : Instr) (signed : Bool) => Does i c s f (modeReads m) (d :: modeBase m) []
      (fun st => postModify x f m (setLoaded x.1 x.2 dst (extendLoad signed n v) poison (noteLm x.1 ea.toNat n st)))
    ea.toNat < lmBytes → ea.toNat % n = 0 → (isCcSite x.1 && lvlOf (thr c f) == .user) = false → ownReach f x.1 x.2 ea.toNat n = true →
    (modeLegal false (some d) m = true → loads (.ldl c lg d m) true ∧ loads (.ldlu c lg d m) false) ∧
    (modeLegal false none m = true → Does (.stl c lg d m) c s f (d :: modeReads m) (modeBase m) []
      (fun st => postModify x f m (ownStore x.1 x.2 ea.toNat ea (bytesOf (grAt x f d) n) st)))
  ) ∧
  (
  ∀ (c : Ctx) (s f : State), Issues c s f → LongOn c f → ∀ (lg : Fin 4) (d : Reg) (m : AMode), modeLegal false (some d) m = true →
    let x := atOf c
    let n := 2 ^ lg.val
    let ea := effAddr x f n m
    let code := if lmBytes ≤ ea.toNat then 8 else if ea.toNat % n ≠ 0 then 9 else 0xA
    (lmBytes ≤ ea.toNat ∨ ea.toNat % n ≠ 0 ∨ ownReach f x.1 x.2 ea.toNat n = false) →
    (Usable (thr c f) (modeReads m) (d :: modeBase m) [] →
      Raises (.ldl c lg d m) c s f code 0 ea 0 ∧ Raises (.ldlu c lg d m) c s f code 0 ea 0) ∧
    (Usable (thr c f) (d :: modeReads m) (modeBase m) [] → Raises (.stl c lg d m) c s f code 0 ea 0)
  ) ∧
  (
  ∀ (c : Ctx) (s f : State), Issues c s f → LongOn c f → Undisturbed c f → ∀ (lg : Fin 4) (d a : Reg) (disp : BitVec 24),
    let x := atOf c
    let n := 2 ^ lg.val
    let ea := grAt x f a + disp.signExtend 64
    let o := ea.toNat
    Usable (thr c f) [d, a] [] [] → o < lmBytes → o % n = 0 → (isCcSite x.1 && lvlOf (thr c f) == .user) = false →
    ownReach f x.1 x.2 o n = true → (getCore f x.1).lmBad = [] →
    ∃ t, exec (.stl c lg d (.base a disp)) s = .next t ∧ t.hbm = f.hbm ∧
      (∀ k, Memory.read (getCore t x.1).lm k =
        if o ≤ k ∧ k < o + n then (bytesOf (grAt x f d) n).getD (k - o) 0 else Memory.read (getCore f x.1).lm k) ∧
      ∀ w, w ≠ x.1 → ∀ k, Memory.read (getCore t w).lm k = Memory.read (getCore f w).lm k
  )

/-- Loads, stores and atomic operations on device and group addresses that pass their checks, that no earlier access of the thread holds back and that
find a place: each makes its access, and post-modify moves the base on. AMO and AMOG that pass their checks, find their places and whose line is dirty
in no coherent cache make their operation: `r` is used by CAS alone. -/
def Obligations.DeviceAccessWordsAct : Prop :=
  (
  ∀ (c : Ctx) (s f : State), Issues c s f → LongOn c f → ∀ (d : Reg) (m : AMode) (lg : Fin 4) (v : Access),
    let x := atOf c
    let n := 2 ^ lg.val
    let ea := effAddr x f n m
    let dst := grKey (thr c f).win d
    let loads := fun (i : Instr) (signed : Bool) => Does i c s f (modeReads m) (d :: modeBase m) []
      (fun st => postModify x f m (doLoad x.1 x.2 v dst signed (noteAccess x.1 .load v st)))
    let stores := fun (i : Instr) => Does i c s f (d :: modeReads m) (modeBase m) []
      (fun st => postModify x f m (doStore x.1 x.2 v (bytesOf (grAt x f d) v.n) (noteAccess x.1 .store v st)))
    overlapWait f x.1 x.2 v = none →
    ((takesLoadPlace f x.1 v = true → loadCount (thr c f) < 8) →
      (modeLegal true (some d) m = true → checkDevice f x.1 x.2 .load false ea n = .ok v →
        loads (.ld c lg d m) true ∧ loads (.ldu c lg d m) false) ∧
      (modeLegal false (some d) m = true → checkGroup f x.1 x.2 .load false ea n = .ok v →
        loads (.ldg c lg d m) true ∧ loads (.ldgu c lg d m) false)) ∧
    ((takesStorePlace f x.1 v = true → storeCount (thr c f) < 16) → modeLegal false none m = true →
      (checkDevice f x.1 x.2 .store false ea n = .ok v → stores (.st c lg d m)) ∧
      (checkGroup f x.1 x.2 .store false ea n = .ok v → stores (.stg c lg d m)))
  ) ∧
  (
  ∀ (c : Ctx) (s f : State), Issues c s f → LongOn c f → ∀ (wide : Bool) (op : Fin 10) (d a b r : Reg) (disp : BitVec 24) (v : Access),
    let x := atOf c
    let n := if wide then 8 else 4
    let ea := grAt x f a + disp.signExtend 64
    let acts := fun (i : Instr) => Does i c s f (if op = 9 then [a, b, r] else [a, b]) [d] []
      (fun st => doAmo x.1 x.2 v (grKey (thr c f).win d) op (grAt x f b) (grAt x f r) (noteAccess x.1 .store v st))
    (op = 9 ∨ r = 0) → overlapWait f x.1 x.2 v = none → ((ownOffset x.1 v).isNone = true → loadCount (thr c f) < 8) →
    (v.dev.isSome = true → storeCount (thr c f) < 16) →
    (v.group = false → cacheable f x.1 v.a = true → dirtyUnion f x.1 (v.a / 64) = none) →
    (checkDevice f x.1 x.2 .store true ea n = .ok v → acts (.amo c wide op d a disp b r)) ∧
    (checkGroup f x.1 x.2 .store true ea n = .ok v → acts (.amog c wide op d a disp b r))
  )

/-- An access by the own window is made in the own local memory; one that is not cached leaves as one request packet with the address, and is
outstanding under the request's number; the memories keep their bytes until the request arrives. -/
def Obligations.AccessesAreMadeOrSent : Prop :=
  ∀ (site : Nat) (t : Fin 4) (v : Access) (dst : Option Nat) (signed : Bool) (bs : List Byte) (s : State),
    (∀ off, ownOffset site v = some off →
      doLoad site t v dst signed s = setLoaded site t dst (extendLoad signed v.n (leNat (lmReadN s site off v.n)))
        (if (lmFirstBad s site off v.n).isSome then some v.ea else none) (noteLm site off v.n s) ∧
      doStore site t v bs s = ownStore site t off v.ea bs s) ∧
    (ownOffset site v = none → accessPolicy s site v = 0 →
      let u := doLoad site t v dst signed s
      let w := doStore site t v bs s
      (∃ p, u.packets = s.packets ++ [p] ∧ p.body = .memReq s.nextReq t (.load v.n) ∧ p.addr = v.a ∧ p.ssite = site ∧
        p.ddev = (accessTarget s v).1 ∧ p.dsite = (accessTarget s v).2 ∧ p.lvl = v.lvl) ∧
      (∃ p, w.packets = s.packets ++ [p] ∧ p.body = .memReq s.nextReq t (.store bs) ∧ p.addr = v.a ∧ p.ssite = site ∧
        p.ddev = (accessTarget s v).1 ∧ p.dsite = (accessTarget s v).2 ∧ p.lvl = v.lvl) ∧
      (getThr u site t).loads = (getThr s site t).loads ++ [outstanding v s.nextReq dst signed false] ∧
      (getThr w site t).stores = (getThr s site t).stores ++ [outstanding v s.nextReq none false false] ∧
      u.nextReq = s.nextReq + 1 ∧ w.nextReq = s.nextReq + 1 ∧ (getThr u site t).gregs = (getThr s site t).gregs ∧
      u.hbm = s.hbm ∧ w.hbm = s.hbm ∧ (getCore u site).lm = (getCore s site).lm ∧ (getCore w site).lm = (getCore s site).lm)

/-- A fence whose earlier accesses have been answered completes; FENCE.LD with a load outstanding waits in the fence stall. The words on one cache
line, after the thread's earlier accesses to it: CWB writes dirty bytes back, CINV discards the line (at the user level after a write-back), CFLUSH
does both, IINV leaves the line in no instruction cache of the core; a data line that is never cached is left alone (03 R95; 09 R258, Table 9.5). The
words on whole caches above the user level, where no access of the thread to a cacheable address is outstanding: CINVALL leaves no data line,
CFLUSHALL the same once no line is dirty, IINVALL leaves no instruction line, CWAYLK sets the locked ways, PREFETCH of a line that the cache holds
does nothing. At the user level the first four draw a privilege fault with SUB 2 (08 Table 8.1). -/
def Obligations.FenceAndCacheWordsAct : Prop :=
  (
  ∀ (c : Ctx) (s f : State), Issues c s f → LongOn c f → ∀ (a : Reg) (disp : BitVec 24) (line : Nat),
    let x := atOf c
    let ea := grAt x f a + disp.signExtend 64
    let noted := fun (st : State) => noteTranslation x.1 .load (lvlOf (thr c f)) ea.toNat st
    let acts := fun (i : Instr) (eff : State → State) => Does i c s f [a] [] [] (fun st => eff (noted st))
    let h := thr c f
    let drained := h.stores = [] ∧ (∀ o ∈ h.loads, o.atomic = false) ∧ h.comm.sends = [] ∧ storesForced f c.site.val c.thr = true
    (h.loads = [] → Does (.fenceLd c) c s f [] [] [] id) ∧ (drained → Does (.fenceSt c) c s f [] [] [] id) ∧
    (h.loads = [] → drained → Does (.fenceAll c) c s f [] [] [] id) ∧
    (h.loads ≠ [] → exec (.fenceLd c) s = .next (afterWord (recheck c.site.val c.thr (stallThread c.site.val c.thr (.fence .ld) f)))) ∧
    (lineAddr x f ea = .ok (some line) → heldBy h none (line * 64) 64 false = none →
    acts (.cinv c a disp) (onCacheable x (cinvLine x) line) ∧
    acts (.cwb c a disp) (onCacheable x (cleanWord x.1 x.2) line) ∧
    acts (.cflush c a disp) (onCacheable x (fun l st => dropCopies x.1 l (cleanWord x.1 x.2 l st)) line) ∧
    acts (.iinv c a disp) (modCache x.1 kIcache (invalidateLine (geomAt x.1 kIcache) line)))
  ) ∧
  (
  ∀ (c : Ctx) (s f : State), Issues c s f → LongOn c f → ∀ (a : Reg) (disp : BitVec 24),
    let x := atOf c
    (lvlOf (thr c f) ≠ .user →
      (cacheableWait f x = none → Does (.cinvall c) c s f [] [] [] (invalidateData x.1) ∧
        (anyDirty f x.1 = false → Does (.cflushall c) c s f [] [] [] (invalidateData x.1))) ∧
      Does (.iinvall c) c s f [] [] [] (modCache x.1 kIcache invalidateAll) ∧
      Does (.cwaylk c a) c s f [a] [] [] (setLocks x.1 (grAt x f a))) ∧
    (lvlOf (thr c f) = .user → Usable (thr c f) [a] [] [] →
      ∀ i ∈ [Instr.cinvall c, .cflushall c, .iinvall c, .cwaylk c a], Raises i c s f 2 2 0 0) ∧
    (∀ v, checkDevice f x.1 x.2 .load false (grAt x f a + disp.signExtend 64) 1 = .ok v →
      (wouldHit f x.1 (v.a / 64) = true → Does (.prefetch c a disp) c s f [a] [] [] id) ∧
      (wouldHit f x.1 (v.a / 64) = false → policyAt f x.1 v.a v.cd ≠ 0 → policyAt f x.1 v.a v.cd ≠ 3 →
        Does (.prefetch c a disp) c s f [a] [] [] (fun st => sidePrefetch x.1 x.2 kData (v.a / 64) (noteAccess x.1 .load v st)))) ∧
    (∀ u : State, (cacheAt (invalidateData x.1 u) x.1 kData).lines = [] ∧ (cacheAt (invalidateData x.1 u) x.1 kData).side = [])
  )

/-- A resumable instruction, each of whose units passes, is over with its last unit: cs.progress is 0 and the pc moves on (08 R231, R232). GATHER has
one unit for each element, MEMFILL one for each 8 B, the tile transfers one for each row. -/
def Obligations.ResumableWordsFinish : Prop :=
  ∀ (c : Ctx) (s f : State), Issues c s f → LongOn c f → AtFirstUnit (thr c f) → ∀ (lg : Fin 4) (d a b r : Reg) (t : Fin 16) (fmt : BitVec 4)
    (rm : BitVec 2) (sat : Bool) (units : Nat) (u : State),
    let x := atOf c
    let core := getCore f x.1
    let conf := slotConf core t
    let acc := accConf core t
    let p := grAt x f a
    let q := grAt x f b
    let ends := fun (i : Instr) (reads : List Reg) (n : Nat) (unit : Nat → State → Except Trap (State × Bool)) (last : State → State) =>
      unitsFrom unit 0 n (issued c f) = some u → n ≤ units → Does i c s f reads [] [] (fun _ => clearProgress c (last u))
    ends (.gather c lg d a b r units) [a, b, r, d] (grAt x f r).toNat (gatherUnit x lg (grAt x f d) p q) id ∧
    ((grAt x f d).toNat % 8 = 0 → q.toNat % 8 = 0 →
      ends (.memfill c d a b units) [a, b, d] (q.toNat / 8) (fillUnit x (grAt x f d) p) id) ∧
    (isCcSite x.1 = false → t.val < 8 → tileCheck x t p q f = .ok () →
      (slotHeld core conf = false → ends (.tld c t a b units) [a, b] (slotRows conf) (tldRow x conf p.toNat q.toNat) id) ∧
      (slotPoison core conf = none → ends (.tst c t a b units) [a, b] (slotRows conf) (tstRow x conf p.toNat q.toNat) id)) ∧
    (isCcSite x.1 = false → 8 ≤ t.val → fmt.toNat < 10 → accBusy core (t.val - 8) = false →
      (accCheck x false t p q fmt.toNat f = .ok () → ends (.tlda c t a b fmt units) [a, b] (accRows acc) (tldaRow x t p.toNat q.toNat fmt.toNat)
        (modAcc x.1 (t.val - 8) (fun e => { e with inc := false }))) ∧
      (accCheck x true t p q fmt.toNat f = .ok () → ends (.tsta c t a b fmt rm sat units) [a, b] (accRows acc)
        (tstaRow x t p.toNat q.toNat fmt.toNat rm.toNat sat) id))

/-! ### VEC words (06; 04 Table 4.14) -/

/-- The vector operations that have a short form, as long words with legal fields: each lane of `d` is the operation on the lanes of its operands,
flags are added to cs.fpcsr, and stochastic rounding leaves its generator (06 R154, R159 to R162, R171). Integer lanes without saturation wrap: of
VADD, VSUB and VMUL of INT32 lanes, lane i is the sum, difference or product of lanes i modulo 2^32, and the bitwise words act on all 1,024 bits (06
R160). -/
def Obligations.VecLaneWordsAct : Prop :=
  (
  ∀ (c : Ctx) (s f : State), Issues c s f → LongOn c f → ∀ (g : VFields) (d a b : Reg), readByMatrix (getCore f c.site.val) c.thr d.val = false →
    let x := atOf c
    let acts := fun (i : Instr) (op : VShortOp) (vecs : List Reg) (b : Reg) => shortLegal op g = true →
      let r := shortLanes op g (thr c f).fp (vAt x f a) (vAt x f b)
      DoesVec i c s f [] [] vecs (fun st => setRounded x r.1 r.2 (setV x d (packLanes (shortWidth op g) r.2.vals) st))
    acts (.vadd c g d a b) .vadd [a, b] b ∧ acts (.vsub c g d a b) .vsub [a, b] b ∧ acts (.vmul c g d a b) .vmul [a, b] b ∧
    acts (.vmin c g d a b) .vmin [a, b] b ∧ acts (.vmax c g d a b) .vmax [a, b] b ∧ acts (.vand c g d a b) .vand [a, b] b ∧
    acts (.vor c g d a b) .vor [a, b] b ∧ acts (.vxor c g d a b) .vxor [a, b] b ∧ acts (.vabs c g d a) .vabs [a] 0 ∧
    acts (.vneg c g d a) .vneg [a] 0 ∧ acts (.vexp2 c g d a) .vexp2 [a] 0 ∧ acts (.vrcp c g d a) .vrcp [a] 0 ∧
    acts (.vrsq c g d a) .vrsq [a] 0
  ) ∧
  (
  ∀ (g : VFields) (fp : FpRegs) (a b : BitVec 1024) (i : Nat), i < 32 → g.fmt = 8 → g.sat = false → bit fp.fpcsr 7 = false →
    let lane := fun (op : VShortOp) => laneAt 32 (packLanes 32 (shortLanes op g fp a b).2.vals) i
    lane .vadd = (laneAt 32 a i + laneAt 32 b i) % 2 ^ 32 ∧
    lane .vsub = (laneAt 32 a i + 2 ^ 32 - laneAt 32 b i) % 2 ^ 32 ∧
    lane .vmul = laneAt 32 a i * laneAt 32 b i % 2 ^ 32 ∧
    packLanes 1024 (shortLanes .vand g fp a b).2.vals = a &&& b ∧ packLanes 1024 (shortLanes .vor g fp a b).2.vals = a ||| b ∧
    packLanes 1024 (shortLanes .vxor g fp a b).2.vals = a ^^^ b
  )

/-- Vector words whose lanes are moved, shifted, selected, compared or masked, none of them rounded (06 R163, R168, R170, R177, R178). -/
def Obligations.VecMoveWordsAct : Prop :=
  ∀ (c : Ctx) (s f : State), Issues c s f → LongOn c f → ∀ (g : VFields) (d a b r : Reg) (imm : BitVec 15),
    readByMatrix (getCore f c.site.val) c.thr d.val = false →
    let x := atOf c
    let w := fmtWidth g.fmt.toNat
    let va := vAt x f a
    let vb := vAt x f b
    let vr := vAt x f r
    let puts := fun (i : Instr) (reads vecs : List Reg) (width : Nat) (lane : Nat → Nat) =>
      DoesVec i c s f reads [] vecs (setV x d (packLanes width ((List.range (1024 / width)).map lane)))
    (fieldsLegal fmtShift false false .none g = true → imm.toNat < 32 →
      puts (.vshl c g d a imm) [] [a] w (fun i => laneAt w va i * 2 ^ imm.toNat % 2 ^ w)) ∧
    (fieldsLegal fmtShift false false .shift g = true → imm.toNat < 32 → g.sa = false →
      puts (.vshr c g d a imm) [] [a] w (fun i => laneAt w va i / 2 ^ imm.toNat)) ∧
    (fieldsLegal fmtArith false false .none g = true →
      puts (.vsel c g d a b r) [] [a, b, r] w (fun i => if laneAt w vr i ≠ 0 then laneAt w va i else laneAt w vb i)) ∧
    (fieldsLegal fmtWide false false .none g = true →
      puts (.vperm c g d a b) [] [a, b] w (fun i => laneAt w va (laneAt w vb i % lanesOf w)) ∧
      puts (.vbcast c g d a) [a] [] w (fun _ => (grAt x f a).toNat % 2 ^ w)) ∧
    (fieldsLegal fmtArith false false .arith g = true → imm.toNat < 8 → (isIntFmt g.fmt.toNat = true → imm.toNat < 6) →
      puts (.vcmp c g d a b imm) [] [a, b] w (fun i =>
        if vcmpHolds imm.toNat (laneNum g.fmt.toNat g.sa (laneAt w va i)) (laneNum g.fmt.toNat g.sa (laneAt w vb i)) then 2 ^ w - 1 else 0)) ∧
    (fieldsLegal (· == 7) false false .none g = true →
      puts (.vcmask c g d a b imm) [] [a, b] 32 (fun i =>
        let key := toSigned 32 (laneAt 32 va i)
        let q := toSigned 32 (laneAt 32 vb i)
        if key ≤ q ∧ (imm = 0 ∨ q - imm.toNat < key) then 0 else 0xFF800000) ∧
      puts (.vpmask c g d a b) [] [a, b] 32 (fun i =>
        if toSigned 32 (laneAt 32 va i) < toSigned 32 (laneAt 32 vb i) then 0 else 0xFF800000))

/-- Vector words that round, once for each element and in order: fused multiply-add, online softmax, reductions (02 R43, R46; 06 R169, R172 to R174).
That VREDMAX leaves zeros beside lane 0 is the model's choice (log 79). -/
def Obligations.VecRoundedWordsAct : Prop :=
  ∀ (c : Ctx) (s f : State), Issues c s f → LongOn c f → ∀ (g : VFields) (d a b r : Reg) (imm : BitVec 15),
    readByMatrix (getCore f c.site.val) c.thr d.val = false →
    let x := atOf c
    let k := g.fmt.toNat
    let w := fmtWidth k
    let fp := (thr c f).fp
    let mode := modeInForce fp g.rm.toNat
    let sat := satInForce fp g.sat
    let num := fun (v : Reg) (i : Nat) => decodeFloat k (laneAt w (vAt x f v) i)
    let row := fun (i : Nat) => rowLanes imm.toNat (vAt x f a) i
    let puts := fun (i : Instr) (vecs : List Reg) (width mode : Nat) (z : Rounded) =>
      DoesVec i c s f [] [] vecs (fun st => setRounded x mode z (setV x d (packLanes width z.vals) st))
    (fieldsLegal fmtFloat true true .none g = true →
      puts (.vfma c g d a b r) [a, b, r] w mode (roundEach mode fp.srseed (lanesOf w) (fun i q =>
        roundNum k mode sat q (numAdd (numMul (num a i) (num b i)) (num r i))))) ∧
    (rowLegal false false g imm = true →
      puts (.vsmax c g d a b imm) [a, b] 32 0 (eachLane (32 / 2 ^ imm.toNat) (fun i => maxOf 7 true (laneAt 32 (vAt x f b) i :: row i)))) ∧
    (rowLegal true true g imm = true →
      puts (.vssum c g d a b r imm) [a, b, r] 32 mode (roundEach mode fp.srseed (32 / 2 ^ imm.toNat) (fun i q =>
        roundNum 7 mode sat q (sumOf (numMul (decodeFloat 7 (laneAt 32 (vAt x f r) i)) (decodeFloat 7 (laneAt 32 (vAt x f b) i)) ::
          (row i).map (decodeFloat 7)))))) ∧
    (rowLegal false true g imm = true →
      puts (.vexpr c g d a b imm) [a, b] 32 0 (eachLane 32 (fun i =>
        exprLane sat (laneAt 32 (vAt x f a) i) (laneAt 32 (vAt x f b) (i / 2 ^ imm.toNat))))) ∧
    (fieldsLegal fmtArith true true .arith g = true →
      let z := redSum g fp (vAt x f a)
      puts (.vredsum c g d a) [a] z.1 z.2.1 z.2.2) ∧
    (fieldsLegal fmtArith false false .arith g = true →
      let z := maxOf k g.sa ((List.range (lanesOf w)).map (laneAt w (vAt x f a)))
      puts (.vredmax c g d a) [a] w 0 ⟨[z.1], z.2, 0⟩)

/-- Conversions, splits, rotary factors and lane moves between register files. VCVT takes as many elements as the wider of the two formats has lanes,
from the low lanes, or from part H of `a` where the destination is wider, to part H of `d`, whose other lanes stay, or to all of it; an FP4 side has
its scales in `r` (02 R42; 06 R164 to R167). VSPLIT gives the upper half of an FP32 lane and the rounded rest (02 R61; 06 R170), VROPE cosine and sine
of position times frequency (06 R176), VMOVG and VINS move one lane (06 R168). -/
def Obligations.VecConvertWordsAct : Prop :=
  (
  ∀ (c : Ctx) (s f : State), Issues c s f → LongOn c f → ∀ (g : VFields) (d a r : Reg) (imm : BitVec 15),
    let x := atOf c
    let p := g.fmt.toNat
    let q := g.fmt2.toNat
    let wp := fmtWidth p
    let wq := fmtWidth q
    let fp := (thr c f).fp
    let mode := modeInForce fp g.rm.toNat
    let narrows := decide (wq < wp)
    let n := if narrows then 1024 / wp else 1024 / wq
    let part := imm.toNat * n
    let src := if narrows then 0 else part
    let dst := if narrows then part else 0
    let lane := fun (i : Nat) => laneAt wp (vAt x f a) (src + i)
    let num := fun (i : Nat) => if p = 2 then mxNum (laneAt 8 (vAt x f r) ((src + i) / 32)) (lane i) else laneNum p g.sa (lane i)
    let z := roundEach mode fp.srseed n (fun i k =>
      convertTo q mode (satInForce fp g.sat) g.sb k (BitVec.ofNat 32 (laneAt 32 (drawFree 1024 f).1 (i % 32))) (num i))
    let blocks := cvtToBlocks p mode fp.srseed (vAt x f a)
    let free := fun (v : Reg) => readByMatrix (getCore f c.site.val) c.thr v.val = false
    let reads := [a] ++ (if narrows then [d] else []) ++ (if p = 2 || q = 2 then [r] else [])
    cvtLegal g d r imm = true → free d →
      (q ≠ 2 → DoesVec (.vcvt c g d a r imm) c s f [] [] reads (fun st => setRounded x mode z
        (setV x d (replaceLanes wq dst z.vals (vAt x f d)) (if q = 8 then { st with freeCtr := st.freeCtr + 1 } else st)))) ∧
      (q = 2 → free r → DoesVec (.vcvt c g d a r imm) c s f [] [] reads (fun st => setRounded x mode blocks.2
        (setV x r (replaceLanes 8 (dst / 32) blocks.1 (vAt x f r)) (setV x d (replaceLanes 4 dst blocks.2.vals (vAt x f d)) st))))
  ) ∧
  (
  ∀ (c : Ctx) (s f : State), Issues c s f → LongOn c f → ∀ (g : VFields) (d a r : Reg) (imm : BitVec 15),
    let x := atOf c
    let w := fmtWidth g.fmt.toNat
    let free := fun (v : Reg) => readByMatrix (getCore f c.site.val) c.thr v.val = false
    let split := (List.range 32).map (fun i => splitLane (laneAt 32 (vAt x f a) i))
    let one := imm.getLsbD 8
    let k := imm.toNat % 256
    let turns := (List.range 32).map (fun i =>
      ropeLane (toSigned 32 (laneAt 32 (vAt x f a) (if one then 0 else i))) (mget (getCore f x.1).rope (if one then k + i else k) 0).toNat)
    (g.fmt = 7 → g.fmt2 = 5 → g.rm = 0 → g.sat = false → g.sa = false → g.sb = false → imm.toNat < 2 → r ≠ d → free d → free r →
      DoesVec (.vsplit c g d r a imm) c s f [] [] [a, d, r] (fun st =>
        setFlags x (split.foldl (fun q l => joinFlags q l.2.2) 0)
          (setV x r (replaceLanes 16 (32 * imm.toNat) (split.map (·.2.1)) (vAt x f r))
            (setV x d (replaceLanes 16 (32 * imm.toNat) (split.map (·.1)) (vAt x f d)) st)))) ∧
    (fieldsLegal (· == 7) false false .none g = true → imm.toNat < 512 → (one = true → k ≤ 224) → r ≠ d → free d → free r →
      DoesVec (.vrope c g d r a imm) c s f [] [] [a] (fun st =>
        setFlags x (turns.foldl (fun q l => joinFlags q l.2.2) 0)
          (setV x r (packLanes 32 (turns.map (·.2.1))) (setV x d (packLanes 32 (turns.map (·.1))) st)))) ∧
    (fieldsLegal fmtWide false false .none g = true → imm.toNat < 1024 / w →
      DoesVec (.vmovg c g d a imm) c s f [] [d] [a] (setGr x d
        (if g.fmt = 1 ∧ g.sa = true then BitVec.ofInt 64 (toSigned 8 (laneAt 8 (vAt x f a) imm.toNat))
         else BitVec.ofNat 64 (laneAt w (vAt x f a) imm.toNat))) ∧
      (free d →
        DoesVec (.vins c g d a imm) c s f [a] [] [d] (setV x d (replaceLanes w imm.toNat [(grAt x f a).toNat % 2 ^ w] (vAt x f d)))))
  ) ∧
  (
  ∀ (a : Nat) (sign : Bool) (m : Nat) (e : Int), decodeFloat 7 a = .fin sign m e →
    let rest := roundNum 5 0 false 0 (numAdd (.fin sign m e) (numNeg (decodeFloat 5 (a / 65536))))
    splitLane a = (a / 65536, rest.1, rest.2)
  )

/-- VLD and VST move 128 B between a vector register and the own local memory, at an offset that is a multiple of 128 and that the thread reaches; a
register that gets bytes of an uncorrectable word is poisoned, and the core posts a record (06 R180, 08 R222, 19 Table 19.3). -/
def Obligations.VecTransferWordsAct : Prop :=
  ∀ (c : Ctx) (s f : State), Issues c s f → LongOn c f → ∀ (d a : Reg) (imm : BitVec 15),
    let x := atOf c
    let ea := grAt x f a + imm.setWidth 64
    let o := ea.toNat
    o + 128 ≤ lmBytes → o % 128 = 0 → ownReach f x.1 x.2 o 128 = true →
    (readByMatrix (getCore f x.1) x.2 d.val = false →
      let v := BitVec.ofNat 1024 (leNat (lmReadN f x.1 o 128))
      ((lmFirstBad f x.1 o 128).isSome = false → DoesVec (.vld c d a imm) c s f [a] [] [] (setV x d v)) ∧
      ((lmFirstBad f x.1 o 128).isSome = true → DoesVec (.vld c d a imm) c s f [a] [] []
        (fun st => modThr x.1 x.2 (fun h => { h with poisonV := (d.val, ea) :: h.poisonV }) (setV x d v (noteLm x.1 o 128 st))))) ∧
    DoesVec (.vst c d a imm) c s f [a] [] [d] (ownStore x.1 x.2 o ea (bytesOf (vAt x f d) 128))

/-! ### CTL words (03 R71 to R76, R99 to R102) -/

/-- Transfers of control to an address that passes R93: BR and BRR only go there; CALL and CALLR with room in the register file save the return
address in gr31 and move the window one frame forward; RET with a resident older frame goes to gr15 and moves it back. A call that finds six resident
frames spills the oldest one to cs.wsp; WSPILL spills every resident older frame, oldest first, and moves cs.wsp by their number; a spill that would
pass the limit draws code 0xB, an underflow code 0xC (03 R71 to R75). -/
def Obligations.ControlWordsTransfer : Prop :=
  (
  ∀ (c : Ctx) (s f : State), Issues c s f → LongOn c f → ∀ (a : Reg) (disp : BitVec 26),
    let x := atOf c
    let pc := (thr c f).pc
    let to26 := pc + disp.signExtend 64 * 8
    let win := (thr c f).win
    let passes := fun (target : Word) => checkJump f x.1 x.2 target = .ok ()
    let forward := fun (st : State) => setWin x (fun v => { v with pos := v.pos + 1 })
      (setWin x (fun v => { v with res := v.res + 1 }) (setGr x 31 (pc + 8) st))
    (passes to26 → Jumps (.br c disp) c s f [] [] to26 id) ∧
    (passes (grAt x f a) → Jumps (.brr c a) c s f [a] [] (grAt x f a) id) ∧
    (win.res ≠ 6 → passes to26 → Jumps (.call c disp) c s f [] [31] to26 forward) ∧
    (win.res ≠ 6 → passes (grAt x f a) → Jumps (.callr c a) c s f [a] [31] (grAt x f a) forward) ∧
    (0 < win.res → passes (grAt x f 15) →
      Jumps (.ret c) c s f [15] [] (grAt x f 15) (setWin x (fun v => { v with pos := v.pos - 1, res := v.res - 1 })))
  ) ∧
  (
  ∀ (c : Ctx) (s f : State), Issues c s f → LongOn c f → ∀ (a : Reg),
    let x := atOf c
    let h := thr c f
    let win := h.win
    let off := win.wsp.toNat * 128
    let free := fun (pos : Nat) => Usable h [] [] [] ∧ (∀ k ∈ frameKeys pos, keyPending h k = false) ∧ ∀ e ∈ h.poisonG, ¬ e.1 ∈ frameKeys pos
    let frames := (List.range win.res).map (fun i => (win.pos.val + 8 - win.res + i) % 8)
    (win.res = 6 → win.wsp.toNat + 1 ≤ win.limit.toNat → touchesOtherSlice f x.1 x.2 off 128 = false → free ((win.pos.val + 2) % 8) →
      checkJump f x.1 x.2 (grAt x f a) = .ok () →
      Jumps (.callr c a) c s f [a] [31] (grAt x f a) (fun st => setWin x (fun v => { v with pos := v.pos + 1 })
        (setWin x (fun v => { v with wsp := v.wsp + 1 }) (setGr x 31 (h.pc + 8) (spillFrame x ((win.pos.val + 2) % 8) off st))))) ∧
    (win.wsp.toNat + win.res ≤ win.limit.toNat → touchesOtherSlice f x.1 x.2 off (128 * win.res) = false → (∀ p ∈ frames, free p) →
      Does (.wspill c) c s f [] [] [] (fun st => setWin x (fun v => { v with wsp := v.wsp + BitVec.ofNat 14 win.res, res := 0 })
        (foldN win.res (fun i u => spillFrame x (frames.getD i 0) (off + 128 * i) u) st))) ∧
    (win.limit.toNat < win.wsp.toNat + win.res → Usable h [] [] [] → Raises (.wspill c) c s f 0xB 0 (wspWord win) 0) ∧
    (win.res = 0 → win.wsp = win.base → checkJump f x.1 x.2 (grAt x f 15) = .ok () → Usable h [15] [] [] →
      Raises (.ret c) c s f 0xC 0 (wspWord win) 0)
  )

/-! ### TILE words and the matrix unit (07) -/

/-- TCFG takes a configuration that passes Table 7.4; TMMA, TSCALE and TZERO that pass Table 7.8 enter the queue of the unit, at most two of a thread
being outstanding; TMOVA and TMOVV move up to 32 elements of a row (07 R185 to R197). The oldest operation of the matrix unit begins, reading its
operands; its last step writes the accumulator, takes it off the queue and adds its flags for the owner, where every element that it reads matches its
code; a mismatch of a stored code is met once with a replay, one in a MAC column with a replay and a count of the column (07 R194, R198, R200, R206,
R207, R209). -/
def Obligations.TilesAct : Prop :=
  (
  ∀ (c : Ctx) (s f : State), Issues c s f → LongOn c f → isCcSite c.site.val = false →
    ∀ (t u w : Fin 16) (a b : Reg) (ra rb : Bool),
    let x := atOf c
    let core := getCore f x.1
    let enters := fun (i : Instr) (op : TileOp) => opCheck core x.2 (tpendValid (thr c f)) op = .ok () →
      Does i c s f [] [] [] (modCore x.1 (enqueueOp x.2 op))
    let acc := accConf core t
    let at0 := fld (grAt x f b) 6 0 * 64 + 32 * fld (grAt x f b) 7 7
    (slotUsed core t = false → confError core (lvlOf (thr c f)) x.2 t (grAt x f a) = 0 →
      Does (.tcfg c t a) c s f [a] [] [] (modCore x.1 (takeConf t (grAt x f a)))) ∧
    (slotUsed core t = false → confError core (lvlOf (thr c f)) x.2 t (grAt x f a) ≠ 0 → Usable (thr c f) [a] [] [] →
      Raises (.tcfg c t a) c s f 3 (confError core (lvlOf (thr c f)) x.2 t (grAt x f a)) 0 0) ∧
    (8 ≤ t.val → opsOf core x.2 < 2 →
      (u.val < 8 → w.val < 8 → enters (.tmma c t u w ra rb) (.tmma t u w ra rb)) ∧ enters (.tscale c t a) (.tscale t a) ∧
      enters (.tzero c t) (.tzero t)) ∧
    (8 ≤ t.val → accBusy core (t.val - 8) = false → moveCheck x t (grAt x f b) f = .ok () →
      (readByMatrix core x.2 a.val = false → codesBad acc at0 (halfCols acc (grAt x f b)) = false →
        Does (.tmova c a t b) c s f [b] [] [] (setV x a (packLanes 32
          ((List.range (halfCols acc (grAt x f b))).map (fun j => (mget acc.elems (at0 + j) 0).toNat))))) ∧
      Does (.tmovv c t a b) c s f [b] [] [a] (modAcc x.1 (t.val - 8) (fun q =>
        foldN (halfCols acc (grAt x f b)) (fun j m => putElem (at0 + j) (BitVec.ofNat 32 (laneAt 32 (vAt x f a) j)) m) q)))
  ) ∧
  (
  ∀ (site : Site) (s : State) (o : MatOp) (r : List MatOp), isCoreSite site.val = true → (getCore s site.val).mx.queue = o :: r →
    let core := getCore s site.val
    let z := opResult core o
    let acc := mget core.mx.accs (opAcc o.op) Acc.reset
    (o.begun = false → ∃ t, exec (.matrixOpBegin site) s = .next t ∧ (getCore t site.val).mx.queue = readOperands core o :: r ∧
      (getCore t site.val).mx.accs = core.mx.accs ∧ t.hbm = s.hbm) ∧
    (o.begun = true → (readsAcc core (opAcc o.op) = true → accCodesBad acc = false) →
      exec (.tmmaCommit site) s = .next (settleHeld (countPerf site.val 7 o.thr (arraySteps core o) (setFlags (site.val, accOwner z.1) z.2
        (modCore site.val (fun e => { e with mx := { e.mx with queue := r, accs := mset e.mx.accs (opAcc o.op) z.1 } }) s))))) ∧
    (o.begun = true → (∀ n : Fin 16, o.op ≠ .tzero n) →
      (∀ (n : Fin 8) (e : Fin 8192), o.codeRetried = false → opAcc o.op = n.val → bit acc.conf 63 = true → e.val / 64 < accRows acc →
        e.val % 64 < accCols acc → ∃ t, exec (.residueMismatch site (.code n e)) s = .next t ∧ (getCore t site.val).mx.accs = core.mx.accs ∧
          (getCore t site.val).mx.replays = satInc core.mx.replays ∧
          (getCore t site.val).mx.queue = { o with begun := false, imgA := [], imgB := [], factors := [], codeRetried := true } :: r) ∧
      (∀ j : Fin 32, j.val < accCols acc → colCount core.mx j.val = 0 →
        ∃ t, exec (.residueMismatch site (.column j)) s = .next t ∧ (getCore t site.val).mx.accs = core.mx.accs ∧
          (getCore t site.val).mx.replays = satInc core.mx.replays ∧ colCount (getCore t site.val).mx j.val = 1 ∧
          (getCore t site.val).mx.queue = { o with begun := false, imgA := [], imgB := [], factors := [] } :: r))
  )

/-! ### CSR moves (04 R116, R117, Tables 4.9, 4.17) -/

/-- CSRR writes the value of a register that the level may read; CSRW, CSRS and CSRC write the old value and, in the same access, the register with
the value, with bits set, or with bits cleared; a level that may not draws code 2 with the number (08 R213). The rows that name one register, in a
thread of the machine level: cs.ropedata and cs.chsbdat move their index on, cs.wmsg frees the slot whose message it returns, cs.tlbinv filters the
TLBs, cs.lmslice is clamped to 1 to 11, cs.tpend takes a word, cs.ccwd restarts its watchdog under KICK (05 R138; 06 R176; 07 R596; 09 R269; 14 R368;
15 R399; 21 R539). -/
def Obligations.CsrWordsMove : Prop :=
  (
  ∀ (c : Ctx) (s f : State), Issues c s f → LongOn c f → ∀ (d a : Reg) (n : BitVec 12),
    let x := atOf c
    let old := csrValue x f n.toNat
    let l := lvlOf (thr c f)
    let moves := fun (i : Instr) (v : Word) => Does i c s f [a] [d] [] (fun st => setGr x d old (csrStore x.1 x.2 l n.toNat v st))
    csrAssigned x n.toNat = true →
    (csrAllowed x f false n.toNat = true →
      Does (.csrr c d n) c s f [] [d] [] (fun st => setGr x d old (csrReadEffect x.1 x.2 n.toNat st))) ∧
    (csrAllowed x f true n.toNat = true → n.toNat ≠ 0x171 → csrW1c n.toNat = 0 →
      moves (.csrw c d n a) (grAt x f a) ∧ moves (.csrs c d n a) (old ||| grAt x f a) ∧ moves (.csrc c d n a) (old &&& ~~~ (grAt x f a))) ∧
    (csrAllowed x f false n.toNat = false → Usable (thr c f) [] [d] [] → Raises (.csrr c d n) c s f 2 0 (n.setWidth 64) 0) ∧
    (csrAllowed x f true n.toNat = false → Usable (thr c f) [a] [d] [] → Raises (.csrw c d n a) c s f 2 0 (n.setWidth 64) 0)
  ) ∧
  (
  ∀ (c : Ctx) (s f : State), Issues c s f → LongOn c f → lvlOf (thr c f) = .machine → ∀ (d a : Reg) (k : Fin 2),
    let x := atOf c
    let h := thr c f
    let v := grAt x f a
    let moves := fun (i : Instr) (n : Nat) (eff : State → State) => Does i c s f [a] [d] [] (fun st => setGr x d (csrValue x f n) (eff st))
    moves (.ropedataWrite c .w d a) 0x111 (fun st => modFp x.1 x.2 (fun e => { e with ropeidx := (getThr st x.1 x.2).fp.ropeidx + 1 })
      (modCore x.1 (fun e => { e with rope := mset e.rope (getThr st x.1 x.2).fp.ropeidx.toNat v }) st)) ∧
    moves (.chsbdatAccess c (some .w) d a) 0x173
      (modComm x.1 x.2 (fun e => { e with sendBuf := mset e.sendBuf e.chsbidx.toNat v, chsbidx := e.chsbidx + 1 })) ∧
    (∀ j o m, oldestWatch h.comm = some (j, o, m) → Usable h [] [d] [] → ∃ t, exec (.wmsgRead c d) s = .next t ∧
      t = retire c (setGr x d m (modThr x.1 x.2 (fun g => match oldestWatch g.comm with
        | some (i, _, _) => { g with comm := { g.comm with watches := mdel g.comm.watches i } }
        | none => g) (issued c f)))) ∧
    (isCcSite x.1 = true → moves (.tlbinvWrite c .w d a) 0x162 (modCore x.1 (fun e => { e with mmu := tlbInvalidate v e.mmu })) ∧
      moves (.ccwdKick c .w d a) 0x190 (ccwdWrite x.1 v)) ∧
    moves (.lmsliceWrite c .w d a) 0x100 (sliceWrite x.1 v) ∧
    moves (.tpendWrite c .w k d a) (0x122 + k.val)
      (modFp x.1 x.2 (fun e => if k = 0 then { e with tpend0 := tpendStore v } else { e with tpend1 := tpendStore v })) ∧
    (∀ u : State, isCcSite x.1 = false →
      1 ≤ (getCore (sliceWrite x.1 v u) x.1).lmslice.toNat ∧ (getCore (sliceWrite x.1 v u) x.1).lmslice.toNat ≤ 11)
  )

/-! ### SYS words: messages, synchronisation, posts, waits (04 Table 4.17) -/

/-- MSGW writes a word of the send buffer; a non-blocking MSGSEND with room clears its predicate and sends one message of 16 (len + 1) bytes; a
blocking one waits in the channel stall from its first attempt; a write of cs.chwait gives READY, or waits for its mask (14 R367 to R376). -/
def Obligations.MessageWordsAct : Prop :=
  ∀ (c : Ctx) (s f : State), Issues c s f → LongOn c f → ∀ (pd : PReg) (a d : Reg) (len : Fin 16) (off : BitVec 24),
    let x := atOf c
    let h := thr c f
    let dst := grAt x f a
    let data := messageBytes h len.val
    let mask := ((grAt x f a) >>> 16).setWidth 16
    let ready := readyMask f x.1 x.2
    (off.toNat < 256 → off.toNat % 8 = 0 →
      Does (.msgw c a off) c s f [a] [] [] (modComm x.1 x.2 (fun k => { k with sendBuf := mset k.sendBuf (off.toNat / 8) dst }))) ∧
    (checkBell f (lvlOf h) dst = .ok () → h.comm.sends.length < 4 →
      (∀ u, sendAttempt x.1 x.2 dst data pd false (setP x pd false (issued c f)) = (true, u) → Usable h [a] [] [] →
        exec (.msgsendNonblocking c pd a len) s = .next (retire c u)) ∧
      (Usable h [a] [] [] → exec (.msgsendBlocking c pd a len) s =
        .next (afterWord (blockingAttempt x.1 x.2 ⟨pd, dst, data, 0, none, none⟩ (stallThread x.1 x.2 .send (issued c f)))))) ∧
    (mask = 0 ∨ ready &&& mask ≠ 0 → Does (.chwaitWrite c d a) c s f [a] [d] [] (setGr x d (ready.setWidth 64))) ∧
    (mask ≠ 0 → ready &&& mask = 0 → Holds (.chwaitWrite c d a) c s f [a] [d] (.receive mask (keyOrZero x f d)) id)

/-- LOCK sends its request to the lock's unit and waits; UNLOCK, once the thread's stores are performed, leaves the held-lock record and posts its
message; BAR and BARA send an arrival to the own cluster's unit, and BAR waits for its release; WATCH takes the lowest free handle, UNWATCH posts its
message, and SYNCCHK reports when nothing of the thread is under way (05 R143, R144; 15 R385, R386, R395, R397, R400). -/
def Obligations.SyncWordsAct : Prop :=
  ∀ (c : Ctx) (s f : State), Issues c s f → LongOn c f → ∀ (pd : PReg) (a b d : Reg) (k n : Nat),
    let x := atOf c
    let h := thr c f
    let v := grAt x f a
    let own := clusterOf x.1
    let drained := h.stores = [] ∧ (∀ o ∈ h.loads, o.atomic = false) ∧ h.comm.sends = [] ∧ storesForced f x.1 x.2 = true
    (lockOf v.toNat = some (k, n) → unitGone f x.1 k = false →
      Holds (.lock c pd a) c s f [a] [] (.lock v.toNat pd) (sendLockReq x.1 x.2 k n) ∧
      (drained → Does (.unlock c a) c s f [a] [] [] (postUnlock x v.toNat k n))) ∧
    (lockOf v.toNat = none → Usable h [a] [] [] → Raises (.lock c pd a) c s f 8 0 v 0 ∧ Raises (.unlock c a) c s f 8 0 v 0) ∧
    (barOf v.toNat = some (own, n) → drained → unitGone f x.1 own = false →
      Holds (.bar c d a b) c s f [a, b] [d] (.barrier own n (keyOrZero x f d)) (sendArrival x n (grAt x f b) true) ∧
      (h.comm.bara.length < 4 → Does (.bara c a b) c s f [a, b] [] [] (fun st =>
        sendArrival x n (grAt x f b) false (modComm x.1 x.2 (fun e => { e with bara := e.bara ++ [(own, n)] }) st)))) ∧
    (watchTarget v.toNat = some k → (lvlOf h = .user → isWindow v.toNat = true → uwinGrants h v.toNat 8 63 = true) →
      (∀ j, firstBit 8 (fun i => mget h.comm.watches i .free == .free) = some j →
        Does (.watch c d a b) c s f [a, b] [d] [] (postWatch x d j k v (grAt x f b))) ∧
      (firstBit 8 (fun i => mget h.comm.watches i .free == .free) = none →
        Does (.watch c d a b) c s f [a, b] [d] [] (setGr x d (BitVec.allOnes 64)))) ∧
    (watchTarget v.toNat = some k → unitGone f x.1 k = false →
      Does (.unwatch c a) c s f [a] [] [] (fun st => sendSync x.1 (anchorOf k) v.toNat (lvlOf (thr c st)) (.unwatch v.toNat x.2) st)) ∧
    (syncPending f x.1 x.2 = false → Does (.syncchk c d) c s f [] [d] [] (setGr x d (syncResult h.comm)))

/-- HODPOST makes n descriptors outstanding where the ring has room, HODCRED adds n credits, and a ring that is not running refuses both (13 R346,
R347). -/
def Obligations.HodWordsPost : Prop :=
  ∀ (c : Ctx) (s f : State), Issues c s f → LongOn c f → isCcSite c.site.val = false → ∀ (a : Reg),
    let x := atOf c
    let h := thr c f
    let r := getRing f x.1 x.2
    let n := fld (grAt x f a) 15 0
    let limit := fld (grAt x f a) 47 32
    let drained := h.stores = [] ∧ (∀ o ∈ h.loads, o.atomic = false) ∧ h.comm.sends = [] ∧ storesForced f x.1 x.2 = true
    (drained → r.ctl.gate = .on → n ≤ 2 ^ r.rlog →
      (r.out + n ≤ 2 ^ r.rlog → (limit = 0xFFFF ∨ r.out ≤ limit) →
        Does (.hodpost c a) c s f [a] [] [] (modRing x.1 x.2 (fun q => { q with out := q.out + n }))) ∧
      (2 ^ r.rlog < r.out + n → Holds (.hodpost c a) c s f [a] [] (.hodSpace false n limit) id)) ∧
    (r.ctl.gate = .on → r.cred + n ≤ 65535 →
      Does (.hodcred c a) c s f [a] [] [] (modRing x.1 x.2 (fun q => { q with cred := q.cred + n }))) ∧
    (r.ctl.gate ≠ .on → Does (.hodcred c a) c s f [a] [] [] (modRing x.1 x.2 (fun q => { q with perr := true })) ∧
      (drained → Does (.hodpost c a) c s f [a] [] [] (modRing x.1 x.2 (fun q => { q with perr := true }))))

/-- GATE with an entry at hand that passes its checks saves the next address and goes to the entry at its level with EXL set; RETX restores the level,
EIE and the pc that the exception saved (08 R224, R236, R237). -/
def Obligations.GateAndReturn : Prop :=
  ∀ (c : Ctx) (s f : State), Issues c s f → LongOn c f → (thr c f).status.df = false →
    let x := atOf c
    let h := thr c f
    (∀ (n : BitVec 12) (req : Nat) (e : BitVec 512), opsOf (getCore f x.1) x.2 = 0 → h.status.exl = false →
      let a := fld h.exc.gtab 47 6 * 64 + 64 * n.toNat
      let g := parseGate e
      n.toNat < fld h.exc.gtab 63 52 → h.gateFetch = some (req, a, some e) → gateMalformed g (lvlOf h) = false → g.val = true →
      g.callers.testBit (levelCode (lvlOf h)) = true → g.argc = 0 → g.stk = 0 → reachable f x.1 (levelOf g.tlvl) g.entry = true →
      Undisturbed c f → Usable h [] [] [] →
      ∃ t, exec (.gate c n) s = .next t ∧ (thr c t).pc = g.entry ∧ (thr c t).exc.epc = h.pc + 8 ∧
        (thr c t).status =
          { h.status with plvl := h.status.lvl, peie := h.status.eie, eie := false, exl := true, gs := false, lvl := levelOf g.tlvl } ∧
        fld (thr c t).exc.ecause 7 0 = 0x12 ∧ fld (thr c t).exc.ecause 47 24 = n.toNat ∧ (thr c t).gregs = h.gregs) ∧
    (lvlOf h ≠ .user → levelCode h.status.plvl ≤ levelCode (lvlOf h) → reachable f x.1 h.status.plvl h.exc.epc = true →
      h.status.gs = false → tpendValid h = false → Undisturbed c f → Usable h [] [] [] →
      ∃ t, exec (.retx c) s = .next t ∧ (thr c t).pc = h.exc.epc ∧
        (thr c t).status = { h.status with lvl := h.status.plvl, eie := h.status.peie, exl := false, gs := false } ∧
        (thr c t).gregs = h.gregs ∧ (thr c t).preds = h.preds)

/-- WAIT with a mask that holds a set event bit completes, and waits otherwise; with a[63] = 1 a thread of the machine level parks, while a lower
level draws code 2 with SUB 2; BRK draws code 0xD with its tag (05 R128, R595; 08 R230). -/
def Obligations.WaitAndBreakWords : Prop :=
  ∀ (c : Ctx) (s f : State), Issues c s f → LongOn c f → ∀ (a : Reg) (tag : BitVec 24),
    let x := atOf c
    let h := thr c f
    let v := grAt x f a
    let m := v.setWidth 32
    (bit v 63 = false → m ≠ 0 →
      (h.exc.event &&& m ≠ 0 → Does (.wait c a) c s f [a] [] [] id) ∧
      (h.exc.event &&& m = 0 → Holds (.wait c a) c s f [a] [] (.event m) id)) ∧
    (bit v 63 = true → lvlOf h = .machine → h.exc.event.getLsbD 0 = false → Undisturbed c f → Usable h [a] [] [] →
      ∃ t, exec (.waitPark c a) s = .next t ∧ (thr c t).run = .parked ∧ (thr c t).pc = h.pc + 8 ∧ (thr c t).gregs = h.gregs) ∧
    (bit v 63 = true → lvlOf h ≠ .machine → Usable h [a] [] [] → Raises (.waitPark c a) c s f 2 2 0 0) ∧
    (Usable h [] [] [] → Raises (.brk c tag) c s f 0xD 0 0 tag.toNat)

/-! ### Core events (03 R94; 05 R129, R152; 08 R221, R222, R226 to R230; 12 R331; 19 R500) -/

/-- Asynchronous causes at a word boundary: a pending imprecise fault is taken before an event, an event is taken with its bit as SUB, a START
restarts a parked thread in its machine-level handler with cs.epc 0, an idle deadlock is delivered to thread 0, and CORE_EVSET sets the bits that its
level may set (05 R152; 08 R221, R226 to R230). -/
def Obligations.AsynchronousCausesAct : Prop :=
  ∀ (site : Site) (k : Fin 4) (s : State), hasThread site.val k = true →
    let h := getThr s site.val k
    let start := vectorOf h.exc .machine 0x11
    (atBoundary s site.val k = true → acceptsAsync h = true → ∀ i, h.imprecise = some i →
      exec (.impreciseFaultTaken site k) s = .next (stepDone site.val k (takeImprecise site.val k i s)) ∧
      exec (.eventInterrupt site k) s = .next s) ∧
    (atBoundary s site.val k = true → h.imprecise = none → ∀ b, deliverableBit h = some b →
      exec (.eventInterrupt site k) s = .next (stepDone site.val k
        (takeException site.val k { mkCause 0x11 b 0 with stall := h.abandoned } h.pc (leaveUnits site.val k s)))) ∧
    (h.run = .parked → h.halted = false → h.exc.event.getLsbD 0 = true → (getCore s site.val).power = .on → h.status.df = false →
      (getCore s site.val).mx.queue = [] → reachable s site.val .machine start = true →
      ∃ t, exec (.threadStart site k) s = .next t ∧ (getThr t site.val k).pc = start ∧ (getThr t site.val k).exc.epc = 0 ∧
        (getThr t site.val k).status.lvl = .machine ∧ (getThr t site.val k).status.exl = true ∧
        ((getThr t site.val k).run = .ready ∨ (getThr t site.val k).run = .running)) ∧
    (isCoreSite site.val = true → idleDue s site.val = true → acceptsAsync (getThr s site.val 0) = true →
      let u := takeException site.val 0 { mkCause 0x10 0 0 with stall := stallOf (getThr s site.val 0) } (getThr s site.val 0).pc
        (modThr site.val 0 (fun g => { g with comm := { g.comm with blocking := none } }) (modCore site.val (fun e => { e with idleSince := none }) s))
      exec (.idleDeadlock site) s = .next (if (getCore u site.val).power = .on then wakeThread site.val 0 u else u)) ∧
    (∀ (l : Level) (bits : BitVec 32), coreRuns s site.val = true →
      exec (.coreEvsetStore site k l bits) s = .next (afterEvent site.val k
        (modThr site.val k (fun g => { g with exc := { g.exc with event := g.exc.event ||| (bits &&& eventMask l) } }) s)))

/-- Answers: a result reaches the load that awaits it, an acknowledgement the threads whose stores it covers, an instruction fill the words that wait
for its line; UNREACHABLE and a timeout end a request of a thread with code 6 (03 R94; 05 R129; 12 R331; 19 R500). A load that ends with data writes
its register with the sign- or zero-extended bytes and leaves the list; one that ends with a fault writes nothing, poisons its register and posts an
imprecise fault with its effective address (05 R129, 08 R221, R222). -/
def Obligations.AnswersEndLoads : Prop :=
  (
  ∀ (n : Nat) (s : State) (p : Packet) (req : Nat) (k : Fin 4) (res : MemResult), arrived s n = some p →
    let u := acceptReply p s
    (p.body = .memReply req k res →
      (isStoreReq s p.dsite req = false → isFetchReq s p.dsite req = false → ∀ t o, loadOf u p.dsite req = some (t, o) →
        exec (.remoteResultReturn n) s = .next (endLoad p.dsite t o res u)) ∧
      (isStoreReq s p.dsite req = true → exec (.storeAck n) s = .next (endStore p.dsite k req res u)) ∧
      (isFetchReq s p.dsite req = true → exec (.icacheLineFill n) s = .next (fetchReply p.dsite req res u))) ∧
    (∀ op, p.body = .unreachable (.memReq req k op) → exec (.unreachableReply n) s = .next (endRequest p.dsite k req (.fault 6 p.addr) u)) ∧
    (∀ site : Site, exec (.responseTimeout (.thread site k req)) s = .next (endRequest site.val k req (.fault 6 0) s))
  ) ∧
  (
  ∀ (site : Nat) (t : Fin 4) (o : Outstanding) (v : Word) (code a : Nat) (s : State), (getThr s site t).run = .running →
    let h := getThr s site t
    let u := getThr (endLoad site t o (.data v) s) site t
    let w := getThr (endLoad site t o (.fault code a) s) site t
    u.loads = h.loads.filter (fun p => p.req != o.req) ∧ w.loads = u.loads ∧ u.pc = h.pc ∧ w.pc = h.pc ∧
    (∀ k, o.dst = some k → mget u.gregs k 0 = extendLoad o.signed (2 ^ o.lg.val) (v.toNat % 256 ^ (2 ^ o.lg.val)) ∧
      (∀ j, j ≠ k → mget u.gregs j 0 = mget h.gregs j 0) ∧ w.gregs = h.gregs ∧ (k, o.ea) ∈ w.poisonG) ∧
    (o.dst = none → u.gregs = h.gregs) ∧ (h.imprecise = none → w.imprecise = some ⟨code, if code = 2 then 3 else 0, o.ea, false⟩)
  )

/-! ### Locks (05 R143 to R149; 19 Table 19.10) -/

/-- A lock at its unit: a request for a free lock makes its thread the owner and sends the grant, one for a lock that another thread owns waits its
turn, an UNLOCK of the owner frees it or passes it to the first waiter, and any other UNLOCK sets ERR (05 R143 to R146). No watch is registered at the
unit. The core's side of locks and lost units: a grant completes the LOCK that waits for it, with ORPHAN in its predicate and the lock in the held-
lock record; a retry sends the request again; an owner-reset notice and a unit-lost notice are acted on and taken (05 R143, R144, R147; 15 R401; 19
Table 19.10). -/
def Obligations.LocksAct : Prop :=
  (
  ∀ (n : Nat) (s : State) (p : Packet) (k thid : Nat) (th : Fin 4), atUnit s n = some p → (getUnit s (clusterOf p.dsite)).watches = [] →
    let c := clusterOf p.dsite
    let l := getLock s c k
    (p.body = .lockReq k thid th →
      (l.owner = none → ∃ t, exec (.lockRequestArrival n) s = .next t ∧ getLock t c k = { l with owner := some thid, orphan := false, gseq := l.gseq + 1 } ∧
        (∀ site u, siteOfThid s thid = some (site, u) → ∃ q ∈ t.packets, q.body = .grant k c l.orphan thid (l.gseq + 1) u ∧ q.dsite = site) ∧
        (∀ j, j ≠ k → getLock t c j = getLock s c j)) ∧
      (∀ o, l.owner = some o → o ≠ thid → ¬ thid ∈ l.waiters → waitersUsed (getUnit s c) < 1024 →
        ∃ t, exec (.lockRequestArrival n) s = .next t ∧ getLock t c k = { l with waiters := l.waiters ++ [thid] } ∧
          (∀ j, j ≠ k → getLock t c j = getLock s c j))) ∧
    (p.body = .unlock k thid th →
      (l.owner = some thid → l.waiters = [] → ∃ t, exec (.unlockArrival n) s = .next t ∧ getLock t c k = { l with owner := none }) ∧
      (∀ w r, l.owner = some thid → l.waiters = w :: r →
        ∃ t, exec (.unlockArrival n) s = .next t ∧
          getLock t c k = { l with owner := some w, waiters := r, orphan := false, gseq := l.gseq + 1 }) ∧
      (l.owner ≠ some thid → ∃ t, exec (.unlockArrival n) s = .next t ∧ getLock t c k = { l with err := true }))
  ) ∧
  (
  ∀ (n : Nat) (s : State) (p : Packet) (k c thid : Nat) (gs : BitVec 32) (orphan : Bool) (th : Fin 4) (pd : PReg),
    (arrived s n = some p → p.body = .grant k c orphan thid gs th → (getThr s p.dsite th).run = .stalled (.lock (lockAddr c k) pd) →
      (getThr s p.dsite th).halted = false →
      let h := getThr s p.dsite th
      exec (.lockGrantArrival n) s = .next (traceRec p.dsite 4 th (k * 65536) (completeWait p.dsite th
        (modThr p.dsite th (fun g => { writeP pd orphan g with pc := g.pc + 8, comm := { holdLock (lockAddr c k) g.comm with lockDue := none } })
          (dropPacket n s)))) ∧
      (h.comm.held.length < 16 → lockAddr c k ∈ (holdLock (lockAddr c k) h.comm).held)) ∧
    (∀ (site : Site) (u : Fin 4) (a d : Nat), hasThread site.val u = true → (getThr s site.val u).run = .stalled (.lock a pd) →
      (getThr s site.val u).comm.lockDue = some d → d ≤ (paceOf s site.val).toNat → lockOf a = some (c, k) →
      exec (.lockRetry site u) s = .next (sendLockReq site.val u c k (modThr site.val u (fun g => { g with comm := { g.comm with lockDue := none } }) s))) ∧
    (∀ site, atUnit s n = some p → p.body = .ownerReset site →
      exec (.ownerResetNotice n) s = .next (ownerReset (clusterOf p.dsite) site (dropPacket n s))) ∧
    (arrived s n = some p → p.body = .unitLost c → p.sdev = ownDev s → c ≠ s.img.desig →
      exec (.unitLostNotice n) s = .next ((clusterSites (clusterOf p.dsite)).foldl (fun u site => lostAtCore site c u) (dropPacket n s)))
  )

/-! ### Barriers (15 R384 to R394) -/

/-- Arrivals at a barrier of cluster scope: an arrival that is not the last is counted and its thread noted; the last one releases the barrier, which
starts a new generation with nobody arrived; a write of the idle barrier's configuration takes its fields clamped; ABORT lets everyone go and keeps
GEN (15 R384, R387, R390, R391, Table 15.7). No watch is registered at the unit. Barriers beyond one cluster: a combined arrival is added at the
designated unit, a device arrival at the manager's; a release copy releases the barrier at its unit; a release notice completes the BAR of a thread
that waits with the status and the generation in its register (15 R389, R390, R392; 17 R445). -/
def Obligations.BarriersAct : Prop :=
  (
  ∀ (n : Nat) (s : State) (p : Packet) (b : Fin 64) (gen : BitVec 16) (any wait : Bool) (th : Fin 4) (cl : Fin 128) (v : BitVec 64),
    (atUnit s n = some p → p.body = .arrive b.val gen any wait th → p.ssite < 2048 → (getUnit s (clusterOf p.ssite)).watches = [] →
      let c := clusterOf p.ssite
      let x := getBar s c b.val
      let i := barIndex p.ssite th
      arrivalCheck (getUnit s c) x i gen any = none →
      (x.lcount + 1 ≠ x.lexp.toNat → ∃ t, exec (.barrierArrival n) s = .next t ∧
        getBar t c b.val = { x with arrived := x.arrived ||| (1#64 <<< i), waiting := if wait then x.waiting ||| (1#64 <<< i) else x.waiting,
                                    lcount := x.lcount + 1 }) ∧
      (x.lcount + 1 = x.lexp.toNat → x.scope = 1 → ∃ t, exec (.barrierArrival n) s = .next t ∧
        getBar t c b.val = { x with gen := x.gen + 1, lcount := 0, fwd := false, arrived := 0, waiting := 0, departed := 0 })) ∧
    ((getUnit s cl.val).watches = [] →
      let x := getBar s cl.val b.val
      (∃ t, exec (.barrierAbort cl b) s = .next t ∧
        getBar t cl.val b.val = { x with lcount := 0, count := 0, gcount := 0, fwd := false, arrived := 0, waiting := 0, departed := 0 }) ∧
      (barIdle x = true → bit v 1 = false → s.top.role ≠ 0 → ∃ t, exec (.synBcfgWrite cl b v) s = .next t ∧
        getBar t cl.val b.val = { x with scope := BitVec.ofNat 2 (fld v 63 62), lexp := BitVec.ofNat 7 (clampNat 0 64 (fld v 61 55)),
                                         total := BitVec.ofNat 13 (clampNat 1 7184 (fld v 51 39)), gdev := BitVec.ofNat 9 (clampNat 1 511 (fld v 38 30)) }) ∧
      (barIdle x = false → bit v 1 = false → exec (.synBcfgWrite cl b v) s = .next s))
  ) ∧
  (
  ∀ (n : Nat) (s : State) (p : Packet) (b c k : Nat) (gen : BitVec 16),
    (atUnit s n = some p →
      (p.body = .combined b c k → (getUnit s s.img.desig).watches = [] →
        exec (.combinedArrival n) s = .next (evalWatches s.img.desig (addCombined b k (dropPacket n s))) ∧
        ((getBar s s.img.desig b).count + k < (getBar s s.img.desig b).total.toNat →
          getBar (addCombined b k s) s.img.desig b = { getBar s s.img.desig b with count := (getBar s s.img.desig b).count + k })) ∧
      (p.body = .deviceArrival b k →
        exec (.deviceArrival n) s = .next (evalWatches s.img.desig (countDevice b (dropPacket n s))) ∧
        ((getBar s s.img.desig b).gcount + 1 ≠ (getBar s s.img.desig b).gdev.toNat →
          getBar (countDevice b s) s.img.desig b = { getBar s s.img.desig b with gcount := (getBar s s.img.desig b).gcount + 1 })) ∧
      (p.body = .release b gen → exec (.releaseCopyArrival n) s = .next (releaseBar (clusterOf p.dsite) b gen (dropPacket n s)))) ∧
    (∀ (t : Fin 4) (d status : Nat), arrived s n = some p → p.body = .notice c b gen status (1#4 <<< t.val) 0 →
      (getThr s p.dsite t).run = .stalled (.barrier c b d) → (getThr s p.dsite t).halted = false →
      exec (.releaseNotice n) s = .next (completeBar p.dsite t d status gen (dropPacket n s)) ∧
      (∀ (key : Nat) (u : State), readKey (writeKey (some key) (barResult status gen) (getThr u p.dsite t)) (some key) =
        mk 19 16 status ||| mk 15 0 gen.toNat))
  )

/-! ### Watches and pace (15 R395 to R399, R402; 01 Table 1.3) -/

/-- Watches: a registration that is refused sends its message at once and takes no entry: BADCOND for a condition that is reserved, NOSLOT without a
free entry or comparator, ABSENT and REFUSED for a word that its core cannot give; any other takes the lowest free entry and ends with MET where its
condition holds already. A match that a core reports ends its watch with MET, the limit with TIMEOUT, or with MET where the condition holds by then,
and UNWATCH the thread's watch on the word with CANCELLED, each freeing the entry; a message fills the slot of its handle and sets the thread's event
(15 R396, R397, R399). Pace: a tick adds 1 to a cluster's counter; RATIO is the count since the last window; RATE, 0 while the half-domain is powered
down, keeps its extremes, a RATE of 0 being no minimum, and CLR sets both to it (15 R402; 01 Table 1.3, R30). -/
def Obligations.WatchesAndPaceAct : Prop :=
  (
  ∀ (n : Nat) (s : State) (p : Packet) (handle target : Nat) (cond : Word) (th : Fin 4), atUnit s n = some p →
    p.body = .watchReg handle target cond th →
    let c := clusterOf p.dsite
    let entries := fun (u : State) => (getUnit u c).watches
    let after := fun (f : State → Prop) => ∃ u, exec (.watchRegistration n) s = .next (afterPacket n s u) ∧ f u
    let sends := fun (st v : Nat) (u : State) => ∃ q, u.packets = (dropPacket n s).packets ++ [q] ∧ q.body = .watchMsg st (BitVec.ofNat 32 v) handle th ∧
      q.dsite = p.ssite
    let refuses := fun (st : Nat) => after (fun u => sends st 0 u ∧ entries u = entries s)
    (badCond cond = true → refuses 3) ∧
    (badCond cond = false →
      (firstBit 256 (fun i => (mfind (entries s) i).isNone) = none → refuses 4) ∧
      (∀ e, firstBit 256 (fun i => (mfind (entries s) i).isNone) = some e →
        (∀ w off, regionOf target = .window w off →
          let v := BitVec.ofNat 64 (leNat (lmReadN s w off 8))
          let reached := windowServed s w = true ∧ (w = p.ssite ∨ sharedStart w (getCore s w) ≤ off)
          (windowServed s w = false → refuses 6) ∧
          (windowServed s w = true → w ≠ p.ssite → off < sharedStart w (getCore s w) → refuses 5) ∧
          (reached → 16 ≤ (getCore s w).comparators.length → refuses 4) ∧
          (reached → (getCore s w).comparators.length < 16 →
            (watchHolds cond v = false → after (fun u => mfind (entries u) e = some (newWatch s c p.ssite handle target cond th) ∧
              (getCore u w).comparators = (getCore s w).comparators ++ [⟨off, cond, c, e⟩] ∧ u.packets = (dropPacket n s).packets)) ∧
            (watchHolds cond v = true → after (fun u => sends 0 (watchField cond v) u ∧ mfind (entries u) e = none)))) ∧
        (∀ k, lockOf target = some (c, k) → entries s = [] →
          let v := lockWord (getLock s c k)
          (watchHolds cond v = false → after (fun u => entries u = [(e, newWatch s c p.ssite handle target cond th)] ∧
            u.packets = (dropPacket n s).packets)) ∧
          (watchHolds cond v = true → after (fun u => sends 0 (watchField cond v) u ∧ entries u = [])))))
  ) ∧
  (
  ∀ (n : Nat) (s : State) (c : Fin 128) (e : Fin 256) (w : Watch), mfind (getUnit s c.val).watches e.val = some w →
    let v := watchedWord s w.target
    let ends := fun (st x : Nat) (gone t : State) => (∃ q, t.packets = gone.packets ++ [q] ∧ q.body = .watchMsg st (BitVec.ofNat 32 x) w.handle w.thr ∧
      q.dsite = w.site) ∧ mfind (getUnit t c.val).watches e.val = none
    (∀ p x, atUnit s n = some p → clusterOf p.dsite = c.val → p.body = .wordMatch e.val x → matchAwaited s c.val e.val p.ssite = true →
      ∃ t, exec (.wordWatchMatch n) s = .next t ∧ ends 0 x.toNat (dropPacket n s) t) ∧
    (∀ d, w.due = some d → d ≤ (getUnit s c.val).pace.toNat → matchReported s c.val e.val = false →
      ∃ t, exec (.watchTimeout c e) s = .next t ∧ ends (if watchHolds w.cond v then 0 else 1) (watchField w.cond v) s t) ∧
    (∀ d, w.due = some d → (getUnit s c.val).pace.toNat < d → exec (.watchTimeout c e) s = .next s) ∧
    (∀ p, atUnit s n = some p → clusterOf p.dsite = c.val → p.body = .unwatch w.target w.thr → p.ssite = w.site →
      (getUnit s c.val).watches = [(e.val, w)] → matchReported s c.val e.val = false →
      ∃ t, exec (.unwatchArrival n) s = .next (afterPacket n s t) ∧ ends 2 0 (dropPacket n s) t)
  ) ∧
  (
  ∀ (n : Nat) (s : State) (p : Packet) (status handle : Nat) (v : BitVec 32) (th : Fin 4) (r : Word), arrived s n = some p →
    p.body = .watchMsg status v handle th → mget (getThr s p.dsite th).comm.watches handle .free = .registered r → hasThread p.dsite th = true →
    let h := getThr s p.dsite th
    let event := fld h.comm.syncev 4 0
    8 ≤ event →
    ∃ u m, exec (.watchMessageArrival n) s = .next (afterPacket n s u) ∧
      mget (getThr u p.dsite th).comm.watches handle .free = .holding h.comm.watchOrder m ∧ bit m 63 = true ∧ fld m 62 60 = status % 8 ∧
      fld m 55 24 = v.toNat ∧ fld m 2 0 = handle % 8 ∧ (getThr u p.dsite th).exc.event = h.exc.event ||| (1#32 <<< event)
  ) ∧
  (
  ∀ (s : State) (c : Fin 128) (h : Fin 8) (measured : BitVec 16),
    let rate := if railOn s h.val then measured else 0
    (∃ t, exec (.paceTick c) s = .next t ∧ (getUnit t c.val).pace = (getUnit s c.val).pace + 1 ∧ (∀ j, j ≠ c.val → getUnit t j = getUnit s j)) ∧
    (∃ t, exec (.paceRatioUpdate c) s = .next t ∧ (getUnit t c.val).ratio = ((getUnit s c.val).pace - (getUnit s c.val).paceMark).setWidth 16 ∧
      (getUnit t c.val).paceMark = (getUnit s c.val).pace ∧ (getUnit t c.val).pace = (getUnit s c.val).pace) ∧
    (∃ t, exec (.paceRateUpdate h measured) s = .next t ∧ (getPace t h.val).rate = rate ∧ rate.toNat ≤ (getPace t h.val).max.toNat ∧
      (getPace s h.val).max.toNat ≤ (getPace t h.val).max.toNat ∧ (rate = 0 → (getPace t h.val).min = (getPace s h.val).min) ∧
      (rate ≠ 0 → (getPace t h.val).min.toNat ≤ rate.toNat) ∧ (getPace t h.val).upd = (getPace s h.val).upd + 1 ∧
      (∀ j, j ≠ h.val → getPace t j = getPace s j)) ∧
    (∃ t, exec (.topPaceClr h) s = .next t ∧ (getPace t h.val).max = (getPace s h.val).rate ∧ (getPace t h.val).min = (getPace s h.val).rate ∧
      (getPace t h.val).rate = (getPace s h.val).rate)
  )

/-! ### Exceptions (08 R220 to R224, R238, R239) -/

/-- Taking an exception. With EXL = 0 and DF = 0 the saved address, the cause word and the address go to the registers of the entry, PLVL and PEIE
keep the level and EIE, EXL becomes 1, EIE and GS 0, the thread goes on at the vector of the code at the target level, and no register, predicate or
window changes (R223, R224). With EXL = 1 it is a fault during entry: cs.depc, cs.dcause and cs.deaddr take it, gr30 is exchanged with cs.dfstk, DF
becomes 1, and the thread goes on at cs.mvec + 0 at the machine level (R238). With DF = 1, or where the handler of a fault during entry cannot be
reached, a core is reset (R239). A vector that cannot be reached is itself a fault during entry, of code 7 at the vector's address. -/
def Obligations.ExceptionEntrySaves : Prop :=
  ∀ (s : State) (site : Nat) (t : Fin 4) (k : Cause) (epc : Word),
    let h := getThr s site t
    let tl := targetLevel h k
    let e := if tl = .machine then h.exc.mvec else h.exc.svec
    let target := BitVec.ofNat 64 (e.toNat % 2 ^ 48 / 64 * 64 + 64 * k.code)
    let dtarget := BitVec.ofNat 64 (h.exc.mvec.toNat % 2 ^ 48 / 64 * 64)
    let after := takeException site t k epc s
    let u := getThr after site t
    (h.status.df = false → h.status.exl = false → reachable s site tl target = true →
      u.exc = { h.exc with epc := epc, ecause := ecauseWord k h.status.lvl, eaddr := k.eaddr } ∧
      u.status = { h.status with plvl := h.status.lvl, peie := h.status.eie, eie := false, exl := true, gs := false, lvl := tl } ∧
      u.pc = target ∧ u.gregs = h.gregs ∧ u.preds = h.preds ∧ u.vregs = h.vregs ∧ u.win = h.win ∧ u.comm = h.comm ∧ u.reach = h.reach ∧
      u.fp.fpcsr = h.fp.fpcsr ∧ u.fp.srseed = h.fp.srseed ∧ (∀ v, v ≠ t → getThr after site v = getThr s site v) ∧ after.hbm = s.hbm) ∧
    (h.status.df = false → h.status.exl = true → reachable s site .machine dtarget = true →
      u.exc = { h.exc with depc := epc, dcause := ecauseWord k h.status.lvl, deaddr := k.eaddr, dfstk := readGr h 30 } ∧
      u.status = { h.status with lvl := .machine, df := true } ∧ u.pc = dtarget ∧ readGr u 30 = h.exc.dfstk ∧
      (∀ r : Reg, grKey h.win r ≠ grKey h.win 30 → readGr u r = readGr h r) ∧ (∀ v, v ≠ t → getThr after site v = getThr s site v)) ∧
    (h.status.df = false → h.status.exl = false → reachable s site tl target = false → reachable s site .machine dtarget = true →
      u.exc = { h.exc with epc := epc, ecause := ecauseWord k h.status.lvl, eaddr := k.eaddr, depc := target,
                           dcause := ecauseWord (mkCause 7 0 target) tl, deaddr := target, dfstk := readGr h 30 } ∧
      u.status = { h.status with plvl := h.status.lvl, peie := h.status.eie, eie := false, exl := true, gs := false, lvl := .machine, df := true } ∧
      u.pc = dtarget) ∧
    ((h.status.df = true ∨ h.status.exl = true ∧ reachable s site .machine dtarget = false) → ccOf site = none →
      (getCore after site).power = .reset ∧ (∀ v, getThr after site v = Thread.reset s.rst.entry v) ∧ after.hbm = s.hbm)

/-- What a word leaves alone. A fetch changes no register, predicate, vector register, window, status, exception register, local memory or HBM. A word
that is not being stepped and after which nothing is held ends with its pc 8 higher and nothing else of its registers changed, and a write of a
general register on the way changes that register alone; gr0 keeps reading 0 (03 R70, Table 3.3; 05 R129). -/
def Obligations.WordsKeepTheRest : Prop :=
  (∀ (c : Ctx) (s f : State), Issues c s f →
    let h := thr c s
    let u := thr c f
    u.gregs = h.gregs ∧ u.preds = h.preds ∧ u.vregs = h.vregs ∧ u.poisonG = h.poisonG ∧ u.poisonV = h.poisonV ∧ u.win = h.win ∧ u.status = h.status ∧
    u.exc = h.exc ∧ u.reach = h.reach ∧ u.fp = h.fp ∧ u.comm = h.comm ∧ u.pc = h.pc ∧ u.loads = h.loads ∧
    (getCore f c.site.val).lm = (getCore s c.site.val).lm ∧ (getCore f c.site.val).bits = (getCore s c.site.val).bits ∧
    (getCore f c.site.val).mx = (getCore s c.site.val).mx ∧ f.hbm = s.hbm) ∧
  (∀ (c : Ctx) (f : State) (d : Reg) (v : Word), Undisturbed c f →
    let h := thr c f
    let after := retire c (setGr (atOf c) d v (issued c f))
    let u := thr c after
    u.pc = h.pc + 8 ∧ u.preds = h.preds ∧ u.vregs = h.vregs ∧ u.win = h.win ∧ u.status = h.status ∧ u.exc = h.exc ∧ u.reach = h.reach ∧ u.fp = h.fp ∧
    u.comm = h.comm ∧ u.loads = h.loads ∧ u.stores = h.stores ∧ u.run = h.run ∧ readGr u 0 = 0 ∧ (d.val ≠ 0 → readGr u d = v) ∧
    (∀ r : Reg, grKey h.win r ≠ grKey h.win d → readGr u r = readGr h r) ∧
    (∀ w, w ≠ c.thr → getThr after c.site.val w = getThr f c.site.val w) ∧ (∀ j, j ≠ c.site.val → getCore after j = getCore f j) ∧
    (getCore after c.site.val).lm = (getCore f c.site.val).lm ∧ (getCore after c.site.val).bits = (getCore f c.site.val).bits ∧
    after.hbm = f.hbm ∧ after.packets = f.packets)

/-! ### Reset, the queue and memory -/

/-- What reset leaves, as the manual gives it: event masks, status and exception registers 0, every thread but thread 0 parked, local-memory slices of
8 units, IDLE_EN and its delay, cs.chcfg, the pools and limits of the management blocks (05 R131, R134; 08 Tables 8.2 to 8.9; 14 Table 14.9; 16 Table
16.10; 18 Table 18.4; 21 R521), and the memory in canonical form with no command waiting. -/
def Obligations.ResetLeaves : Prop :=
  (∀ (p : Power) (entry : Word) (t : Fin 4),
    let h := coreThr (Core.reset p entry) t
    h.pc = entry ∧ h.run = (if t = 0 then .running else .parked) ∧ h.halted = false ∧ h.preds = 1 ∧ h.status = ⟨false, false, false, false, false, .machine, .machine⟩ ∧
    h.exc.event = 0 ∧ h.exc.evmask = 0 ∧ h.exc.epc = 0 ∧ h.exc.ecause = 0 ∧ h.exc.progress = 0 ∧
    (Core.reset p entry).lmslice = 8 ∧ (Core.reset p entry).idleEn = true ∧ (Core.reset p entry).idleDelay = 0x40) ∧
  State.reset.pending = [] ∧ MemoryOk State.reset ∧ State.reset.aoc = 0 ∧ State.reset.packets = [] ∧
  State.reset.img.state = .idle ∧ State.reset.img.sect = 0xFF ∧ State.reset.mgt.noteThid = 7168 ∧
  (∀ n, (getPort State.reset n).ctl = ⟨false, false, .off⟩ ∧ (getPort State.reset n).serthr = 0x400) ∧
  (∀ site, (getRouter State.reset site).gate = ⟨true, false, .on⟩ ∧ (getRouter State.reset site).hmax = 96)

/-- Every command leaves the commands that wait as they are, so that a step takes exactly one of them. -/
def Obligations.QueueKept : Prop :=
  ∀ (s t : State), step s = .next t → t.pending = s.pending.tail

/-- Every step keeps the memory of the HBM stacks in its canonical form. -/
def Obligations.MemoryOkKept : Prop :=
  ∀ (s t : State), MemoryOk s → step s = .next t → MemoryOk t

/-- A command that names an agent of the device answers a next state in every state; one that names none faults. -/
def Obligations.ExecAnswersExactlyTheWellFormed : Prop :=
  ∀ (i : Instr) (s : State),
    (i.wellFormed = true → ∃ t, exec i s = .next t) ∧ (i.wellFormed = false → exec i s = .fault .noAgent)

/-! ### The mesh (12 R322 to R336) -/

/-- Routing: a packet whose header is bad is discarded with a record; one whose table entry is not valid is discarded, with UNREACHABLE to the source
of a request and a record for any other class; one whose entry names a link that is up, with adaptation off, moves over that link once the buffer
behind it has room and no packet there goes before it, marked where its class is congested, and waits until then; one whose entry names its own
attachment is handed over, or waits to be counted where it belongs to a stream; a multicast whose clusters all lie at its own unit is handed to it
(12 R315, R317, R319, R322, R323, R331, R334, R335). Routers: a CRC error is counted and replayed, and the eighth failed replay of a flit marks the
link down at both ends; the injection rate recovers by 8 up to 256; EN drives the injection gate, which drains until its site is quiet; MSH_ERR.CLR
clears its counts (12 R332, R335, R336; 19 Table 19.12). The
room of a flit that lets a whole packet pass, and the flits that count as congestion, are the model's (log 83). -/
def Obligations.RoutersAct : Prop :=
  (
  ∀ (n : Nat) (router : Site) (s : State) (p : Packet), findPacket s n = some p → p.at_ = router.val → p.delivered = false →
    (getRouter s p.at_).inService = true → heldAtGate s p = false →
    let r := getRouter s p.at_
    let e := if p.ddev = ownDev s then mget r.siteTable p.dsite 0 else mget r.devTable p.ddev 0
    let port := entryPri e
    let marked := decide (r.mark.toNat ≤ portFlits s p port + packetFlits p) && (p.cls = 3 || p.cls = 4)
    let becomes := fun (q : Packet) => ∃ t, exec (.packetRoute n router) s = .next t ∧ t.packets = s.packets.map (fun x => if x.id == n then q else x)
    let recorded := fun (code : Nat) => exec (.packetRoute n router) s =
      .next (postRecord 1 .router code p.at_ p.inPort 0 (headerWord0 p).toNat (dropPacket n s))
    (headerBad p = true → recorded 0x30) ∧
    (headerBad p = false → p.mc = none → entryValid e = false →
      ((p.cls = 3 ∨ p.cls = 4) → ∃ t x, exec (.packetRoute n router) s = .next t ∧ t.packets = (dropPacket n s).packets ++ [x] ∧
        x.body = .unreachable p.body ∧ x.dsite = p.ssite ∧ x.ddev = p.sdev) ∧
      (p.cls ≠ 3 → p.cls ≠ 4 → (∀ b g a w t, p.body ≠ .arrive b g a w t) → (∀ h a c t, p.body ≠ .watchReg h a c t) → syncParty p = none →
        recorded 0x31)) ∧
    (headerBad p = false → p.mc = none → entryValid e = true → p.esc = false → entryAen e = false → p.cls ≠ 2 →
      (∀ d, linkUp r port = true → port ≠ 0 → neighbour p.at_ port = some d →
        (hasCredit s p.at_ port false p = true → winsPort s p port = true → becomes { p with
          at_ := d, inPort := oppositePort port, hops := min 127 (p.hops + 1), esc := false, ce := p.ce || marked }) ∧
        (hasCredit s p.at_ port false p = true → winsPort s p port = false → exec (.packetRoute n router) s = .next s) ∧
        (hasCredit s p.at_ port false p = false → p.cls ≠ 3 → exec (.packetRoute n router) s = .next s)) ∧
      (port = 0 → p.ddev = ownDev s → winsPort s p port = true →
        becomes { p with delivered := !counted p, ce := p.ce || marked })) ∧
    (∀ mask : BitVec 128, headerBad p = false → p.mc = some mask → mask ≠ 0 → (∀ c, c < 128 → mask.getLsbD c = true → entryValid (mget r.mcTable c 0) = true) →
      (∀ k, k ≠ 7 → maskToward r mask k = 0) → maskToward r mask 7 = mask → winsPort s p 7 = true →
      ∃ t q, exec (.packetRoute n router) s = .next t ∧ t.packets = (s.packets ++ [q]).filter (fun x => x.id != n) ∧ q.mc = some mask ∧ q.dsite = p.at_ ∧
        q.delivered = true ∧ q.body = p.body)
  ) ∧
  (
  ∀ (site : Site) (port : Fin 8) (en : Bool) (s : State),
    let r := getRouter s site.val
    (linkUp r port.val = true → port ≠ 0 → port ≠ 7 →
      (∃ t, exec (.meshFlitCrcError site port false) s = .next t ∧ mget (getRouter t site.val).link port.val 0 = 2 ∧
        mget (getRouter t site.val).replays port.val 0 = 0 ∧
        (getRouter t site.val).crcerr = (if r.crcerr = BitVec.allOnes 32 then r.crcerr else r.crcerr + 1)) ∧
      (∀ d, mget r.replays port.val 0 = 7 → neighbour site.val port.val = some d →
        ∃ t, exec (.meshFlitCrcError site port true) s = .next t ∧ mget (getRouter t site.val).link port.val 0 = 3 ∧
          mget (getRouter t d).link (oppositePort port.val) 0 = 3)) ∧
    (∃ t, exec (.injectionRateRecover site) s = .next t ∧ (getRouter t site.val).rate = min 256 (r.rate + 8) ∧
      (∀ j, j ≠ site.val → getRouter t j = getRouter s j)) ∧
    (loaderHolds s (.gate site.val) = false → r.inService = true → ∃ t, exec (.mshCtlEn site en) s = .next t ∧
      (r.gate.gate = .off → en = true → (getRouter t site.val).gate = ⟨true, false, .on⟩) ∧
      (r.gate.gate = .on → en = false → (getRouter t site.val).gate = ⟨false, false, .draining⟩) ∧
      (r.gate.gate = .on → en = true → (getRouter t site.val).gate = r.gate) ∧
      (r.gate.gate = .draining → (getRouter t site.val).gate = ⟨en, en, .draining⟩)) ∧
    (loaderHolds s (.gate site.val) = true →
      exec (.mshCtlEn site en) s = .next { s with img := { s.img with enign := true } }) ∧
    (quiet s site.val = true → r.gate.gate = .draining → ∃ t, exec (.injectionGateQuiet site) s = .next t ∧
      (getRouter t site.val).gate = (if r.gate.pend then ⟨true, false, .on⟩ else ⟨false, false, .off⟩)) ∧
    (quiet s site.val = false → exec (.injectionGateQuiet site) s = .next s) ∧
    (∃ t, exec (.mshErrClr site) s = .next t ∧ getRouter t site.val = { r with crcerr := 0, downs := 0 })
  )

/-- Streams: an unflagged packet is counted and delivered; a flagged one is delivered once its count has come, and otherwise takes a fence slot; a
packet that finds every counter taken is refused, STRBUSY goes to its source, which keeps it and sends it again unchanged after 64 pace counts; a
notice makes a router forget the streams of a source (12 R327 to R330). -/
def Obligations.StreamsAct : Prop :=
  (∀ (n : Nat) (s : State) (p : Packet), findPacket s n = some p → p.delivered = false → counted p = true → p.at_ = p.dsite → p.ddev = ownDev s →
    (getRouter s p.at_).slots.contains n = false →
    let r := getRouter s p.at_
    let k := streamKey p
    (∀ l, p.ord = false → counterInc r.counters k = some l →
      exec (.streamDelivery n) s =
        .next (releaseSlots 9 p.at_ (putPacket { p with delivered := true } (modRouter p.at_ (fun r => { r with counters := l }) s)))) ∧
    (∀ l, p.ord = true → counterGet r.counters k = some p.cnt → counterInc (counterDel r.counters k) (nextKey k) = some l →
      exec (.streamDelivery n) s =
        .next (releaseSlots 9 p.at_ (putPacket { p with delivered := true } (modRouter p.at_ (fun r => { r with counters := l }) s)))) ∧
    (p.ord = true → (counterGet r.counters k).getD 0 ≠ p.cnt → r.slots.length < 8 →
      exec (.streamDelivery n) s = .next (modRouter p.at_ (fun r => { r with slots := r.slots ++ [n] }) s)) ∧
    (p.ord = false → counterInc r.counters k = none → p.sdev = ownDev s →
      ∃ t x, exec (.streamDelivery n) s = .next t ∧ t.packets = (dropPacket n s).packets ++ [x] ∧ x.body = .strbusy n (bodyTag p.body) ∧
        x.dsite = p.ssite ∧ ({ p with at_ := p.ssite, inPort := 0, hops := 0, ce := false, esc := false, delivered := false }, none) ∈ (getRouter t p.ssite).resend)) ∧
  (∀ (n k tag : Nat) (s : State) (p : Packet), arrived s n = some p → p.body = .strbusy k tag →
    ∃ t, exec (.strbusyReply n) s = .next t ∧
      (∀ e ∈ (getRouter s p.dsite).resend, e.1.id = k → (e.1, some ((paceOf s p.dsite).toNat + 64)) ∈ (getRouter t p.dsite).resend) ∧
      (∀ e ∈ (getRouter s p.dsite).resend, e.1.id ≠ k → e ∈ (getRouter t p.dsite).resend)) ∧
  (∀ (site : Site) (n due : Nat) (s : State) (p : Packet), (getRouter s site.val).resend.find? (fun e => e.1.id == n) = some (p, some due) →
    (due ≤ (paceOf s site.val).toNat → ∃ t, exec (.strbusyResend site n) s = .next t ∧ t.packets = s.packets ++ [{ p with delivered := false }] ∧
      (getRouter t site.val).resend = (getRouter s site.val).resend.filter (fun e => e.1.id != n)) ∧
    ((paceOf s site.val).toNat < due → exec (.strbusyResend site n) s = .next s)) ∧
  (∀ (n src : Nat) (s : State) (p : Packet), arrived s n = some p → p.body = .streamReset src →
    (p.strm ≠ 0xF → exec (.streamResetNotice n) s = .next (resetStreams p.dsite p.sdev src (some p.strm) (dropPacket n s))) ∧
    (p.strm = 0xF → p.sdev = ownDev s →
      exec (.streamResetNotice n) s =
        .next ((clusterSites (clusterOf p.dsite)).foldl (fun u x => resetStreams x p.sdev src none u) (dropPacket n s)))) ∧
  (∀ (site dev src : Nat) (s : State), ∀ e ∈ (getRouter (resetStreams site dev src none s) site).counters, ¬ (e.1.1 = dev ∧ e.1.2.1 = src))

/-! ### HBM, windows and gather-reduce units (11; 05 R137; 10 R272 to R276) -/

/-- A request at its memory attach node: a load answers the bytes of memory, poisoned and counted where a sector is uncorrectable, a store writes its
bytes and nothing else, and a node that does not hold the address answers the unit-absent fault (11 R286, R293, R593; 10 R271). No flaw is newly
found; a migration's copy point has moved on before the request is served (log 81). The upkeep of a node: a page is retired to a spare row, a
pseudo-channel migrates to the reserve or is switched to it, or is refused where no reserve is free, a row is scrubbed, the temperature of a stack
reaches its four nodes with the refresh and admission settings it calls for and the management controller, and HBM_ECC.CLR clears its counts (11
R288, R295 to R297, Table 11.10). -/
def Obligations.HbmNodesAct : Prop :=
  (
  ∀ (n : Nat) (s : State) (p : Packet) (k req m : Nat) (t : Fin 4) (d : List Byte), arrived s n = some p → regionOf p.addr = .hbm →
    nodeOf p.dsite = some k →
    let s1 := advanceCopy k s
    let v := BitVec.ofNat 64 (leNat (hbmReadN s p.addr m))
    (nodeServed s k = true → hbmNodeFor s p.addr = some k →
      (p.body = .memReq req t (.load m) → 0 < m → hbmFirstBad s1 p.addr m = none →
        exec (.hbmRequest n []) s = .next (sendReply p (.memReply req t (.data v)) (dropPacket n s1))) ∧
      (p.body = .memReq req t (.load m) → hbmFirstBad s1 p.addr m ≠ none →
        exec (.hbmRequest n []) s = .next (sendReply p (.memReply req t (.poisoned v p.addr)) (dropPacket n (countKnownBad p.addr m s1)))) ∧
      (p.body = .memReq req t (.store d) → hbmFirstLost s1 p.addr d.length = none →
        ∃ u, exec (.hbmRequest n []) s = .next u ∧ (∃ q ∈ u.packets, q.body = .memReply req t .done ∧ q.dsite = p.ssite) ∧
          (∀ i, i < d.length → Memory.read u.hbm (p.addr + i) = d.getD i 0) ∧
          (∀ x, (x < p.addr ∨ p.addr + d.length ≤ x) → Memory.read u.hbm x = Memory.read s.hbm x))) ∧
    (nodeServed s k = false → ∀ op, p.body = .memReq req t op →
      exec (.hbmRequest n []) s = .next (sendReply p (.memReply req t (.fault 6 p.addr)) (dropPacket n s)))
  ) ∧
  (
  ∀ (k : Fin 96) (a : BitVec 48) (pc : Fin 8) (temp : BitVec 8) (s : State),
    let x := getNode s k.val
    (nodeServed s k.val = true →
      (∀ p o, placeOf s a.toNat = some (k.val, p, o) →
        (64 < sparesLeft x p → ∃ t, exec (.hbmRetirePage k a) s = .next t ∧
          getNode t k.val = { x with sparesUsed := mset x.sparesUsed p (mget x.sparesUsed p 0 + 1), redirected := x.redirected ++ [(p, o / 1024)] } ∧
          t.hbm = s.hbm) ∧
        (sparesLeft x p = 0 → exec (.hbmRetirePage k a) s = .next (postRecord 1 .node 0x23 (nodeSite k.val) p (o / 1024) 0 s)) ∧
        (∀ r, freeReserve x = some r → mget x.pc p 7 = 0 → ∃ t, exec (.hbmRetirePc k a) s = .next t ∧
          (getNode t k.val).migrating = some (p, 0) ∧ mget (getNode t k.val).pc p 7 = 2 ∧ mget (getNode t k.val).pc r 7 = 4) ∧
        (freeReserve x = none → exec (.hbmRetirePc k a) s = .next (postRecord 1 .node 0x25 (nodeSite k.val) p 0 0 s))) ∧
      (∀ r, freeReserve x = some r → mget x.pc pc.val 7 = 0 → ∃ t, exec (.pcSwitch k pc) s = .next t ∧
        mget (getNode t k.val).pc pc.val 7 = 3 ∧ mget (getNode t k.val).pc r 7 = 4 ∧ (getNode t k.val).switched = some r ∧
        (getNode t k.val).reserveFor = some pc.val ∧ (getNode t k.val).fresh = [] ∧
        t.mgt.raised = s.mgt.raised ++ [recFields s 2 .node 0x24 (nodeSite k.val) pc.val 1 0 1]) ∧
      (freeReserve x = none → mget x.pc pc.val 7 ≠ 7 →
        exec (.pcSwitch k pc) s = .next (postRecord 1 .node 0x25 (nodeSite k.val) pc.val 0 0 s)) ∧
      (x.period ≠ 0 → s.hbmBad = [] → x.switched = none → exec (.hbmScrubRow k []) s = .next (modNode k.val (fun n => { n with scrubRow :=
        (x.scrubRow + 1) % (((List.range 8).filter (fun p => mget x.pc p 7 != 7 && mget x.pc p 7 != 3)).length * 2621440) }) s)) ∧
      (∃ t, exec (.stackTempCheck k temp) s = .next t ∧ ∀ j, j < 4 →
        (getNode t (k.val / 4 * 4 + j)).temp = temp ∧ (getNode t (k.val / 4 * 4 + j)).refresh2 = decide (85 < temp.toInt) ∧
        (getNode t (k.val / 4 * 4 + j)).halfRate = decide (95 < temp.toInt) ∧ (k.val / 4 ∈ t.mgt.hotStacks ↔ 95 < temp.toInt))) ∧
    (∀ p c, x.migrating = some (p, c) → exec (.pcMigrationEnd k) s =
      .next (postRecord 2 .node 0x24 (nodeSite k.val) p 0 0 (modNode k.val (fun n => { n with pc := mset n.pc p 3, migrating := none }) s))) ∧
    (∃ t, exec (.hbmEccClr k) s = .next t ∧ getNode t k.val = { x with ue := 0, ce := 0 })
  )

/-- Accesses that arrive at a window or a register block: the own core reaches all of its local memory, another site the shared region of a window
that is in service; a load answers the bytes there, poisoned where a word is uncorrectable, and a store writes its bytes and nothing else; a window
out of service, an offset beyond local memory, a private slice, an address that names nothing, an atomic access to a register block, a level too low
and an access that its block does not take are refused with their codes; a synchronisation unit that does not serve answers UNREACHABLE; a register
that does take the access is read or written; an event message sets events of its thread (05 R137; 08 R226; 10 R272 to R276, R589). No flaw is newly
found in local memory. -/
def Obligations.AccessesArrive : Prop :=
  ∀ (n : Nat) (s : State) (p : Packet) (req m : Nat) (t : Fin 4) (d : List Byte), arrived s n = some p →
    let arr := exec (.meshAccessArrival ⟨n, []⟩) s
    let ends := fun (b : Body) (u : State) => arr = .next (settleHeld (sendReply p b (dropPacket n u)))
    let refused := fun (code : Nat) => ends (.memReply req t (.fault code p.addr)) s
    let who := if p.sdev = ownDev s then some p.ssite else none
    (∀ w off, regionOf p.addr = .window w off →
      let own := p.sdev = ownDev s ∧ p.ssite = w
      let reach := fun (k : Nat) => off + k ≤ lmBytes ∧ (own ∨ (windowServed s w = true ∧ sharedStart w (getCore s w) ≤ off))
      let v := BitVec.ofNat 64 (leNat (lmReadN s w off m))
      (p.body = .memReq req t (.load m) →
        (reach m → 0 < m → lmFirstBad s w off m = none → ends (.memReply req t (.data v)) s) ∧
        (reach m → lmFirstBad s w off m ≠ none → ends (.memReply req t (.poisoned v p.addr)) (noteLm w off m s)) ∧
        (¬ own → windowServed s w = false → refused 6) ∧
        (¬ own → windowServed s w = true → lmBytes < off + m → refused 8) ∧
        (own → lmBytes < off + m → refused 8) ∧
        (¬ own → windowServed s w = true → off + m ≤ lmBytes → off < sharedStart w (getCore s w) → refused 0xA)) ∧
      (p.body = .memReq req t (.store d) → reach d.length → lmFirstLost s w off d.length = none →
        ∃ u, ends (.memReply req t .done) u ∧ (∀ i, i < d.length → Memory.read (getCore u w).lm (off + i) = d.getD i 0) ∧
          (∀ x, (x < off ∨ off + d.length ≤ x) → Memory.read (getCore u w).lm x = Memory.read (getCore s w).lm x))) ∧
    (∀ op, regionOf p.addr = .hole → p.body = .memReq req t op → refused 8) ∧
    (isRegAddr p.addr = true →
      (unitLost s p.addr = true → ends (.unreachable p.body) s) ∧
      (unitLost s p.addr = false →
        (∀ op k b c, p.body = .memReq req t (.amo op k b c) → refused 8) ∧
        (p.body = .memReq req t (.load m) → atLeast p.lvl (regLevel p.addr false) = false → refused 2) ∧
        (p.body = .memReq req t (.load m) → atLeast p.lvl (regLevel p.addr false) = true → regFault s p.addr m false ≠ 0 →
          refused (regFault s p.addr m false)) ∧
        (∀ b off, p.body = .memReq req t (.load m) → atLeast p.lvl (regLevel p.addr false) = true → regFault s p.addr m false = 0 →
          blockOf p.addr = some (b, off) → (∀ site, b = .core site → off ≠ 0x818 ∧ inArray (off / 8 * 8) 0x908 8 4 = none) →
          ends (.memReply req t (.data (BitVec.ofNat 64 (((blockRead s b (off / 8 * 8)).getD 0).toNat / 256 ^ (off % 8) % 256 ^ m)))) s) ∧
        (∀ b off, p.body = .memReq req t (.store d) → atLeast p.lvl (regLevel p.addr true) = true → regFault s p.addr d.length true = 0 →
          blockOf p.addr = some (b, off) → (∀ site, b = .core site → off ≠ 0x818) →
          arr = .next (settleHeld (answer p (.memReply req t .done, blockWrite who p.lvl (BitVec.ofNat 64 (leNat d)) s b off)))))) ∧
    (∀ bits, p.body = .eventSet t bits → coreRuns s p.dsite = true → arr = .next (settleHeld (setEvents p.dsite t p.lvl bits (dropPacket n s))))

/-- Gather-reduce units: a request for pooling or scatter-accumulate whose parts have all come, in the order of its hod, is performed and queued with
its status; one that is malformed has status 0x20, a unit that is absent answers 0x21 and one that is not ON 0x25; a unit with eight requests leaves
it where it is; the oldest request ends with its status, which goes to the hod that sent it at the request's level with its CE copied; EN drives the
unit, which drains until its queue is empty (11 R300, R305 to R308, Table 11.16; 12 R316, R335). A bag with a bad position pools to NaN. The rows
are read and written at acceptance (log 81). -/
def Obligations.GruUnitsAct : Prop :=
  (∀ (n : Nat) (s : State) (p : Packet) (k : Nat) (ring : Fin 4) (tag off total : Nat) (part data : List Byte) (scatter : Bool), arrived s n = some p →
    nodeOf p.dsite = some k → p.body = .gruReq ring tag off total part → gruWhole (·.delivered) s p = some data → gruEarlier s p = false →
    gruScatterOp (parseGru data).op = scatter →
    let h := parseGru data
    let i := if scatter then Instr.gruScatter n else .gruPool n
    let queued := fun (status : Nat) (u : State) => exec i s = .next (modNode k (fun x => { x with
      gruQueue := x.gruQueue ++ [⟨p.sdev, p.ssite, ring, tag, p.strm, p.lvl, p.ce, status⟩] }) (gruDropParts p u))
    (gruThere s k = false → exec i s = .next (sendReply p (.gruStatus ring tag 0x21) (gruDropParts p s))) ∧
    (gruThere s k = true → (getNode s k).gru.gate ≠ .on → exec i s = .next (sendReply p (.gruStatus ring tag 0x25) (gruDropParts p s))) ∧
    (gruThere s k = true → (getNode s k).gru.gate = .on → 8 ≤ (getNode s k).gruQueue.length → exec i s = .next s) ∧
    (gruThere s k = true → (getNode s k).gru.gate = .on → (getNode s k).gruQueue.length < 8 →
      (gruGood s h data = false → queued 0x20 s) ∧
      (gruGood s h data = true → scatter = false → queued (gruPoolAll k p.ssite (gruAwaited s p.ssite ring tag) h data s).1
        (gruPoolAll k p.ssite (gruAwaited s p.ssite ring tag) h data s).2) ∧
      (gruGood s h data = true → scatter = true → queued (gruScatterAll k h data s).1 (gruScatterAll k h data s).2))) ∧
  (∀ (s : State) (k b i : Nat) (h : GruHeader) (d : List Byte), gruBag d b ≤ i → i < gruBag d (b + 1) → h.nrows ≤ gruIdx h d i →
    (gruPoolBag s k h d b).1 = List.replicate h.len (nanCode h.ofmt) ∧ 0x22 ≤ (gruPoolBag s k h d b).2.2.2) ∧
  (∀ (k : Fin 96) (en : Bool) (s : State),
    let x := getNode s k.val
    (∀ r rest, x.gruQueue = r :: rest → ∃ t q, exec (.gruRequestDone k) s = .next t ∧ (getNode t k.val).gruQueue = rest ∧
      t.packets = s.packets ++ [q] ∧ q.ddev = r.dev ∧ q.dsite = r.site ∧ q.ssite = nodeSite k.val ∧ q.cls = 1 ∧ q.lvl = r.lvl ∧ q.strm = r.strm ∧ q.ece = r.ce ∧
      q.body = .gruStatus r.ring r.tag r.status) ∧
    (x.gruQueue = [] → exec (.gruRequestDone k) s = .next s) ∧
    (loaderHolds s (.gru k.val) = true → exec (.gruCtlEn k en) s = .next { s with img := { s.img with enign := true } }) ∧
    (loaderHolds s (.gru k.val) = false → gruThere s k.val = false → exec (.gruCtlEn k en) s = .next s) ∧
    (loaderHolds s (.gru k.val) = false → gruThere s k.val = true → ∃ t, exec (.gruCtlEn k en) s = .next t ∧
      (x.gru.gate = .off → (getNode t k.val).gru = if en then ⟨true, false, .on⟩ else ⟨false, false, .off⟩) ∧
      (x.gru.gate = .on → (getNode t k.val).gru = if en then x.gru else ⟨false, false, .draining⟩) ∧
      (x.gru.gate = .draining → (getNode t k.val).gru = ⟨en, en, .draining⟩)) ∧
    (x.gruQueue = [] → x.gru.gate = .draining → ∃ t, exec (.gruDrainComplete k) s = .next t ∧
      (getNode t k.val).gru = (if x.gru.pend then ⟨true, false, .on⟩ else ⟨false, false, .off⟩)) ∧
    (x.gruQueue ≠ [] → exec (.gruDrainComplete k) s = .next s))

/-! ### Hod data movers (13) -/

/-- Rings: an enable reads the header and checks it, and the ring is ON with what the header holds or OFF with the code of the failed check; a disable
drains it, and the drain is over when no posted descriptor is left. The descriptor at the head is read and checked: one that fails is done with its
status, one that passes waits to begin (13 R339 to R342, R350). The thread does not wait for the ring, and no descriptor word is uncorrectable. -/
def Obligations.HodRingsAct : Prop :=
  ∀ (site : Site) (t : Fin 4) (lvl : Level) (v : BitVec 64) (s : State), isCoreSite site.val = true → coreRuns s site.val = true →
    (∀ c n l, (getThr s site.val t).run ≠ .stalled (.hodSpace c n l)) →
    let r := getRing s site.val t
    let hoff := min (fld v 39 25) 0x5FFF * 64
    let h := lmReadN s site.val hoff 64
    let code := ringHeaderCheck (getThr s site.val t) (levelOf (min (fld v 17 16) (levelCode lvl))) hoff h
    (r.ctl.gate = .off → r.ctl.pend = false → bit v 0 = true →
      (code = 0 → ∃ u, exec (.hodRctlEn site t lvl v) s = .next u ∧ (getRing u site.val t).ctl = ⟨true, false, .on⟩ ∧ (getRing u site.val t).err = 0 ∧
        (getRing u site.val t).out = 0 ∧ (getRing u site.val t).rbase = leAt h 0 4 ∧ (getRing u site.val t).rlog = leAt h 4 1 ∧
        (getRing u site.val t).cqbase = leAt h 8 4 ∧ (getRing u site.val t).cred = leAt h 12 2 ∧
        (getRing u site.val t).next = BitVec.ofNat 32 (leAt h 16 4)) ∧
      (code ≠ 0 → ∃ u, exec (.hodRctlEn site t lvl v) s = .next u ∧ (getRing u site.val t).ctl = Enable.off ∧
        (getRing u site.val t).err = BitVec.ofNat 8 code)) ∧
    (r.ctl.gate = .on → bit v 0 = false → ∃ u, exec (.hodRctlEn site t lvl v) s = .next u ∧ (getRing u site.val t).ctl = ⟨false, false, .draining⟩) ∧
    (r.ctl.gate = .draining → r.ctl.pend = false →
      (r.out = 0 → ∃ u, exec (.hodRingDrainComplete site t) s = .next u ∧ (getRing u site.val t).ctl = Enable.off) ∧
      (r.out ≠ 0 → exec (.hodRingDrainComplete site t) s = .next s)) ∧
    (r.ctl.gate = .on → r.active.length < r.out → r.active.all hodSent = true →
      let seq := r.next + BitVec.ofNat 32 r.active.length
      let b := lmReadN s site.val (hodSlotAddr r seq) 64
      lmFirstBad s site.val (hodSlotAddr r seq) 64 = none →
      ∃ u d, exec (.hodDescriptorCheck site t) s = .next u ∧ (getRing u site.val t).active = r.active ++ [d] ∧ d.seq = seq ∧ d.bytes = b ∧ d.begun = false ∧
        (hodCheck s site.val t b = none → d.status = 0 ∧ d.done = false) ∧
        (∀ st ea, hodCheck s site.val t b = some (st, ea) → d.status = st ∧ d.eaddr = BitVec.ofNat 64 ea ∧ d.done = true))

/-- Transfers: a descriptor waits for its credit and, with FEN, for every earlier one; then it begins and takes its credit, and a fill of one row
writes its pattern by address. Read data, acknowledgements, the read-back and the status of a gather-reduce request reach the descriptor that waits
for them (13 R347, R352 to R356). Completion: the oldest descriptor that is done has its record written to the completion ring, OWN cleared in its
slot, and OUT and NEXT advance; a posted descriptor of a draining ring that has not begun is cancelled; a ring with nothing posted completes nothing
(13 R342, R343, R357). No event is asked for, no word is uncorrectable, and the core traces nothing. -/
def Obligations.HodTransfersAct : Prop :=
  (
  (∀ (site : Site) (t : Fin 4) (s : State) (d : HodDesc), isCoreSite site.val = true → coreRuns s site.val = true →
    (∀ c n l, (getThr s site.val t).run ≠ .stalled (.hodSpace c n l)) →
    let r := getRing s site.val t
    let f := parseHod d.bytes
    r.active.getLast? = some d → d.begun = false → d.done = false → r.ctl.gate = .on →
    (f.crd = true → r.cred = 0 → exec (.hodDescriptorBegin site t) s = .next s) ∧
    (f.crd = false → f.fen = true → (∃ e ∈ r.active.dropLast, e.done = false) → exec (.hodDescriptorBegin site t) s = .next s) ∧
    ((f.crd = true → r.cred ≠ 0) → f.fen = false → ∃ u, exec (.hodDescriptorBegin site t) s = .next u ∧
      (getRing u site.val t).cred = (if f.crd then r.cred - 1 else r.cred) ∧ (getRing u site.val t).take = d.seq + 1 ∧
      (∃ e ∈ (getRing u site.val t).active, e.seq = d.seq ∧ e.begun = true)) ∧
    (f.crd = false → f.fen = false → f.kind = 4 → f.rows = 1 → f.wlog = 0 → d.status = 0 → (getCore s site.val).lmBad = [] →
      (∀ e ∈ r.active.dropLast, e.seq ≠ d.seq) → ∃ u, exec (.hodDescriptorBegin site t) s = .next u ∧
      (∀ i, i < f.len → Memory.read (getCore u site.val).lm (f.loff + i) = BitVec.ofNat 8 (f.pat / 256 ^ ((f.loff + i) % 8))) ∧
      (∀ x, (x < f.loff ∨ f.loff + f.len ≤ x) → Memory.read (getCore u site.val).lm x = Memory.read (getCore s site.val).lm x))) ∧
  (∀ (n : Nat) (s : State) (p : Packet) (t : Fin 4) (tag pos : Nat) (res : MemResult) (d : HodDesc), arrived s n = some p →
    descOfTag (getRing s p.dsite t) tag = some (d, pos) →
    let u := acceptReply p s
    (p.body = .hodData t tag res → d.readback ≠ 1 → exec (.hodReadData n) s = .next (hodTakeData p.dsite t tag res u)) ∧
    (p.body = .hodAck t tag .done → exec (.hodWriteAck n) s = .next (hodAnswer p.dsite t d tag none u)) ∧
    (∀ b, p.body = .hodData t tag (.bytes b []) → d.readback = 1 →
      exec (.hodReadback n) s = .next (hodRun p.dsite (modDesc p.dsite t d.seq (fun e => { e with waiting := [], readback := 2, done := true }) u))) ∧
    (∀ site : Site, exec (.responseTimeout (.hod site t tag)) s = .next (hodLost site.val t tag s)) ∧
    (∀ status, p.body = .gruStatus t tag status → exec (.hodGruStatus n) s =
      .next (hodRun p.dsite (modDesc p.dsite t d.seq (fun e => { e with status := status, waiting := [], done := true }) u))))
  ) ∧
  (
  ∀ (site : Site) (t : Fin 4) (s : State) (d : HodDesc) (rest : List HodDesc), isCoreSite site.val = true → coreRuns s site.val = true →
    (∀ c n l, (getThr s site.val t).run ≠ .stalled (.hodSpace c n l)) →
    let r := getRing s site.val t
    let slot := hodSlotAddr r d.seq
    let rec_ := r.cqbase + 32 * (d.seq.toNat % 2 ^ r.rlog)
    (r.out = 0 → exec (.hodCompletion site t) s = .next s) ∧
    (r.active = d :: rest → r.out ≠ 0 → r.ctl.gate ≠ .off → d.done = true → (parseHod d.bytes).ev = false → (getCore s site.val).lmBad = [] →
      bit (getCore s site.val).dbg.trcctl 63 = false →
      ∃ u, exec (.hodCompletion site t) s = .next u ∧ (getRing u site.val t).out = r.out - 1 ∧ (getRing u site.val t).next = r.next + 1 ∧
        lmReadN u site.val rec_ 32 = hodRecord r d.seq d.bytes d.status d.moved d.eaddr (d.readback = 2) ∧
        ((slot < rec_ ∨ rec_ + 32 ≤ slot) → Memory.read (getCore u site.val).lm slot = Memory.read (getCore s site.val).lm slot &&& 0x7F)) ∧
    (r.active = d :: rest → r.out ≠ 0 → r.ctl.gate = .draining → d.done = false → d.begun = false →
      exec (.hodCompletion site t) s = .next (hodFinish site.val t d.seq d.bytes 0x0A 0 0 false s))
  )

/-! ### Message channels (14) -/

/-- Endpoints: an enable reads the header and checks it; a disable drains the endpoint and cancels its tokens; the drain is over when no record is
being written; a cancelled token releases its reservation (14 R363, R372, R373). Messages at their endpoint: one that its endpoint takes is written as
a record, PROD advances past it and ACK goes back; the others draw a NACK with the reason of Table 14.11: 1 not ON, 2 level, 3 no such token, 4 too
long for the token, 5 full, 8 core out of service; a message waits while an earlier one of its stream is not yet taken (14 R365, R366, R370, R371).
The bytes of the record are claimed where no word is uncorrectable, the core traces nothing and PROD in the header does not lie in the record. -/
def Obligations.EndpointsTakeMessages : Prop :=
  (
  ∀ (site : Site) (x : Fin 16) (e : Fin 8) (tok : Fin 64) (v : BitVec 64) (s : State), hasThreads site.val = true → coreRuns s site.val = true →
    let r := getEnd s site.val x.val
    let hoff := min (fld v 39 25) 0x5FFF * 64
    let h := lmReadN s site.val hoff 64
    let code := endHeaderCheck hoff h
    (r.ctl.gate = .off → r.ctl.pend = false → bit v 0 = true →
      (code = 0 → ∃ u, exec (.chnEpctlEn site x v) s = .next u ∧ (getEnd u site.val x.val).ctl = ⟨true, false, .on⟩ ∧
        (getEnd u site.val x.val).prod = BitVec.ofNat 32 (leAt h 8 4) ∧ (getEnd u site.val x.val).rbase = leAt h 0 4 ∧
        (getEnd u site.val x.val).rlog = leAt h 4 1) ∧
      (code ≠ 0 → ∃ u, exec (.chnEpctlEn site x v) s = .next u ∧ (getEnd u site.val x.val).ctl = Enable.off ∧
        (getEnd u site.val x.val).err = BitVec.ofNat 4 code)) ∧
    (r.ctl.gate = .on → bit v 0 = false → ∃ u, exec (.chnEpctlEn site x v) s = .next u ∧ (getEnd u site.val x.val).ctl = ⟨false, false, .draining⟩ ∧
      (getEnd u site.val x.val).tokens = [] ∧ (getEnd u site.val x.val).resv = 0) ∧
    (r.ctl.gate = .draining → r.ctl.pend = false →
      (r.writing = 0 → ∃ u, exec (.chnEndpointDrainComplete site x) s = .next u ∧ (getEnd u site.val x.val).ctl = Enable.off) ∧
      (r.writing ≠ 0 → exec (.chnEndpointDrainComplete site x) s = .next s)) ∧
    (∃ u, exec (.tokenCancel site e tok) s = .next u ∧ mfind (getEnd u site.val (8 + e.val)).tokens tok.val = none ∧
      (getEnd u site.val (8 + e.val)).resv = (getEnd s site.val (8 + e.val)).resv - mget (getEnd s site.val (8 + e.val)).tokens tok.val 0)
  ) ∧
  (
  ∀ (n : Nat) (s : State) (p : Packet) (x tok seq thid : Nat) (t : Fin 4) (data : List Byte) (k : Option (Nat × Nat)), arrived s n = some p →
    let s1 := dropPacket n s
    let tag := bodyTag p.body
    let nacks := fun (i : Instr) (y reason : Nat) (u : State) => exec i s = .next (nackMessage p y seq t reason u)
    let record := fun (y pad kind raddr : Nat) (u : State) =>
      let e := getEnd s p.dsite y
      let off := endAddr e (e.prod.toNat + pad)
      (getEnd u p.dsite y).prod = e.prod + BitVec.ofNat 32 (pad + 16 + data.length) ∧
      (∃ q ∈ u.packets, q.body = .chanAck seq tag t ∧ q.dsite = p.ssite) ∧
      ((getCore s p.dsite).lmBad = [] → bit (getCore s p.dsite).dbg.trcctl 63 = false →
        (off + 16 + data.length ≤ e.hdr.toNat * 64 + 12 ∨ e.hdr.toNat * 64 + 16 ≤ off) →
        lmReadN u p.dsite off (16 + data.length) =
          recordHeader kind (levelCode p.lvl) (1 + data.length / 16) p.sdev p.ssite thid raddr ++ data)
    (p.body = .chanReq x seq t thid data k →
      let e := getEnd s p.dsite x
      let s2 := readCons p.dsite x s1
      (messageEarlier s p = true → exec (.requestMessageArrival n) s = .next s) ∧
      (messageEarlier s p = false →
        (coreRuns s p.dsite = false → nacks (.requestMessageArrival n) x 8 s1) ∧
        (coreRuns s p.dsite = true → e.ctl.gate ≠ .on → nacks (.requestMessageArrival n) x 1 s1) ∧
        (coreRuns s p.dsite = true → e.ctl.gate = .on → levelCode p.lvl < e.minlvl.toNat → nacks (.requestMessageArrival n) x 2 s1) ∧
        (coreRuns s p.dsite = true → e.ctl.gate = .on → e.minlvl.toNat ≤ levelCode p.lvl →
          (endRoom (getEnd s2 p.dsite x) 0 (16 + data.length) = none → nacks (.requestMessageArrival n) x 5 s2) ∧
          (∀ pad, endRoom (getEnd s2 p.dsite x) 0 (16 + data.length) = some pad →
            ∃ u, exec (.requestMessageArrival n) s = .next u ∧
              record x pad 1 (match k with | some a => replyDoorbell p.sdev p.ssite a.1 a.2 | none => 0) u)))) ∧
    (p.body = .chanReply x tok seq t thid data →
      let e := getEnd s p.dsite (8 + x)
      let s2 := readCons p.dsite (8 + x) s1
      (messageEarlier s p = true → exec (.replyMessageArrival n) s = .next s) ∧
      (messageEarlier s p = false →
        (coreRuns s p.dsite = false → nacks (.replyMessageArrival n) (8 + x) 8 s1) ∧
        (coreRuns s p.dsite = true → e.ctl.gate ≠ .on → nacks (.replyMessageArrival n) (8 + x) 1 s1) ∧
        (coreRuns s p.dsite = true → e.ctl.gate = .on → levelCode p.lvl < e.minlvl.toNat → nacks (.replyMessageArrival n) (8 + x) 2 s1) ∧
        (coreRuns s p.dsite = true → e.ctl.gate = .on → e.minlvl.toNat ≤ levelCode p.lvl →
          (mfind e.tokens tok = none → nacks (.replyMessageArrival n) (8 + x) 3 s1) ∧
          (∀ units, mfind e.tokens tok = some units →
            (units * 16 < 16 + data.length → nacks (.replyMessageArrival n) (8 + x) 4 s1) ∧
            (16 + data.length ≤ units * 16 →
              (endRoom (getEnd s2 p.dsite (8 + x)) (units * 16) (16 + data.length) = none → nacks (.replyMessageArrival n) (8 + x) 5 s2) ∧
              (∀ pad, endRoom (getEnd s2 p.dsite (8 + x)) (units * 16) (16 + data.length) = some pad →
                ∃ u, exec (.replyMessageArrival n) s = .next u ∧ mfind (getEnd u p.dsite (8 + x)).tokens tok = none ∧
                  record (8 + x) pad 3 0 u))))))
  )

/-- Answers to sends: an ACK ends a send; a NACK of a non-blocking one sets its predicate, cs.chcfg.NACK and releases its reservation; an ACK of a
blocking one completes the MSGSEND with its predicate 0; a halted thread keeps the answer to its blocking send, and acts on it when it resumes; a
blocking send pauses for 64 pace counts before it tries again (14 R372, R374, R375, R380). -/
def Obligations.SendsAreAnswered : Prop :=
  (∀ (n : Nat) (s : State) (p : Packet) (seq tag reason : Nat) (t : Fin 4) (m : Send), arrived s n = some p → findSend s p.dsite t seq = some m →
    let h := getThr s p.dsite t
    (p.body = .chanAck seq tag t → m.blocking = false → h.run = .running → ∃ u, exec (.msgAckArrival n) s = .next u ∧
      (getThr u p.dsite t).comm.sends = h.comm.sends.filter (fun k => k.seq != seq) ∧ (getThr u p.dsite t).preds = h.preds ∧
      (getThr u p.dsite t).comm.chcfg = h.comm.chcfg) ∧
    (p.body = .chanNack seq tag t reason → m.blocking = false → h.run = .running → reason < 256 → ∃ u, exec (.msgNackArrival n) s = .next u ∧
      (getThr u p.dsite t).comm.sends = h.comm.sends.filter (fun k => k.seq != seq) ∧ readP (getThr u p.dsite t) m.pd = true ∧
      fld (getThr u p.dsite t).comm.chcfg 63 56 = reason ∧
      (∀ r k, m.tok = some (r, k) → mfind (getEnd u p.dsite (8 + r)).tokens k = none)) ∧
    (p.body = .chanAck seq tag t → m.blocking = true → h.halted = false →
      exec (.msgAckArrival n) s = .next (completeWait p.dsite t (modThr p.dsite t (fun g =>
        { writeP m.pd false g with pc := g.pc + 8, comm := { g.comm with blocking := none } }) (endSend p.dsite t seq (acceptReply p s))))) ∧
    (m.blocking = true → h.halted = true →
      let kept := fun (i : Instr) (answer : Nat) => ∃ u, exec i s = .next u ∧ (getThr u p.dsite t).run = h.run ∧
        (getThr u p.dsite t).comm.sends = h.comm.sends.filter (fun k => k.seq != seq) ∧
        (getThr u p.dsite t).comm.blocking = h.comm.blocking.map (fun b => { b with answer := some answer })
      (p.body = .chanAck seq tag t → kept (.msgAckArrival n) 0) ∧ (p.body = .chanNack seq tag t reason → kept (.msgNackArrival n) reason))) ∧
  (∀ (site : Nat) (t : Fin 4) (s : State) (b : BlockingSend) (answer : Nat), (getThr s site t).comm.blocking = some { b with answer := some answer } →
    useAnswer site t s = blockingAnswer site t answer b.pd
      (modThr site t (fun h => { h with comm := { h.comm with blocking := some { b with answer := none } } }) s)) ∧
  (∀ (site : Site) (t : Fin 4) (s : State) (b : BlockingSend) (due : Nat), hasThread site.val t = true → (getThr s site.val t).run = .stalled .send →
    (getThr s site.val t).comm.blocking = some b → b.due = some due →
    (due ≤ (paceOf s site.val).toNat → (getThr s site.val t).halted = false → coreRuns s site.val = true →
      exec (.blockingSendRetry site t) s = .next (blockingAttempt site.val t b s)) ∧
    ((paceOf s site.val).toNat < due → exec (.blockingSendRetry site t) s = .next s)) ∧
  (∀ (site : Nat) (t : Fin 4) (reason : Nat) (s : State) (b : BlockingSend), (getThr s site t).comm.blocking = some b →
    deliverableBit (getThr s site t) = none → (reason = 5 ∨ reason = 6) → b.attempts < fld (getThr s site t).comm.chcfg 39 32 →
    (getThr (blockingNacked site t reason s) site t).comm.blocking = some { b with due := some ((paceOf s site).toNat + 64) })

/-! ### Gofin links (16) -/

/-- Enabling and training: EN of a bound port in OFF starts DETECT; EN = 0 drains it, and sends DOWN and is OFF once nothing is queued or
unacknowledged; lock of the control lane leads through CTLUP to MEASURE, echoes give the lengths and the lane order, CAP and CAPACK lead to DTRAIN
where an image runs, its end to DCHECK and that to ACTIVE with the codeword counters synchronised; a state that exceeds its bound fails the attempt,
the eighth in a row in FAILED (16 R408, R409, R424 to R427, R431, Table 16.6; 18 R471). -/
def Obligations.LinksTrain : Prop :=
  ∀ (n : Fin 16) (v : BitVec 64) (s : State), portThere s n.val = true →
    let q := getPort s n.val
    let to_ := fun (i : Instr) (f : Port → Prop) => ∃ t, exec i s = .next t ∧ f (getPort t n.val)
    (loaderHolds s (.port n.val) = false →
      (bit v 0 = true → q.ctl.gate = .off →
        (q.bindEn = true → to_ (.lnkCtlEn n v) (fun r => r.state = .detect ∧ r.ctl = ⟨true, false, .on⟩ ∧ r.attempts = 0 ∧
          r.serthr = BitVec.ofNat 16 (clampNat 16 65535 (fld v 31 16)))) ∧
        (q.bindEn = false → to_ (.lnkCtlEn n v) (fun r => r.ctl = q.ctl))) ∧
      (bit v 0 = false → q.ctl.gate = .on →
        (q.queue ≠ [] → to_ (.lnkCtlEn n v) (fun r => r.state = .draining ∧ r.ctl = ⟨false, false, .draining⟩)) ∧
        (q.queue = [] → q.sent = [] → q.ctrlSent = [] → q.hctl = [] → to_ (.lnkCtlEn n v) (fun r => r.state = .off ∧ r.ctl = Enable.off ∧ ∃ l, r.lmOut = (0xA, []) :: l)))) ∧
    (q.state = .detect → to_ (.controlLaneLock n) (fun r => r.state = .ctlup ∧ r.ctlLock = true)) ∧
    (q.state = .ctlup → to_ (.controlLaneLock n) (fun r => r.state = .measure ∧ r.samples = []) ∧
      (q.attempts < 7 → to_ (.linkStateTimeout n) (fun r => r.state = .detect ∧ r.lastFail = 1 ∧ r.attempts = q.attempts + 1)) ∧
      (q.attempts = 7 → to_ (.linkStateTimeout n) (fun r => r.state = .failed ∧ r.lastFail = 1))) ∧
    (q.state = .measure → ∀ (pair : Fin 10) (k : BitVec 8) (len : BitVec 16) (pos : Fin 9),
      to_ (.lmMeas n pair k) (fun r => r.lmOut = (4, [BitVec.ofNat 8 pair.val, BitVec.ofNat 8 k.toNat]) :: q.lmOut) ∧
      ((mget q.samples pair.val (0, 0)).2 < 15 → to_ (.lmMeasr n pair ⟨len, pos⟩) (fun r => (pair.val ≠ 9 → mget r.order pos.val 9 = pair.val) ∧
        mget r.samples pair.val (0, 0) = ((mget q.samples pair.val (0, 0)).1 + len.toNat, (mget q.samples pair.val (0, 0)).2 + 1) ∧ r.state = .measure)) ∧
      ((mget q.samples pair.val (0, 0)).2 = 15 → to_ (.lmMeasr n pair ⟨len, pos⟩) (fun r => (pair.val ≠ 9 → mget r.order pos.val 9 = pair.val) ∧
        mget r.len pair.val 0 = BitVec.ofNat 16 (((mget q.samples pair.val (0, 0)).1 + len.toNat) / 16)))) ∧
    (q.state = .exchange → ∀ body : BitVec 384,
      let q1 := { q with partner := (List.range 6).map (fun i => (i, (body >>> (64 * i)).setWidth 64)) }
      let b := bytesOf body 48
      (leAt b 1 1 = 1 → capAgrees s q1 b = true → to_ (.lmCap n body) (fun r => r.capSeen = true ∧ r.lmOut = (2, []) :: q.lmOut ∧
        (q.capAcked = true → s.img.present = true → r.state = .dtrain) ∧
        ((q.capAcked = false ∨ s.img.present = false) → r.state = .exchange))) ∧
      (leAt b 1 1 = 1 → capAgrees s q1 b = false → to_ (.lmCap n body) (fun r => r.state = .mismatch ∧ r.lastFail = 8)) ∧
      (leAt b 1 1 ≠ 1 → to_ (.lmCap n body) (fun r => r.lastFail = 5)) ∧
      to_ (.lmCapack n) (fun r => r.capAcked = true ∧ (q.capSeen = true → s.img.present = true → r.state = .dtrain) ∧
        ((q.capSeen = false ∨ s.img.present = false) → r.state = .exchange))) ∧
    (∀ lanes : List (Option (Fin 9)), q.state = .dtrain →
      (8 ≤ usableLanes lanes → to_ (.dtrainDone n lanes) (fun r => r.state = .dcheck ∧ r.order = laneOrder lanes)) ∧
      (usableLanes lanes < 8 → to_ (.dtrainDone n lanes) (fun r => r.lastFail = 6 ∧ r.state = if q.waking = false ∧ 7 ≤ q.attempts then .failed else .detect))) ∧
    (q.state = .dcheck → to_ (.dcheckDone n) (fun r => r.state = .active ∧ r.cwSince = some s.aoc ∧ (q.waking = false → r.attempts = 0))) ∧
    (q.state = .recover → q.recTrained = true → to_ (.dcheckDone n) (fun r => r.state = .active ∧ r.cwSince = some s.aoc)) ∧
    (q.state = .off ∨ q.state = .detect ∨ q.state = .failed → exec (.controlLockLoss n) s = .next s) ∧
    (q.state = .ctlup ∨ q.state = .measure ∨ q.state = .exchange → to_ (.controlLockLoss n) (fun r => r.state = .detect ∧ r.ctlLock = false)) ∧
    (q.state = .active → to_ (.controlLockLoss n) (fun r => r.state = .detect ∧ r.downs = satInc q.downs ∧ r.queue = [] ∧ r.sent = [] ∧
      r.ctrlSent = [])) ∧
    (∀ k r, q.lm[k]? = some r → r ≠ .cap → to_ (.lmRequestRepeat n k) (fun x => x = sendLm (lmMessage r).1 (lmMessage r).2 q)) ∧
    (∀ k, q.lm[k]? = some .cap → to_ (.lmRequestRepeat n k) (fun x => x = sendLm 1 (ownCap s n.val q) q)) ∧
    (∀ k, q.lm[k]? = none → to_ (.lmRequestRepeat n k) (fun x => x = q)) ∧
    to_ (.spareLaneFailure n) (fun r => r = { q with spBad := true }) ∧
    to_ (.lnkFecClr n) (fun r => r = { q with corr := 0, uncorr := 0 }) ∧
    to_ (.lnkErrClr n) (fun r => r = { q with crcErr := 0, replays := 0, spares := 0, retrains := 0, downs := 0 })

/-- Carrying: a flit with a bad CRC is counted and asked for again, one in sequence is accepted and one out of sequence is not; a NAK ends what it
covers and replays the rest; the eighth replay with no advance enters RECOVER; a failed lane is moved to the spare while it is free and else the link
recovers; a link with nothing to send sleeps and wakes; DOWN and the end of a drain turn the port off; a data flit that is sent has 256 B that end with
their CRC, takes the next number and a credit, and stays in the replay buffer (16 R412 to R422, R428 to R433; 19 R501). -/
def Obligations.LinksCarry : Prop :=
  ∀ (n : Fin 16) (s : State),
    let q := getPort s n.val
    let to_ := fun (i : Instr) (f : Port → Prop) => ∃ t, exec i s = .next t ∧ f (getPort t n.val)
    (∀ (flit : BitVec 2048) (bad : Bool),
      let w0 : Word := flit.setWidth 64
      let w1 : Word := (flit >>> 64).setWidth 64
      let good := !bad && decide (crc64 ((bytesOf flit 256).take 248) = (flit >>> 1984).setWidth 64) && !badDataHeader w0 w1
      (portCarries q = false → exec (.dataFlitArrival n flit bad) s = .next s) ∧
      (portCarries q = true → good = false → to_ (.dataFlitArrival n flit bad) (fun r => r.crcErr = satInc q.crcErr ∧ r.data.nakSent = true ∧
        r.data.accepted = q.data.accepted ∧ r.uncorr = (if bad then satInc q.uncorr else q.uncorr))) ∧
      (portCarries q = true → good = true → fld w0 63 62 = 1 →
        (BitVec.ofNat 16 (fld w0 31 16) = nextSeqOf q.data → to_ (.dataFlitArrival n flit bad) (fun r =>
          r.data.accepted = some (BitVec.ofNat 16 (fld w0 31 16)) ∧ r.data.nakSent = false)) ∧
        (BitVec.ofNat 16 (fld w0 31 16) ≠ nextSeqOf q.data → to_ (.dataFlitArrival n flit bad) (fun r =>
          r.data.accepted = q.data.accepted ∧ r.data.nakSent = true)))) ∧
    (∀ flit : BitVec 512,
      let w : Word := flit.setWidth 64
      let good := decide (crc64 ((bytesOf flit 64).take 56) = (flit >>> 448).setWidth 64) && !badCtrlHeader w
      (portCtrlUp q = false → exec (.controlFlitArrival n flit) s = .next s) ∧
      (portCtrlUp q = true → good = false → to_ (.controlFlitArrival n flit) (fun r => r.crcErr = satInc q.crcErr ∧ r.ctrl.nakSent = true)) ∧
      (portCtrlUp q = true → good = true → (fld w 63 62 = 1 ∨ fld w 63 62 = 2) → (bit w 53 = false ∨ q.ctrl.replays < 7) → BitVec.ofNat 16 (fld w 31 16) = nextSeqOf q.ctrl →
        to_ (.controlFlitArrival n flit) (fun r => r.ctrl.accepted = some (BitVec.ofNat 16 (fld w 31 16))))) ∧
    (portCarries q = true →
      (q.data.replays < 7 → (∀ last, to_ (.linkNak n false last) (fun r => r.sent = q.sent.filter (fun e => !coveredBy last e) ∧
          r.dataOut = ((q.sent.filter (fun e => !coveredBy last e)).map (·.flit)).reverse ++ q.dataOut ∧ r.replays = satInc q.replays)) ∧
        (q.sent ≠ [] → to_ (.replayTimeout n false) (fun r => r.sent = q.sent ∧ r.dataOut = (q.sent.map (·.flit)).reverse ++ q.dataOut ∧
          r.replays = satInc q.replays ∧ r.data.replays = q.data.replays + 1))) ∧
      (q.data.replays = 7 → q.sent ≠ [] → q.state = .active → to_ (.replayTimeout n false) (fun r => r.state = .recover ∧ r.retrains = satInc q.retrains))) ∧
    (q.sent = [] → exec (.replayTimeout n false) s = .next s) ∧
    (q.state = .recover → to_ (.recoverDiscardTimeout n) (fun r => r.sent = [] ∧ r.recDiscarded = true)) ∧
    (∀ (lane : Fin 8) (c : BitVec 32),
      (q.state = .active → q.spRx = 0xF → q.spBad = false → q.lm = [] → to_ (.dataLaneFailure n lane c) (fun r =>
        r.lm = [.spare lane.val (sparePeriod s q c)] ∧ r.state = .active ∧
        r.lmOut = (5, BitVec.ofNat 8 lane.val :: bytesOf (sparePeriod s q c) 4) :: q.lmOut)) ∧
      (q.state = .active → q.spBad = true → to_ (.dataLaneFailure n lane c) (fun r => r.state = .recover)) ∧
      (q.state ≠ .active → exec (.dataLaneFailure n lane c) s = .next s) ∧
      (q.state = .active → to_ (.lmSpare n lane c) (fun r => r.spTx = BitVec.ofNat 4 lane.val ∧ r.lmOut = (6, bytesOf c 4) :: q.lmOut)) ∧
      (q.state = .active → q.lm = [.spare lane.val c] → to_ (.lmSpareack n c) (fun r => r.spRx = BitVec.ofNat 4 lane.val ∧ r.lm = [] ∧
        r.spares = satInc q.spares))) ∧
    (maySleep q = true → (portThere s n.val = true → q.lm = [] → to_ (.lnkSleepRequest n true) (fun r => r.sleepReq = true ∧ r.lm = [.pwr true] ∧ r.lmOut = (7, [1]) :: q.lmOut)) ∧
      to_ (.lmPwr n true) (fun r => r.state = .sleep ∧ r.lmOut = (8, [1]) :: q.lmOut) ∧
      (q.lm = [.pwr true] → to_ (.lmPwrack n true) (fun r => r.state = .sleep ∧ r.lm = []) ∧
        to_ (.lmPwrack n false) (fun r => r.state = .active ∧ r.lm = []))) ∧
    (q.state = .sleep → to_ (.lmPwr n false) (fun r => r.state = .dtrain ∧ r.waking = true) ∧
      (portThere s n.val = true → to_ (.lnkSleepRequest n false) (fun r => r.state = .dtrain ∧ r.waking = true ∧ r.sleepReq = false))) ∧
    (q.state = .active → to_ (.lmRetrain n) (fun r => r.state = .recover)) ∧ (q.state ≠ .active → exec (.lmRetrain n) s = .next s) ∧
    (portThere s n.val = true → q.ctl.gate = .on → (q.queue ≠ [] → to_ (.lmDown n) (fun r => r.state = .draining)) ∧
      (q.queue = [] → q.sent = [] → q.ctrlSent = [] → q.hctl = [] → to_ (.lmDown n) (fun r => r.state = .off))) ∧
    (q.state = .draining → q.ctl.pend = false → to_ (.portDrainTimeout n) (fun r => r.state = .off ∧ r.ctl = Enable.off ∧ r.downs = satInc q.downs)) ∧
    (∀ f : Flit, f.body.length ≤ 232 → (dataFlitBytes f).length = 256 ∧ (dataFlitBytes f).drop 248 = bytesOf (crc64 ((dataFlitBytes f).take 248)) 8) ∧
    (∀ (host : Bool) (e : Queued) (r : Port), sendData host e q = some r → q.sent.length < 1024 ∧ ∃ f shared cr,
      takeCredit q.data.credits (creditClass e.pkt) = some (shared, cr) ∧ r.data.credits = cr ∧ r.data.sendNext = q.data.sendNext + 1 ∧
      r.dataOut = f :: q.dataOut ∧ r.sent = q.sent ++ [⟨q.data.sendNext, f, some e.pkt⟩])

/-! ### Groups and structure images (17 R447 to R460, 18 R468 to R476) -/

/-- Collectives: GO ends at once on a descriptor that cannot be read (5) or is malformed (1) and otherwise makes the engine busy; ABORT ends a
collective with status 4; an UP chunk is held until it can be combined, and a DOWN chunk counts, goes to every child and, as the last, ends the
collective; so does the last acknowledged write (17 R447 to R451, Table 17.13). The host bridge: its enable opens and drains it, a store to the hint
register and each register message of the host are answered by one message, and a doorbell to this device sets the bits that the bridge's level may
set; where no port faces the host, no message of it is taken; the two counters clear (16 R415; 17 R459, R460, Tables 17.4, 17.5, 17.14). -/
def Obligations.GroupsAct : Prop :=
  (
  ∀ (t : Fin 4) (s : State),
    let e := getEngine s t.val
    let gives := fun (i : Instr) (f : Engine → Prop) => ∃ u, exec i s = .next u ∧ f (getEngine u t.val)
    (∀ desc : BitVec 48, let a := desc.toNat / 64 * 64
      ((engineThere s t.val = false ∨ e.state = 1) → exec (.collGo t desc) s = .next s) ∧
      (engineThere s t.val = true → e.state ≠ 1 →
        (devRead s a 64 = none → gives (.collGo t desc) (fun x => x.state = 2 ∧ x.status = 5)) ∧
        (∀ b, devRead s a 64 = some b →
          (collMalformed s t.val b = true → gives (.collGo t desc) (fun x => x.state = 2 ∧ x.status = 1 ∧ x.cseq = (parseColl b).cseq)) ∧
          (collMalformed s t.val b = false → childrenOf s t.val ≠ [] → e.ups = [] → gives (.collGo t desc) (fun x => x.state = 1 ∧ x.status = 0 ∧
            x.desc = some (parseColl b) ∧ x.cseq = (parseColl b).cseq ∧ x.chunks = 0 ∧ x.sentUp = 0))))) ∧
    (e.state ≠ 1 → exec (.collAbort t) s = .next s) ∧
    (∀ d, e.desc = some d → e.state = 1 → gives (.collAbort t) (fun x => x.state = 2 ∧ x.status = 4 ∧ x.desc = none)) ∧
    (∀ (n : Nat) (p : Packet) (err : Bool) (cseq : BitVec 16) (j : Nat) (data : List Byte), arrived s n = some p → engineOf p.dsite = some t.val →
      (p.body = .coll true err cseq j data →
        (engineThere s t.val = false → exec (.collUpArrival n) s = .next (dropPacket n s)) ∧
        (engineThere s t.val = true → e.desc = none →
          gives (.collUpArrival n) (fun x => x = { e with ups := e.ups ++ [(p.sdev, cseq, j, chunkValues data, err)] }))) ∧
      (p.body = .coll false err cseq j data →
        (e.desc = none ∨ e.state ≠ 1 ∨ cseq ≠ e.cseq → exec (.collDownArrival n) s = .next (dropPacket n s)) ∧
        (∀ d, engineThere s t.val = true → e.desc = some d → e.state = 1 → cseq = e.cseq → writesDst s t.val d = false → e.chunks + 1 = collChunks d →
          gives (.collDownArrival n) (fun x => x.state = 2 ∧ x.status = if e.errored || err then 3 else 0)))) ∧
    (∀ (j : Nat) (d : CollDesc) (vs : List (BitVec 32)) (err : Bool), writesDst s t.val d = false →
      ∃ out, (emitDown t.val j d vs err s).packets = s.packets ++ out ∧ out.map (·.ddev) = childrenOf s t.val ∧
        ∀ q ∈ out, q.cls = 2 ∧ ∃ data, q.body = .coll false err d.cseq j data) ∧
    (∀ j : Nat, (e.dstWait.contains j = false → exec (.collDstWriteAck t j) s = .next s) ∧
      (∀ d, e.dstWait.contains j = true → e.desc = some d → e.state = 1 → e.chunks + 1 = collChunks d →
        gives (.collDstWriteAck t j) (fun x => x.state = 2 ∧ x.status = if e.errored then 3 else 0)))
  ) ∧
  (
  ∀ s : State,
    (bridgeThere s = false → ∀ lvl v, exec (.grpHctlEn lvl v) s = .next s ∧ exec (.grpHintStore v) s = .next s) ∧
    (bridgeThere s = true → ∀ (lvl : Level) (v : BitVec 64),
      (∃ t, exec (.grpHctlEn lvl v) s = .next t ∧ levelCode t.grp.hlvl = min (min (fld v 9 8) 2) (levelCode lvl) ∧
        (bit v 0 = true → s.grp.hctl.gate = .off → t.grp.hctl = ⟨true, false, .on⟩) ∧
        (bit v 0 = false → s.grp.hctl.gate = .on → t.grp.hctl = ⟨false, false, .draining⟩) ∧
        (bit v 0 = true → s.grp.hctl.gate = .draining → t.grp.hctl = ⟨true, true, .draining⟩)) ∧
      (∃ t m, exec (.grpHintStore v) s = .next t ∧ t.grp.hctlOut = m :: s.grp.hctlOut ∧ m.length = 48 ∧ leAt m 0 1 = 2 ∧ leAt m 2 2 = fld v 9 0 ∧
        leAt m 4 4 = fld v 63 32)) ∧
    (s.grp.bridge ≠ [] → exec .bridgeDrainComplete s = .next s) ∧
    (s.grp.bridge = [] → ∃ t, exec .bridgeDrainComplete s = .next t ∧
      (s.grp.hctl = ⟨false, false, .draining⟩ → t.grp.hctl = Enable.off) ∧ (s.grp.hctl = ⟨true, true, .draining⟩ → t.grp.hctl = ⟨true, false, .on⟩)) ∧
    exec .grpStatClr s = .next { s with grp := { s.grp with inref := 0, spoof := 0 } } ∧
    exec .grpHstatClr s = .next { s with grp := { s.grp with refin := 0, refout := 0, dbdrop := 0 } } ∧
    (∀ (off : BitVec 16) (tag : BitVec 32) (v : BitVec 64),
      let answer := fun (i : Instr) (st : Nat) (w : Word) => ∃ t m, exec i s = .next t ∧ t.grp.hctlOut = m :: s.grp.hctlOut ∧ m.length = 48 ∧ leAt m 0 1 = 5 ∧
        leAt m 4 4 = tag.toNat ∧ leAt m 8 1 = st ∧ leAt m 16 8 = w.toNat
      (hostLinked s = false → exec (.hctlRegrd off tag) s = .next s ∧ exec (.hctlRegwr off tag v) s = .next s) ∧
      (hostLinked s = true → (bridgeOffset s off.toNat = true → answer (.hctlRegrd off tag) 0 ((grpRead s off.toNat).getD 0)) ∧
      (bridgeOffset s off.toNat = false → answer (.hctlRegrd off tag) 1 0 ∧ answer (.hctlRegwr off tag v) 1 0) ∧
      (bridgeOffset s off.toNat = true → s.grp.hlvl = .user → answer (.hctlRegwr off tag v) 2 0) ∧
      (bridgeOffset s off.toNat = true → s.grp.hlvl ≠ .user → ∃ t m, exec (.hctlRegwr off tag v) s = .next t ∧
        t.grp.hctlOut = m :: (grpWrite off.toNat s.grp.hlvl v s).grp.hctlOut ∧ leAt m 0 1 = 5 ∧ leAt m 8 1 = 0))) ∧
    (hostLinked s = false → ∀ (dev : BitVec 9) (site : BitVec 11) (thr : Fin 4) (bits : BitVec 32) (strm : BitVec 4),
      exec (.hctlDbell dev site thr bits) s = .next s ∧ exec (.hctlSreset dev site strm) s = .next s) ∧
    (hostLinked s = true → ∀ (dev : BitVec 9) (site : BitVec 11) (thr : Fin 4) (bits : BitVec 32),
      let drops : Prop := exec (.hctlDbell dev site thr bits) s = .next { s with grp := { s.grp with dbdrop := satInc s.grp.dbdrop } }
      (dev.toNat = ownDev s →
        (hasThread site.toNat thr = true → windowServed s site.toNat = true → (getThr s site.toNat thr).halted = true →
          exec (.hctlDbell dev site thr bits) s = .next (modThr site.toNat thr (fun h => { h with
            exc := { h.exc with event := h.exc.event ||| (bits &&& eventMask s.grp.hlvl) } }) s)) ∧
        (windowServed s site.toNat = false → drops)) ∧
      (dev.toNat ≠ ownDev s → ((peerMask s).getLsbD dev.toNat = false → drops) ∧
        ((peerMask s).getLsbD dev.toNat = true → ∃ t p, exec (.hctlDbell dev site thr bits) s = .next t ∧ t.packets = s.packets ++ [p] ∧
          p.ddev = dev.toNat ∧ p.sdev = 511 ∧ p.dsite = site.toNat ∧ p.body = .eventSet thr bits ∧ p.lvl = s.grp.hlvl))) ∧
    (hostLinked s = true → ∀ (dev : BitVec 9) (site : BitVec 11) (strm : BitVec 4), ∃ t p, exec (.hctlSreset dev site strm) s = .next t ∧ t.packets = s.packets ++ [p] ∧
      p.ddev = dev.toNat ∧ p.sdev = 511 ∧ p.ssite = 0 ∧ p.dsite = site.toNat ∧ p.strm = strm.toNat ∧ p.body = .streamReset 0)
  )

/-- The loader: it ignores commands until it runs, turns away those of one that does not own the load (0x23) or that come in the wrong order (0x20),
leaves its state when it refuses an image, and takes a partial image through staged, draining, drained and applied to idle, for the manager as for
a local source; a drain limit and ABORT discard it and release its units (18 R466 to R472, R474 to R476, Table 18.5). -/
def Obligations.ImagesAct : Prop :=
  ∀ s : State,
    let cmds : List Instr := [.imgLoad, .imgDrain, .imgApply, .imgUndrain, .imgRun, .imgAbort]
    let lastIs := fun (i : Instr) (n : BitVec 8) => exec i s = .next { s with img := { s.img with last := n } }
    let to_ := fun (i : Instr) (st : ImgState) (n : BitVec 8) => ∃ t, exec i s = .next t ∧ t.img.state = st ∧ t.img.last = n
    (loaderRuns s = false → ∀ i ∈ cmds, exec i s = .next s) ∧
    (loaderRuns s = true →
      (loaderFree s = false → s.img.owner = true → ∀ i ∈ cmds, lastIs i 0x23) ∧
      (loaderFree s = true → ∀ i ∈ [Instr.imgDrain, .imgApply, .imgUndrain, .imgRun, .imgAbort], lastIs i 0x20) ∧
      (loaderFree s = false → s.img.owner = false → lastIs .imgLoad 0x20) ∧
      let u := (copyImage s).2
      (loaderFree s = true → (copyImage s).1 = none → exec .imgLoad s = .next { u with img := { u.img with last := 0x21 } }) ∧
      (loaderFree s = true → ∀ b, (copyImage s).1 = some b →
        let s1 := { u with img := { u.img with staging := Memory.writeN [] 0 b, stagedLen := b.length, owner := false, sect := 0xFF } }
        ∃ t, exec .imgLoad s = .next t ∧
          match imageCheck s1 false (if s.img.present then stacksOut s else []) b.length b with
          | some (code, sec) => t.img.state = s.img.state ∧ t.img.last = BitVec.ofNat 8 code ∧ t.img.sect = BitVec.ofNat 8 sec ∧
              t.img.serial = s.img.serial ∧ t.routers = s.routers
          | none => imgPartial b = true → t.img.state = .staged ∧ t.img.last = 0) ∧
      (s.img.owner = false →
        (s.img.state = .staged → ∀ i ∈ [Instr.imgDrain, .imgRun], ∃ t, exec i s = .next t ∧ t.img.state = .draining ∧
          t.img.held = regionUnits s (stagedImage s) ∧ t.img.drainSince = s.aoc) ∧
        (s.img.state = .drained → ∃ t, exec .imgApply s = .next t ∧ t.img.state = .applied ∧ t.img.last = 0) ∧
        (s.img.state = .applied → (∃ t, exec .imgUndrain s = .next t ∧ t.img.state = .idle ∧ t.img.last = 0 ∧ t.img.held = [] ∧
          t.img.serial = BitVec.ofNat 64 (leAt (stagedImage s) 24 8) ∧
          t.img.meas = Config.sm3 (bytesOf s.img.meas 32 ++ bytesOf (Config.sm3 ((stagedImage s).take (imgTot (stagedImage s)))) 32) ∧ t.top.gen = (releaseUnits s).top.gen + 2) ∧ lastIs .imgAbort 0x20) ∧
        (s.img.state = .staged ∨ s.img.state = .draining ∨ s.img.state = .drained → ∃ t, exec .imgAbort s = .next t ∧ t.img.state = .idle ∧
          t.img.last = 0x24 ∧ t.img.held = [] ∧ t.img.stagedLen = 0))) ∧
    (s.img.state ≠ .draining → exec .imgDrainComplete s = .next s ∧ exec .imgDrainTimeout s = .next s) ∧
    (s.img.state = .draining →
      (s.img.held.all (unitDrained s) = true → s.img.run = false → to_ .imgDrainComplete .drained s.img.last) ∧
      (s.img.held.all (unitDrained s) = false → exec .imgDrainComplete s = .next s) ∧
      (s.img.drainSince + 1024 * s.img.lim.toNat ≤ s.aoc → ∃ t, exec .imgDrainTimeout s = .next t ∧ t.img.state = .idle ∧ t.img.last = 0x22 ∧ t.img.held = [])) ∧
    (∀ (off : BitVec 48) (data : List Byte) (sdev : BitVec 9),
      (sdev ≠ 0 → exec (.imgdata sdev off data) s = .next (dropImgPacket 0x70 s)) ∧
      (loaderRuns s = true → loaderFree s = true → off.toNat % 256 = 0 → data.length ≤ 256 → off.toNat + data.length ≤ 2 ^ 24 → ∃ t,
        exec (.imgdata 0 off data) s = .next t ∧ t.img.staging = Memory.writeN s.img.staging off.toNat data ∧
        t.img.stagedLen = max s.img.stagedLen (off.toNat + data.length) ∧
        (s.img.present = true → ∃ p l, t.packets = (dropImgPacket 0x70 s).packets ++ [p] ∧ p.ddev = 0 ∧ p.body = .imgPacket 0x71 (0 :: l)))) ∧
    (∀ (cmd : BitVec 8) (serial : BitVec 64),
      let mgr := fun (f : State → Prop) => ∃ t, exec (.imgcmd 0 cmd serial) s = .next t ∧ f t
      (serial.toNat ≠ leNat (Memory.readN s.img.staging 24 8) → mgr (fun t => t.img = s.img ∧
        (s.img.present = true → ∃ p l, t.packets = (dropImgPacket 0x72 s).packets ++ [p] ∧ p.ddev = 0 ∧ p.body = .imgPacket 0x73 (cmd :: 0x20 :: l)))) ∧
      (serial.toNat = leNat (Memory.readN s.img.staging 24 8) →
        ((loaderRuns s = false ∨ cmd = 0 ∨ 6 < cmd.toNat) → mgr (fun t => t = dropImgPacket 0x72 s)) ∧
        (loaderRuns s = true → 1 ≤ cmd.toNat → cmd.toNat ≤ 6 → loaderFree s = false → s.img.owner = false →
          mgr (fun t => t.img = { s.img with last := 0x23 })) ∧
        (loaderRuns s = true → s.img.owner = true →
          (s.img.state = .staged → (cmd = 2 ∨ cmd = 5) → mgr (fun t => t.img.state = .draining ∧ t.img.held = regionUnits s (stagedImage s))) ∧
          (s.img.state = .drained → cmd = 3 → mgr (fun t => t.img.state = .applied ∧ t.img.last = 0)) ∧
          (s.img.state = .applied → cmd = 4 → mgr (fun t => t.img.state = .idle ∧ t.img.last = 0 ∧ t.img.held = [])) ∧
          ((s.img.state = .staged ∨ s.img.state = .draining ∨ s.img.state = .drained) → cmd = 6 →
            mgr (fun t => t.img.state = .idle ∧ t.img.last = 0x24 ∧ t.img.held = []))))) ∧
    (∀ (cmd : BitVec 8) (sdev : BitVec 9) (serial : BitVec 64), sdev ≠ 0 → exec (.imgcmd sdev cmd serial) s = .next (dropImgPacket 0x72 s)) ∧
    (∀ (dev : BitVec 9) (cmd last st status : BitVec 8) (serial : BitVec 64), ownDev s = 0 →
      (∃ t, exec (.imgrptArrival dev cmd last st serial) s = .next t ∧ t.img.reports = (dev.toNat, cmd, last, st, serial) :: s.img.reports) ∧
      (∃ t, exec (.imgackArrival dev status) s = .next t ∧ t.img.acks = (dev.toNat, status) :: s.img.acks))

/-! ### Faults and recovery (19) -/

/-- Error records: a record that arrives is put off during a restart, and is otherwise appended as the next record or counted as dropped where the
queue is full or lies in no memory; enabling the queue starts it at CONS; a worker sends a copy of a record of the classes that FWD names to device
0, which appends what a worker forwards (19 R485 to R490, R497). -/
def Obligations.RecordsAct : Prop :=
  ∀ s : State,
    let full := (s.mgt.prod - s.mgt.cons).toNat = queueSize s.mgt
    (∀ n : Nat,
      ((s.mgt.raised[n]? = none ∨ earlierOfUnit s.mgt.raised n = true) → exec (.errorRecordArrival n) s = .next s) ∧
      (∀ r, s.mgt.raised[n]? = some r → earlierOfUnit s.mgt.raised n = false →
        (s.mgt.restarting = true → exec (.errorRecordArrival n) s = .next { s with mgt := { s.mgt with
          raised := s.mgt.raised.eraseIdx n, deferred := s.mgt.deferred ++ [.record (r.map (BitVec.ofNat 64))] } }) ∧
        (s.mgt.restarting = false → s.mgt.en = true → ∃ t, exec (.errorRecordArrival n) s = .next t ∧
          (full ∨ queueBad s = true → t.mgt.prod = s.mgt.prod ∧ t.mgt.dropped = satInc s.mgt.dropped ∧ t.mgt.qerr = queueBad s) ∧
          (¬ full → queueBad s = false → t.mgt.prod = s.mgt.prod + 1 ∧ t.mgt.dropped = s.mgt.dropped ∧ t.mgt.qerr = false)) ∧
        (s.mgt.restarting = false → s.mgt.en = false → r.getD 2 0 ∉ [0x13, 0x14, 0x15, 0x32] → exec (.errorRecordArrival n) s = .next s))) ∧
    (∀ r : List Nat, let b := recordBytes s r
      b.length = 64 ∧ leAt b 0 4 = s.mgt.prod.toNat ∧ leAt b 4 1 = r.getD 0 0 % 256 ∧ leAt b 5 1 = r.getD 1 0 % 256 ∧ leAt b 6 2 = r.getD 2 0 % 65536 ∧
      leAt b 8 2 = r.getD 3 0 % 65536 ∧ leAt b 12 2 = r.getD 4 0 % 65536 ∧ leAt b 14 2 = r.getD 5 0 % 65536 ∧ leAt b 16 8 = r.getD 6 0 % 2 ^ 64 ∧
      leAt b 24 8 = r.getD 7 0 % 2 ^ 64 ∧ leAt b 32 8 = aocSince s % 2 ^ 64) ∧
    (∀ v : BitVec 64, ∃ t, exec (.mgtErrqEnable v) s = .next t ∧ t.mgt.en = bit v 0 ∧ t.mgt.rlog.toNat = min 12 (fld v 55 52) ∧
      t.mgt.base % 2 ^ (t.mgt.rlog.toNat + 10) = 0 ∧ t.mgt.base ≤ fld v 47 6 * 64 ∧ t.mgt.qerr = queueBad t ∧
      t.mgt.prod = if bit v 0 && !s.mgt.en then s.mgt.cons else s.mgt.prod) ∧
    (∀ v : BitVec 64, exec (.mgtErrconsClr v) s = .next { s with mgt := { s.mgt with
      cons := v.setWidth 32, dropped := if bit v 63 then 0 else s.mgt.dropped } }) ∧
    (∀ rec_ : BitVec 512,
      (ownDev s = 0 → s.img.present = true → s.mgt.restarting = false → s.mgt.en = true → ∃ t, exec (.errfwdArrival rec_) s = .next t ∧
        (¬ full → queueBad s = false → t.mgt.prod = s.mgt.prod + 1) ∧
        (full → t.mgt.prod = s.mgt.prod ∧ t.mgt.dropped = satInc s.mgt.dropped)) ∧
      (ownDev s = 0 → s.img.present = true → s.mgt.restarting = true → ∃ t, exec (.errfwdArrival rec_) s = .next t ∧
        t.mgt = { s.mgt with deferred := s.mgt.deferred ++ [.forwarded rec_] }) ∧
      (ownDev s = 0 → s.mgt.restarting = false → s.mgt.en = false → ∃ t, exec (.errfwdArrival rec_) s = .next t ∧ t.mgt = s.mgt) ∧
      (ownDev s ≠ 0 → ∃ t, exec (.errfwdArrival rec_) s = .next t ∧ t.mgt = s.mgt)) ∧
    (∀ (cls : Nat) (b : List Byte),
      (s.top.role = 2 → s.mgt.fwd.getLsbD cls = true → ∃ p, (copyForward cls b s).packets = s.packets ++ [p] ∧ p.cls = 5 ∧ p.ddev = 0 ∧
        p.body = .errRec ((List.range 8).map (fun i => BitVec.ofNat 64 (leAt b (8 * i) 8)))) ∧
      (s.top.role ≠ 2 ∨ s.mgt.fwd.getLsbD cls = false → copyForward cls b s = s))

/-- Fences: one that comes while the controller restarts is put off; otherwise the unit goes out of service and the view and the maps say so; the
comparison with the view corrects an enable that is set on a fenced unit, and does nothing where they agree; the restart ends once its stretch is
over and the firmware is intact, and lets what was put off proceed (19 R492 to R497, Tables 19.9, 19.10; 21 R524, R538). That
the restart ends so is inferred (log 87). -/
def Obligations.FencesAct : Prop :=
  ∀ (s : State) (site : Site) (k : Fin 96) (n : Fin 16) (c : Fin 128) (j : Fin 4),
    let gives := fun (i : Instr) (f : State → Prop) => ∃ t, exec i s = .next t ∧ f t
    (s.mgt.restarting = true → exec .healthViewCompare s = .next s ∧
      ∀ f ∈ [(Instr.fenceCore site, 1, site.val), (.fenceRouter site, 2, site.val), (.fenceNode k, 3, k.val), (.fenceGru k, 4, k.val), (.fencePort n, 5, n.val),
          (.fenceSyncUnit c, 6, c.val), (.fenceCollEngine j, 7, j.val)],
        exec f.1 s = .next { s with mgt := { s.mgt with deferred := s.mgt.deferred ++ [.fence f.2.1 f.2.2 2] } }) ∧
    (s.mgt.restarting = false →
      (hasThreads site = true → (getCore s site).power ≠ .fenced → (getCore s site).power ≠ .absent → gives (.fenceCore site) (fun t =>
        (getCore t site).power = .fenced ∧ (siteState t site = 2 ∨ siteState t site = 3) ∧ (1, site.val) ∈ t.mgt.fenced ∧
        (∃ r, t.mgt.raised = s.mgt.raised ++ [r] ∧ r.getD 2 0 = 0x13 ∧ r.getD 3 0 = site.val ∧ r.getD 7 0 = 2) ∧
        ∀ cc, ccOf site = some cc → t.top.ccMap = s.top.ccMap &&& ~~~ (1#16 <<< cc))) ∧
      ((getRouter s site).inService = true → gives (.fenceRouter site) (fun t => (getRouter t site).inService = false ∧ (getRouter t site).gate = Enable.off ∧ siteState t site = 3 ∧
        (2, site.val) ∈ t.mgt.fenced)) ∧
      ((getNode s k).fenced = false → (getNode s k).inService = true → gives (.fenceNode k) (fun t => (getNode t k).fenced = true ∧
        siteState t (nodeSite k) = (if siteState s (nodeSite k) = 3 then 3 else 2) ∧ (3, k.val) ∈ t.mgt.fenced)) ∧
      (gruThere s k = true → gives (.fenceGru k) (fun t => (getNode t k).gruFenced = true ∧ (getNode t k).gru = Enable.off ∧
        t.top.gruMap = s.top.gruMap &&& ~~~ (1#96 <<< k.val) ∧ (4, k.val) ∈ t.mgt.fenced)) ∧
      ((getPort s n).present = true → (getPort s n).fenced = false → gives (.fencePort n) (fun t => (getPort t n).fenced = true ∧ (getPort t n).state = .off ∧
        (getPort t n).ctl = Enable.off ∧ t.top.portMap = s.top.portMap &&& ~~~ (1#16 <<< n.val) ∧ (5, n.val) ∈ t.mgt.fenced)) ∧
      ((getUnit s c).inService = true → gives (.fenceSyncUnit c) (fun t => (getUnit t c).inService = false ∧ (getUnit t c).locks = [] ∧
        (getUnit t c).bars = [] ∧ (getUnit t c).watches = [] ∧ (6, c.val) ∈ t.mgt.fenced)) ∧
      ((getEngine s j).fenced = false → gives (.fenceCollEngine j) (fun t => (getEngine t j).fenced = true ∧ (7, j.val) ∈ t.mgt.fenced)) ∧
      (fencedUnseen s = [] → (∀ x : Site, siteState s x ≠ 3) →
        (s.mgt.fenced = [] → exec .healthViewCompare s = .next s) ∧
        (s.mgt.fenced = [(4, k.val)] → (getNode s k).gruFenced = true → (getNode s k).gru.gate ≠ .off → exec .healthViewCompare s =
          .next (postRecord 1 .island 0x60 0xFFFF k.val 0 0xFFFF (modNode k (fun x => { x with gru := Enable.off }) s)))) ∧
      exec .mgtRestartDone s = .next s) ∧
    ((s.aoc < s.mgt.restartAt + 25600 ∨ firmwareIntact s = false) → exec .mgtRestartDone s = .next s) ∧
    (s.mgt.restarting = true → s.mgt.restartAt + 25600 ≤ s.aoc → firmwareIntact s = true →
      (s.mgt.deferred = [] →
        exec .mgtRestartDone s = .next { s with mgt := { s.mgt with restarting := false, deferred := [], mwdSince := s.aoc } }) ∧
      (s.mgt.deferred = [.fence 7 j.val 2] → (getEngine s j).fenced = false →
        gives .mgtRestartDone (fun t => t.mgt.restarting = false ∧ t.mgt.deferred = [] ∧ (getEngine t j).fenced = true)))

/-! ### Security (20) -/

/-- Life cycle, identity and attestation: each command ends with its number and its result in SEC_CMDSTAT, the fuses it programs only where its checks
pass, in the life-cycle states that the table gives it; the words take one after another, a word that reads back wrong ends the command with 7 and an
alarm with 8, what is programmed stays, and no fuse bit is ever cleared; a debug challenge is drawn once and used once, and outside DEPLOYED the
unlock acts as BYPASS; an alarm is recorded, and acts as the option block says (20 R507, R508, R514 to R521, Tables 20.2, 20.4, 20.6; 23 R567). Where
a fuse word holds a bit that its new value lacks, the word reads back wrong. The
order and the width of the fuse words are the model's (log 30). -/
def Obligations.SecurityActs : Prop :=
  ∀ (e : FuseEnd) (a : BitVec 48) (s : State),
    let x := s.sec
    let ends := fun (i : Instr) (cmd : BitVec 4) (res : BitVec 8) (f : Sec → Sec) => ∃ t, exec i s = .next t ∧ t.sec = { f x with cmd := cmd, result := res }
    let lost := Config.freeBits 256 s.freeCtr
    (∀ i ∈ [Instr.lcadv e, .genid e, .provision a e, .returnDev a e, .eol e, .advsvn e, .kill e], ∃ t, exec i s = .next t ∧
      x.lc &&& ~~~ t.sec.lc = 0 ∧ x.svn &&& ~~~ t.sec.svn = 0 ∧ x.ownkh &&& ~~~ t.sec.ownkh = 0 ∧ x.idpriv &&& ~~~ t.sec.idpriv = 0 ∧
      (x.ownreq = true → t.sec.ownreq = true) ∧ (x.dbgen = true → t.sec.dbgen = true) ∧ (x.idgen = true → t.sec.idgen = true) ∧
      (x.revoke = true → t.sec.revoke = true) ∧ (x.kill = true → t.sec.kill = true)) ∧
    (x.state ≠ 0 → ends (.lcadv e) 1 1 id) ∧
    (x.state = 0 → ends (.lcadv .done) 1 0 (fun y => { y with lc := y.lc ||| 1 }) ∧ ends (.lcadv (.alarm 0)) 1 8 id ∧
      ends (.lcadv (.alarm 1)) 1 8 (fun y => { y with lc := y.lc ||| 1 }) ∧
      ends (.lcadv (.mismatch 0)) 1 7 (fun y => { y with lc := if lost.getLsbD 0 then y.lc ||| 1 else y.lc })) ∧
    (x.state ≠ 1 ∨ x.idgen = true → ends (.genid e) 2 1 id) ∧
    (x.state = 1 → x.idgen = false → let k := Config.entropy s.freeCtr
      (x.idpriv &&& ~~~ k = 0 → ends (.genid .done) 2 0 (fun y => { y with idpriv := k, idgen := true, idpub := Config.sm2Public k })) ∧
      (x.idpriv &&& ~~~ k ≠ 0 → ∃ t, exec (.genid .done) s = .next t ∧ t.sec.result = 7 ∧ t.sec.idgen = false) ∧
      ends (.genid (.alarm 0)) 2 8 id) ∧
    (x.state ≠ 1 ∨ x.idgen = false → ends (.provision a e) 3 1 id) ∧
    (x.state = 1 → x.idgen = true → match devRead s (a.toNat / 64 * 64) 64 with
      | none => ends (.provision a e) 3 9 id
      | some b =>
        let req := (leAt b 32 1).testBit 0
        let dbg := (leAt b 32 1).testBit 1
        if 4 ≤ leAt b 32 1 ∨ (b.drop 33).any (· != 0) = true then ends (.provision a e) 3 2 id
        else if x.ownkh &&& ~~~ BitVec.ofNat 256 (leAt b 0 32) ≠ 0 then ends (.provision a e) 3 3 id
        else
          ((x.ownreq = true → req = true) → (x.dbgen = true → dbg = true) → ends (.provision a .done) 3 0 (fun y => { y with
            ownkh := BitVec.ofNat 256 (leAt b 0 32), ownreq := req, dbgen := dbg, lc := y.lc ||| 2 })) ∧
          ((x.ownreq = true ∧ req = false) ∨ (x.dbgen = true ∧ dbg = false) → ends (.provision a .done) 3 7 (fun y => { y with
            ownkh := BitVec.ofNat 256 (leAt b 0 32), ownreq := y.ownreq || req, dbgen := y.dbgen || dbg })) ∧
          ends (.provision a (.alarm 0)) 3 8 id) ∧
    (x.state ≠ 2 → ends (.returnDev a e) 4 1 id) ∧
    (x.state = 2 → match devRead s (a.toNat / 64 * 64) 128 with
      | none => ends (.returnDev a e) 4 9 id
      | some b =>
        if Config.sm3 (b.take 64) = x.ownkh ∧ Config.sm2Verify (BitVec.ofNat 512 (leNat (b.take 64))) idReturn
            (bytesOf (idPublic s) 64 ++ txtReturn) (BitVec.ofNat 512 (leAt b 64 64)) = true then
          ends (.returnDev a .done) 4 0 (fun y => { y with ownerKeys := [], revoke := true, lc := y.lc ||| 4 }) ∧
          ends (.returnDev a (.alarm 1)) 4 8 (fun y => { y with ownerKeys := [], revoke := true }) ∧
          ends (.returnDev a (.mismatch 0)) 4 7 (fun y => { y with ownerKeys := [], revoke := y.revoke || lost.getLsbD 0 })
        else ends (.returnDev a e) 4 4 id) ∧
    (x.state = 4 → ends (.eol e) 5 1 id) ∧
    (x.state ≠ 4 → ends (.eol .done) 5 0 (fun y => { y with kill := true, lc := 15 }) ∧ ends (.eol (.alarm 1)) 5 8 (fun y => { y with kill := true })) ∧
    (x.state ≠ 1 → x.state ≠ 2 → ends (.advsvn e) 6 1 id) ∧
    ((x.state = 1 ∨ x.state = 2) → ends (.advsvn .done) 6 0 (fun y => { y with
      svn := if svnFused s < y.svnr.toNat then y.svn ||| BitVec.ofNat 64 (2 ^ y.svnr.toNat - 1) else y.svn })) ∧
    ends (.kill .done) 8 0 (fun y => { y with kill := true }) ∧ ends (.kill (.alarm 0)) 8 8 id ∧
    ends (.kill (.mismatch 0)) 8 7 (fun y => { y with kill := y.kill || lost.getLsbD 0 }) ∧
    (∀ alarmed : Bool, let cmd := Instr.secAttest ⟨a, alarmed⟩
      if x.state = 0 ∨ x.state = 4 then ends cmd 7 1 id else if x.kill then ends cmd 7 6 id else if x.idgen = false then ends cmd 7 0xA id
      else if x.idblk then ends cmd 7 5 id
      else match devRead s (a.toNat / 64 * 64) 32 with
        | none => ends cmd 7 9 id
        | some nonce => (reportBody s nonce).length = 256 ∧ (signReport nonce s).1.length = 320 ∧ (signReport nonce s).1.take 256 = reportBody s nonce ∧
          (alarmed = true → ends cmd 7 8 id ∧ ∀ t, exec cmd s = .next t → t.hbm = s.hbm ∧ t.cores = s.cores) ∧
          (alarmed = false → ends cmd 7 0 id ∧
            exec cmd s = .next (secResult 7 0 (devWrite (a.toNat / 64 * 64 + 64) (signReport nonce s).1 (signReport nonce s).2)))) ∧
    (x.state ≠ 2 → s.rst.phase ≠ .off → s.io.scanSel = none → exec .dbgChallenge s = .next { s with io := { s.io with ir := 0xFF } } ∧
      ∀ m, exec (.dbgUnlock m) s = .next { s with io := { s.io with ir := 0xFF } }) ∧
    (s.rst.phase = .off → exec .dbgChallenge s = .next s ∧ ∀ m, exec (.dbgUnlock m) s = .next s) ∧
    (x.state = 2 → s.rst.phase ≠ .off →
      (∃ t, exec .dbgChallenge s = .next t ∧ t.io.ir = 0x10 ∧ t.sec = { x with challenge := some (Config.entropy s.freeCtr) } ∧ t.freeCtr = s.freeCtr + 1) ∧
      ∀ m, let good := match x.challenge with | some ch => unlockGood s (bytesOf m 129) ch | none => false
        (x.idblk = true → good = false) ∧ ∃ t, exec (.dbgUnlock m) s = .next t ∧ t.sec.challenge = none ∧
          if good then t.sec.dbg = BitVec.ofNat 2 (leAt (bytesOf m 129) 64 1) ∧ t.sec.fails = 0 ∧ t.sec.unlockSeen = true
          else if x.fails = 3 then t.sec.fails = 0 ∧ t.sec.alarmSeen = true ∧ t.sec.src.getLsbD 4 = true
          else t.sec.fails = x.fails + 1 ∧ t.sec.dbg = x.dbg) ∧
    (∀ e ∈ [(Instr.alarmVolt, 0), (.alarmTemp, 1), (.alarmTamper, 3)], ∃ t, exec e.1 s = .next t ∧ t.sec.src.getLsbD e.2 = true ∧ t.sec.alarmSeen = true ∧
      t.sec.count = satInc x.count ∧ (optAlarm s e.2 = 0 → t.rst = s.rst) ∧
      (optAlarm s e.2 ≠ 0 → s.rst.phase ≠ .reset → t.rst.phase = .reset ∧ t.rst.src = 9) ∧
      (2 ≤ optAlarm s e.2 → 2 ≤ x.state.toNat → t.sec.idblk = true ∧ t.sec.ownerKeys = []) ∧
      (optAlarm s e.2 < 2 ∨ x.state.toNat < 2 → t.sec.idblk = x.idblk))

/-! ### Resets, the start and power (21) -/

/-- A device reset: from every source that is on, the device is held in reset with its cause in RST_SRC, its cores, its memory and its image at their
reset values and its non-volatile stores kept; a source that lasts holds the stretch back, and one in a reset already under way is added (21 R522 to
R525, R533 to R541, R548, Table 21.1). -/
def Obligations.ResetsAct : Prop :=
  ∀ (rail : Fin 16) (s : State),
    let held := fun (i : Instr) (code : Nat) (f : State → Prop) => ∃ t, exec i s = .next t ∧ t.rst.phase = .reset ∧ t.rst.src = BitVec.ofNat 8 code ∧
      t.rst.sources = (if sourceLasts code then [code] else []) ∧ t.rst.stretchEnd = (if sourceLasts code then none else some (s.aoc + 25600)) ∧
      t.hbm = [] ∧ t.cores = State.reset.cores ∧ t.packets = [] ∧ t.img = State.reset.img ∧ t.rst.flash = s.rst.flash ∧ t.kln.fuses = s.kln.fuses ∧ f t
    (∀ straps : BitVec 4, ∃ t, exec (.poweron straps) s = .next t ∧ t.rst.phase = .reset ∧ t.rst.src = 1 ∧ t.aoc = 0 ∧ t.mgt.modid = straps ∧ t.rst.failcnt = 0 ∧
      t.rst.sources = [1] ∧ t.rst.bkp = [] ∧ t.sec.fails = 0 ∧ t.sec.alarmSeen = false) ∧
    (s.rst.phase = .off → ∀ i ∈ [Instr.inputUndervoltage, .railUndervoltage rail, .swreset, .thermalTrip, .inputWarning, .railWarning rail, .resetNLow, .resetNGlitch],
      exec i s = .next s) ∧
    (railWatched s rail = false → exec (.railUndervoltage rail) s = .next s) ∧
    (s.rst.phase = .running ∨ s.rst.phase = .waiting →
      held .inputUndervoltage 2 (fun t => t.rst.bkp = s.rst.bkp) ∧ held .swreset 6 (fun t => t.rst.bkp = s.rst.bkp) ∧
      held .thermalTrip 0xB (fun t => t.rst.thermTrip = true) ∧ (railWatched s rail = true → held (.railUndervoltage rail) 3 (fun t => t.rst.detail.toNat = rail.val)) ∧
      (pinIgnored s = false → s.rst.thermTrip = false → held .resetNLow 4 (fun t => t.io.resetLow = true))) ∧
    (s.rst.phase = .reset → ∃ t, exec .inputUndervoltage s = .next t ∧ t.rst.phase = .reset ∧ t.rst.src = s.rst.src ∧ t.rst.also.getLsbD 2 = true ∧
      t.rst.stretchEnd = none ∧ t.rst.sources = s.rst.sources.erase 2 ++ [2]) ∧
    (pinIgnored s = true → exec .resetNLow s = .next s ∧ exec .resetNGlitch s = .next s) ∧
    (pinIgnored s = false → (s.rst.thermTrip = true → junctionsCool s = false → exec .resetNLow s = .next s) ∧
      ∃ t, exec .resetNGlitch s = .next t ∧ t.sec.alarmSeen = true ∧ t.sec.src.getLsbD 2 = true) ∧
    (∀ code : BitVec 8, let c := code.toNat
      ((s.rst.phase ≠ .reset ∨ s.rst.sources.contains c = false ∨ c = 0xB) → exec (.resetSourceEnd code) s = .next s) ∧
      (s.rst.phase = .reset → s.rst.sources.contains c = true → c ≠ 0xB → ∃ t, exec (.resetSourceEnd code) s = .next t ∧ t.rst.sources = s.rst.sources.erase c ∧
        t.rst.stretchEnd = if s.rst.sources.erase c = [] then some (s.aoc + 25600) else none)) ∧
    (budgetExpired s = false → exec .startBudgetExpiry s = .next s) ∧
    (budgetExpired s = true → s.rst.phase = .running ∨ s.rst.phase = .waiting → s.rst.recoverNext = false → held .startBudgetExpiry 0xC (fun t =>
      t.rst.failcnt.toNat = min 15 (s.rst.failcnt.toNat + 1))) ∧
    (s.rst.phase = .running → ∃ t, exec .bootok s = .next t ∧ t.rst.bootdone = true ∧ t.rst.failcnt = 0 ∧ t.rst.budgetSince = none) ∧
    (s.rst.phase ≠ .running → exec .bootok s = .next s ∧ exec .mgtWatchdogExpiry s = .next s ∧ exec .refclkFailure s = .next s) ∧
    exec .mkick s = .next { s with mgt := { s.mgt with mwdSince := s.aoc } } ∧
    (s.rst.phase = .running → s.mgt.mwdSince + optMwdPer s * 1024 ≤ s.aoc →
      (s.rst.bootdone = true → s.mgt.restarting = false → exec .mgtWatchdogExpiry s = .next { s with mgt := { s.mgt with restarting := true, restartAt := s.aoc, mwdSince := s.aoc } }) ∧
      (s.rst.bootdone = false ∨ s.mgt.restarting = true → held .mgtWatchdogExpiry 5 (fun _ => True))) ∧
    (s.aoc < s.mgt.mwdSince + optMwdPer s * 1024 → exec .mgtWatchdogExpiry s = .next s) ∧
    (s.rst.phase = .running → (optClkScope s = false → held .refclkFailure 8 (fun _ => True)) ∧
      (optClkScope s = true → ∃ t, exec .refclkFailure s = .next t ∧ t.hbm = [] ∧ t.rst.islandsHeld = true ∧ t.rst.cghbm = false ∧ t.rst.cgsds = false ∧
        t.rst.phase = .running ∧ ∀ k : Fin 96, (getNode s k).inService = true → (getNode t k).fenced = true)) ∧
    (∀ cc : Fin 16, let c := getCore s (ccSite cc)
      ((c.power ≠ .on ∨ c.ccwdEn = false ∨ s.aoc < c.ccwdSince + c.ccwdPeriod.toNat * 1024) → exec (.ccWatchdogExpiry cc) s = .next s) ∧
      (c.power = .on → c.ccwdEn = true → c.ccwdSince + c.ccwdPeriod.toNat * 1024 ≤ s.aoc → (cc ≠ 0 ∨ s.top.role ≠ 1) → ∃ t, exec (.ccWatchdogExpiry cc) s = .next t ∧
        (getCore t (ccSite cc)).power = .reset ∧ (getCore t (ccSite cc)).resetEnds = some (s.aoc + 25600) ∧
        ∃ r, t.mgt.raised = s.mgt.raised ++ [r] ∧ r.getD 2 0 = 0x15)) ∧
    (∀ site : Site, let c := getCore s site
      (c.resetEnds = none → exec (.coreResetEnd site) s = .next s) ∧
      (∀ e, c.resetEnds = some e → (s.aoc < e → exec (.coreResetEnd site) s = .next s) ∧
        (e ≤ s.aoc → c.power = .reset → s.mgt.errAfterReset.contains site.val = false →
          exec (.coreResetEnd site) s = .next (setCore s site (coreAfter c .on s.rst.entry none)))))

/-- The start: the stretch's end releases the pin and starts the budget, the rails rise in their order, and the controller starts when the rails are
good and the clocks agree; a firmware image that is refused makes the next start one in recovery mode, in which no firmware is run; FORCE releases
islands in MANUFACTURE (20 R512, R513; 21 R524, R529 to R531, R535, R536). -/
def Obligations.StartsProceed : Prop :=
  ∀ (m : StartMeas) (s : State),
    let ready := s.rst.phase = .waiting ∧ s.rst.powerGood = true ∧ s.rst.cgmgt = false ∧ s.rst.cghbm = true ∧ s.rst.cgsds = true
    (s.rst.stretchEnd = none → exec (.resetStretchEnd m) s = .next s) ∧
    (∀ e, s.rst.stretchEnd = some e → (s.aoc < e ∨ s.rst.phase ≠ .reset → exec (.resetStretchEnd m) s = .next s) ∧
      (e ≤ s.aoc → s.rst.phase = .reset → s.rst.railsUp = 0 → ∃ t, exec (.resetStretchEnd m) s = .next t ∧ t.rst.phase = .waiting ∧ t.rst.releasedAt = s.aoc ∧
        t.rst.startMark = s.aoc ∧ t.rst.recovery = recoveryStart s ∧ t.rst.budgetUsed = 0 ∧ t.rst.recoverNext = false ∧
        t.rst.budgetSince = (if recoveryStart s then none else some s.aoc))) ∧
    (∀ rail : Fin 16, ((rampOrder s)[s.rst.railsUp]? ≠ some rail.val ∨ s.rst.phase = .running ∨ s.rst.phase = .off → exec (.railGood rail m) s = .next s) ∧
      ((rampOrder s)[s.rst.railsUp]? = some rail.val → s.rst.phase = .waiting → s.rst.powerGood = false → s.rst.railsUp + 1 < (rampOrder s).length →
        ∃ t, exec (.railGood rail m) s = .next t ∧ t.rst.railsUp = s.rst.railsUp + 1 ∧ t.rst.phase = .waiting ∧
        (8 ≤ rail.val → (getRail t (rail.val - 8)).vset = 700))) ∧
    (s.rst.phase ≠ .waiting →
      exec (.clockGood 0) s = .next { s with rst := { s.rst with cghbm := !s.rst.islandsHeld } } ∧
      exec (.clockGood 1) s = .next { s with rst := { s.rst with cgsds := !s.rst.islandsHeld } } ∧
      exec (.clockGood 2) s = .next { s with rst := { s.rst with cgmgt := true } }) ∧
    (ready → s.rst.recovery = true → ∃ t, exec (.clockGood 2) s = .next t ∧ t.rst.phase = .running ∧ t.rst.recovery = true ∧ t.img.present = s.img.present) ∧
    (ready → s.rst.recovery = false → fwHeaderGood (flashRead s 0x100000 128) = false → ∃ t, exec (.clockGood 2) s = .next t ∧ t.rst.phase = .running ∧
      t.rst.recovery = true ∧ t.rst.recoverNext = true ∧ t.rst.budgetSince = none ∧ t.rst.failcnt.toNat = min 15 (s.rst.failcnt.toNat + 1) ∧ t.img = s.img) ∧
    (s.sec.state ≠ 1 → ∀ b, exec (.force b) s = .next s) ∧
    (s.sec.state = 1 → s.rst.phase ≠ .waiting → ∀ b : BitVec 2, ∃ t, exec (.force b) s = .next t ∧
      (b.getLsbD 0 = true → s.rst.cghbm = false → t.rst.forceHbm = true ∧ t.top.stackMap = 0 ∧ t.top.gruMap = 0 ∧ ∀ k : Fin 96, (getNode t k).inService = false) ∧
      (b.getLsbD 1 = true → s.rst.cgsds = false → t.rst.forceSds = true ∧ t.top.portMap = 0 ∧ ∀ n : Fin 16, (getPort t n).present = false))

/-- Supply and heat: a warning sets its sticky bit and the limit that protects, which recovery ends; a throttled half-domain falls by 10 mV a tick to
0.70 V and then halves its duty, not below 16, until 5 degrees below the limit; each window shows the draw with the ballast that keeps its fall within
SLEW, but in a fault shutdown, lowers the highest rail alone while the demand is above the limit, and otherwise ends pacing and then lets rails rise
toward 0.90 V, by steps that are the model's choice, log 14 (01 R28; 21 R541, R542, R544 to R547). The lands of the connector follow: RESET_N is held low in a
device reset, ALERT_N while a warning stands, THERM_TRIP_N after a trip, PWR_GOOD shows good rails, and a GPIO with OE drives OUT (24 R581 to R583,
Table 24.4). -/
def Obligations.PowerActs : Prop :=
  ∀ (h : Fin 8) (tj : BitVec 8) (s : State),
    let r := getRail s h
    let rail : Fin 16 := ⟨h.val + 8, by omega⟩
    let gives := fun (i : Instr) (f : State → Prop) => ∃ t, exec i s = .next t ∧ f t
    (s.rst.phase ≠ .off →
      gives .inputWarning (fun t => t.pwr.iwarn = true ∧ t.pwr.inputLimited = true) ∧
      (railWatched s rail = true → gives (.railWarning rail) (fun t => t.pwr.hwarn = s.pwr.hwarn ||| (1#8 <<< h.val) ∧ (getRail t h).limited = true ∧
        (getRail t h).duty.toNat = min 64 r.duty.toNat)) ∧
      (railWatched s rail = false → exec (.railWarning rail) s = .next s)) ∧
    gives (.railRecovery rail) (fun t => t.pwr.low = s.pwr.low.filter (· != h.val + 8) ∧ t.pwr.hwarn = s.pwr.hwarn ∧
      getRail t h = { r with limited := false }) ∧
    gives (.throttleStart h tj) (fun t => (getRail t h).tj = tj ∧ t.pwr.thr = if s.pwr.throt.toNat < tj.toInt then s.pwr.thr ||| (1#8 <<< h.val) else s.pwr.thr) ∧
    gives (.throttleTick h tj) (fun t => let q := getRail t h
      q.tj = tj ∧ (s.pwr.thr.getLsbD h.val = false → q.vset = r.vset ∧ q.duty = r.duty) ∧
      (s.pwr.thr.getLsbD h.val = true → 700 < r.vset.toNat → q.vset.toNat = max 700 (r.vset.toNat - 10) ∧ q.duty = r.duty) ∧
      (s.pwr.thr.getLsbD h.val = true → r.vset.toNat ≤ 700 → q.vset = r.vset ∧
        q.duty.toNat = if 105 < tj.toInt then min r.duty.toNat (max 16 (r.duty.toNat / 2)) else r.duty.toNat)) ∧
    gives (.throttleEnd h tj) (fun t => getRail t h = { r with tj := tj } ∧
      (s.pwr.thr.getLsbD h.val = true → tj.toInt ≤ (s.pwr.throt.toNat : Int) - 5 → t.pwr.thr = s.pwr.thr &&& ~~~ (1#8 <<< h.val)) ∧
      ((s.pwr.thr.getLsbD h.val = false ∨ (s.pwr.throt.toNat : Int) - 5 < tj.toInt) → t.pwr.thr = s.pwr.thr)) ∧
    (∀ draw vin : BitVec 16, gives (.powerWindow draw vin) (fun t =>
      let q := getRail t h
      let cap : BitVec 8 := if r.limited then 64 else 128
      t.pwr.vin = vin ∧ t.pwr.draw.toNat = max draw.toNat (if shutDown s then 0 else s.pwr.draw.toNat - s.pwr.slew.toNat) ∧
      t.pwr.ballast.toNat = min 4000 (t.pwr.draw.toNat - draw.toNat) ∧
      (drawLimit s < draw.toNat →
        (∀ b : Fin 8, highestRail s = some b.val → (getRail t b).vset.toNat = max 700 ((getRail s b).vset.toNat - 10) ∧ (h ≠ b → q = r)) ∧
        (highestRail s = none → q = { r with duty := q.duty } ∧ q.duty.toNat = max 1 (r.duty.toNat / 2))) ∧
      (draw.toNat ≤ drawLimit s →
        (s.pwr.thr.getLsbD h.val = true → q = r) ∧
        (s.pwr.thr.getLsbD h.val = false →
          (r.duty ≠ cap → q = { r with duty := cap }) ∧
          (r.duty = cap → (r.off = true ∨ r.limited = true ∨ r.vset = 0 ∨ 900 ≤ r.vset.toNat) → q = r) ∧
          (r.duty = cap → r.off = false → r.limited = false → r.vset ≠ 0 → r.vset.toNat < 900 →
            q.vset.toNat = min 900 (r.vset.toNat + 10) ∧ q.vmeas = q.vset ∧ q.duty = r.duty))))) ∧
    (s.rst.phase ≠ .off →
      (s.rst.phase = .reset → landDrive s .resetN = .low) ∧ (s.rst.phase ≠ .reset → landDrive s .resetN = released s) ∧
      landDrive s .alertN = (if anyWarning s.pwr then .low else released s) ∧ landDrive s .thermTripN = (if s.rst.thermTrip then .low else released s) ∧
      landDrive s .pwrGood = (if s.rst.powerGood then .high else .low) ∧
      (∀ n : Fin 4, s.mgt.oe.getLsbD n = true → landDrive s (.gpio n) = if s.mgt.out.getLsbD n then .high else .low)) ∧
    (s.rst.phase = .off → landDrive s .resetN = .highZ ∧ landDrive s .alertN = .highZ ∧ ∀ n : Fin 4, landDrive s (.modid n) = .weakUp)

/-! ### Kiln and the debugger (22 R550 to R558, 23 R569 to R573) -/

/-- Kiln: GO is turned away with its code, or isolates the slice and tests it; a test that passes opens the slice again, one that repairs it says how,
one that fails or exceeds its budget fences it, at once or after a restart of the controller; the next GO is taken then (19 R497; 22 R550 to R558,
Table 22.1). -/
def Obligations.KilnActs : Prop :=
  ∀ (issuer : Option Site) (kind : BitVec 4) (inst : BitVec 12) (s : State),
    let k := kind.toNat
    let i := inst.toNat
    let last := fun (n : BitVec 8) => exec (.kilnGo issuer kind inst) s = .next { s with kln := { s.kln with last := n } }
    let slice := s.kln.slice.toNat
    let site := if slice / 4096 = 2 then ccSite (slice % 4096) else slice % 4096
    ((k = 0 ∨ 8 < k ∨ s.kln.state ≠ 0) → exec (.kilnGo issuer kind inst) s = .next s) ∧
    (1 ≤ k → k ≤ 8 → s.kln.state = 0 →
      ((k = 3 ∨ k = 4 ∨ k = 5) → last 0x10) ∧
      (k ≠ 3 → k ≠ 4 → k ≠ 5 → sliceThere s k i = false → last 0x11) ∧
      (sliceThere s k i = true → sliceBusy s k i = true → last 0x12) ∧
      (k = 1 → sliceThere s k i = true → issuer.map (·.val) = some i → last 0x13) ∧
      (sliceThere s k i = true → sliceBusy s k i = false → (k = 1 ∨ k = 2 → issuer.map (·.val) ≠ some (sliceSite k i)) →
        ∃ t, exec (.kilnGo issuer kind inst) s = .next t ∧ t.kln.state = 2 ∧ t.kln.slice.toNat = 4096 * k + i ∧ t.kln.since = s.aoc ∧
          ((k = 1 ∨ k = 2) → (getCore t (sliceSite k i)).power = .isolated) ∧ (k = 6 → (getNode t i).gruIsolated = true) ∧
          (k = 7 → (getPort t i).isolated = true) ∧ (k = 8 → (getEngine t i).isolated = true))) ∧
    (s.kln.state ≠ 2 → (∀ r, exec (.kilnSliceDone r) s = .next s) ∧ exec .kilnBudgetExpiry s = .next s) ∧
    (s.kln.state = 2 → s.aoc ≤ s.kln.since + sliceBudget (slice / 4096) → exec .kilnBudgetExpiry s = .next s) ∧
    (s.kln.state = 2 → slice / 4096 = 1 ∨ slice / 4096 = 2 → hasThreads site = true → (getCore s site).power = .isolated →
      (∃ t, exec (.kilnSliceDone .pass) s = .next t ∧ t.kln.state = 0 ∧ t.kln.last = 0 ∧ (getCore t site).power = .on) ∧
      (∀ d, ∃ t, exec (.kilnSliceDone (.repaired d)) s = .next t ∧ t.kln.state = 0 ∧ t.kln.last.toNat = repairResult s ∧ (getCore t site).power = .on) ∧
      (∀ d, ∃ t, exec (.kilnSliceDone (.fails d)) s = .next t ∧ t.kln.state = 0 ∧ t.kln.last = 4 ∧
        (s.mgt.restarting = false → (getCore t site).power = .fenced) ∧
        (s.mgt.restarting = true → (getCore t site).power = .isolated ∧ t.mgt.deferred = s.mgt.deferred ++ [.fence 1 site 2])) ∧
      (s.kln.since + sliceBudget (slice / 4096) < s.aoc → ∃ t, exec .kilnBudgetExpiry s = .next t ∧ t.kln.state = 0 ∧ t.kln.last = 4 ∧
        (s.mgt.restarting = false → (getCore t site).power = .fenced) ∧ ∃ e, t.kln.log = s.kln.log ++ [e] ∨ 512 ≤ s.kln.log.length ∧ t.kln.lost = satInc s.kln.lost))

/-- The debugger: a halt is taken at once by a thread that does not hold the slot and is kept for one that does; a thread resumes, for good or for a
step, with or without its send buffer; CORE_DBGDATA reaches a halted thread's registers and its index advances; where it may not, the error says why
(23 R569 to R572, Tables 23.5 to 23.8, 23.10). -/
def Obligations.DebuggerActs : Prop :=
  ∀ (site : Site) (t : Fin 4) (s : State), hasThread site t = true →
    let h := getThr s site t
    let c := getCore s site
    let one : BitVec 4 := 1#4 <<< t.val
    let gives := fun (i : Instr) (f : State → Prop) => ∃ u, exec i s = .next u ∧ f u
    (c.power ≠ .on → (∀ m, exec (.dbgHalt site m) s = .next s ∧ exec (.dbgResume site m) s = .next s ∧ exec (.dbgStep site m) s = .next s ∧
        exec (.dbgDiscsb site m) s = .next s) ∧ (∀ w, exec (.dbgdataAccess site w) s = .next s) ∧ ∀ v, exec (.coreTrcctlEnable site v) s = .next s) ∧
    ((c.dbg.pendHalt.getLsbD t.val = false ∨ mayHalt s h = false) → exec (.haltTaken site t) s = .next s) ∧
    (c.dbg.pendHalt.getLsbD t.val = true → mayHalt s h = true → gives (.haltTaken site t) (fun u => (getThr u site t).halted = true ∧
      (getCore u site).dbg.pendHalt.getLsbD t.val = false)) ∧
    (c.power = .on →
      (h.halted = true → exec (.dbgHalt site one) s = .next s) ∧
      (h.halted = false → h.run ≠ .running → mayHalt s h = true → gives (.dbgHalt site one) (fun u => (getThr u site t).halted = true ∧
        (∀ r, readGr (getThr u site t) r = readGr h r) ∧ (getThr u site t).pc = h.pc)) ∧
      (h.halted = false → (h.run = .running ∨ mayHalt s h = false) → gives (.dbgHalt site one) (fun u =>
        (getCore u site).dbg.pendHalt = c.dbg.pendHalt ||| one ∧ getThr u site t = h)) ∧
      (h.halted = false → exec (.dbgResume site one) s = .next s ∧ exec (.dbgStep site one) s = .next s ∧ exec (.dbgDiscsb site one) s = .next s) ∧
      (h.halted = true → (h.run = .ready ∨ h.run = .parked) → h.comm.blocking = none → (∀ p ∈ s.packets, keptMessage s site t p = false) →
        gives (.dbgResume site one) (fun u => (getThr u site t).halted = false ∧ (getThr u site t).stepOne = false ∧ (getThr u site t).comm.sendBuf = h.comm.sendBuf) ∧
        gives (.dbgDiscsb site one) (fun u => (getThr u site t).halted = false ∧ (getThr u site t).comm.sendBuf = []) ∧
        gives (.dbgStep site one) (fun u => (getThr u site t).halted = false ∧ (h.run = .ready → (getThr u site t).stepOne = true ∧ (getThr u site t).stepped = false) ∧
          (h.run = .parked → (getThr u site t).run = .parked ∧ (getThr u site t).stepped = true))) ∧
      (∀ w, dbgError s site ≠ 0 → gives (.dbgdataAccess site w) (fun u => (getCore u site).dbg.err.toNat = dbgError s site ∧
        ∀ x : Fin 4, getThr u site x = getThr s site x)) ∧
      (∀ (r : Reg) (v : BitVec 64), let sel := c.dbg.dbgsel
        fld sel 61 60 = t.val → fld sel 31 0 = r.val → h.halted = true →
          (fld sel 59 56 = 0 → gives (.dbgdataAccess site (some v)) (fun u => getThr u site t = writeGr r v h ∧ (getCore u site).dbg.err = 0 ∧
            fld (getCore u site).dbg.dbgsel 31 0 = (if r.val < 31 then r.val + 1 else 0)) ∧
            gives (.dbgdataAccess site none) (fun u => ∀ x : Fin 4, getThr u site x = getThr s site x)) ∧
          (fld sel 59 56 = 5 → gives (.dbgdataAccess site (some v)) (fun u => mget (getThr u site t).comm.sendBuf r.val 0 = v))) ∧
      (∀ v : BitVec 64, gives (.coreTrcctlEnable site v) (fun u => bit (getCore u site).dbg.trcctl 63 = bit v 63 ∧
        (bit v 63 = true → bit c.dbg.trcctl 63 = false → (getCore u site).dbg.trcprod = 0) ∧
        (bit v 63 = false → (getCore u site).dbg.trcprod = c.dbg.trcprod))))

/-! ### The island's own ports (23 R561 to R568) and registers (18 R479) -/

/-- JTAG: an instruction is loaded where it is permitted and acts as BYPASS otherwise, and none is while the always-on domain is off; IDCODE gives the
part, the boundary instructions observe and drive the lands, DBGACC reads and writes memory and registers and resets with its status, or is refused with
the status of the fault, OTPPROG programs bits of 1 under its
key, and a scan chain is selected only of a slice that kiln isolates (23 R567, R568, Table 23.4). -/
def Obligations.JtagActs : Prop :=
  ∀ (s : State) (lands : BitVec 40) (addr : BitVec 48) (v : BitVec 64) (image : BitVec 512) (key : BitVec 32) (chain : Fin 8),
    let all : List Instr := [.jtagIdcode, .jtagSamplePreload lands, .jtagExtest lands, .jtagBypass, .dbgaccRead addr, .dbgaccWrite addr v, .dbgaccDebugReset,
      .dbgaccCoreReset addr, .otpprog image key, .scansel chain]
    let bypass := fun (i : Instr) => exec i s = .next { s with io := { s.io with ir := 0xFF } }
    let gives := fun (i : Instr) (f : State → Prop) => ∃ t, exec i s = .next t ∧ f t
    let a := addr.toNat
    let refused := fun (i : Instr) (w : Option Word) => gives i (fun t => t.io.accStatus = (if islandCode s a w = 2 then 3 else 2) ∧ t.io.accData = 0 ∧
      t.io.accHeld = none ∧ t.rst = s.rst ∧ t.hbm = s.hbm)
    (s.rst.phase = .off → ∀ i ∈ all, exec i s = .next s) ∧
    (s.rst.phase ≠ .off → s.io.scanSel = none →
      bypass .jtagBypass ∧
      gives .jtagIdcode (fun t => t.io.ir = 1 ∧ t.io.captured = idcode s ∧ fld (t.io.captured.setWidth 64) 11 0 = 0x76B) ∧
      exec (.jtagSamplePreload lands) s = .next { s with io := { s.io with ir := 2, boundary := lands } } ∧
      (2 ≤ dbgMode s → exec (.jtagExtest lands) s = .next { s with io := { s.io with ir := 3, boundary := lands } }) ∧
      (dbgMode s < 2 → bypass (.jtagExtest lands)) ∧
      (dbgMode s = 0 → ∀ i ∈ [Instr.dbgaccRead addr, .dbgaccWrite addr v, .dbgaccDebugReset, .dbgaccCoreReset addr], bypass i) ∧
      (dbgMode s ≠ 0 → s.io.accHeld = none →
        (islandCode s a none ≠ 0 → refused (.dbgaccRead addr) none) ∧
        (islandCode s a (some v) ≠ 0 → refused (.dbgaccWrite addr v) (some v)) ∧
        (isRegAddr a = false → islandCode s a none = 0 → gives (.dbgaccRead addr) (fun t =>
          t.io.accStatus = 0 ∧ t.io.accData = islandWord s a ∧ t.io.accHeld = none ∧ t.hbm = s.hbm ∧ t.cores = s.cores)) ∧
        (isRegAddr a = false → islandCode s a (some v) = 0 → islandLost a (some v) s = false → gives (.dbgaccWrite addr v) (fun t =>
          t.io.accStatus = 0 ∧ t.io.accHeld = none ∧ islandWord t a = v)) ∧
        (isRegAddr a = false → islandCode s a (some v) = 0 → islandLost a (some v) s = true → gives (.dbgaccWrite addr v) (fun t =>
          t.io.accStatus = 2 ∧ Memory.readN t.hbm a 8 = Memory.readN s.hbm a 8)) ∧
        (∀ b off, blockOf a = some (b, off) → isRegAddr a = true → ownAccess s a = false →
          (islandCode s a none = 0 → gives (.dbgaccRead addr) (fun t => t.io.accStatus = 0 ∧ some t.io.accData = blockRead s b off ∧ t.cores = s.cores)) ∧
          (islandCode s a (some v) = 0 → gives (.dbgaccWrite addr v) (fun t => t.io.accStatus = 0 ∧ t.io.accData = 0 ∧
            let u := blockWrite none (islandLevel s) v { s with io := { s.io with ir := 0x11 } } b off
            t.cores = u.cores ∧ t.routers = u.routers ∧ t.nodes = u.nodes ∧ t.ports = u.ports ∧ t.units = u.units ∧ t.top = u.top ∧ t.rst = u.rst))) ∧
        (s.rst.phase ≠ .reset → gives .dbgaccDebugReset (fun t => t.rst.phase = .reset ∧ t.rst.src = 7)) ∧
        (∀ site : Nat, regionOf addr.toNat = .siteReg site 0 →
          let there := hasThreads site && coreInService s site
          (there = true → gives (.dbgaccCoreReset addr) (fun t => (getCore t site).power = .reset ∧ t.io.accStatus = 0)) ∧
          (there = false → gives (.dbgaccCoreReset addr) (fun t => t.io.accStatus = 2 ∧ t.cores = s.cores)))) ∧
      (s.sec.state.toNat ≤ 1 → key = 0x0F7B5A11 → gives (.otpprog image key) (fun t =>
        ∀ i : Fin 64, mget t.rst.otp i 0 = mget s.rst.otp i 0 ||| (image >>> (8 * i.val)).setWidth 8)) ∧
      (s.sec.state.toNat ≤ 1 → key ≠ 0x0F7B5A11 → gives (.otpprog image key) (fun t => t.rst = s.rst)) ∧
      (2 ≤ s.sec.state.toNat → bypass (.otpprog image key)) ∧
      ((s.sec.state = 2 ∨ 4 ≤ s.sec.state.toNat) → bypass (.scansel chain)) ∧
      ((s.sec.state = 0 ∨ s.sec.state = 1 ∨ s.sec.state = 3) → exec (.scansel chain) s = .next { s with io := { s.io with
        ir := BitVec.ofNat 8 (0x30 + chain.val), scanSel := if s.kln.state = 2 then some chain.val else none } }))

/-- The I3C target: a frame is not taken while one is held or unread, and one with a bad CRC or length is answered with 1 or 2; each command answers
with its status, its tag and what it reads, and does what it names, an image command as the loader's state lets it; the response, once read, lets a RESET take place (23 R562 to R566, Tables 23.1 to
23.3). -/
def Obligations.I3cActs : Prop :=
  ∀ (tag : BitVec 8) (crc len : Bool) (s : State) (first count cmd : BitVec 8) (addr : BitVec 64) (v serial : BitVec 64) (nonce : BitVec 256) (data : List Byte)
      (fa : BitVec 32) (fl : BitVec 16),
    let f : Frame := ⟨tag, crc, len⟩
    let all : List Instr := [.i3cIdent f, .i3cSensor f first count, .i3cRegrd f addr, .i3cRegwr f addr v, .i3cAttest f nonce, .i3cStage f addr data,
      .i3cImgcmd f cmd serial, .i3cFlashrd f fa fl, .i3cFlashwr f fa data, .i3cFlasherase f fa, .i3cReset f]
    let answers := fun (i : Instr) (st : BitVec 8) (pay : List Byte → Prop) (g : State → Prop) => ∃ t p, exec i s = .next t ∧ pay p ∧ g t ∧ t.io.ibi = some tag ∧
      t.io.response = some ([st, tag] ++ leBytes 2 p.length ++ p ++ bytesOf (crc32 ([st, tag] ++ leBytes 2 p.length ++ p)) 4)
    let empty := fun (p : List Byte) => p = []
    let any := fun (_ : State) => True
    ((s.rst.phase = .off ∨ s.io.response ≠ none ∨ s.io.running ≠ none) → ∀ i ∈ all, exec i s = .next s) ∧
    (s.rst.phase ≠ .off → s.io.response = none → s.io.running = none →
      (crc = false → ∀ i ∈ all, answers i 1 empty any) ∧
      (crc = true → len = false → ∀ i ∈ all, answers i 2 empty any) ∧
      (crc = true → len = true →
        answers (.i3cIdent f) 0 (fun p => p = featureBytes s) any ∧
        (1 ≤ count.toNat → count.toNat ≤ 32 → answers (.i3cSensor f first count) 0 (fun p => p = (List.range count.toNat).flatMap (fun i => sensorBytes s (first.toNat + i))) any) ∧
        ((count = 0 ∨ 32 < count.toNat) → ∃ st, answers (.i3cSensor f first count) st empty any) ∧
        (s.rst.recovery = true → ∀ i ∈ [Instr.i3cRegrd f addr, .i3cRegwr f addr v], answers i 4 empty any) ∧
        (s.rst.recovery = false →
          let a := addr.toNat
          (islandCode s a none ≠ 0 → answers (.i3cRegrd f addr) (if islandCode s a none = 2 then 6 else 5) empty (fun t => t.hbm = s.hbm)) ∧
          (islandCode s a (some v) ≠ 0 → answers (.i3cRegwr f addr v) (if islandCode s a (some v) = 2 then 6 else 5) empty (fun t => t.hbm = s.hbm)) ∧
          (isRegAddr a = false → islandCode s a none = 0 → answers (.i3cRegrd f addr) 0 (fun p => p = bytesOf (islandWord s a) 8) (fun t => t.hbm = s.hbm)) ∧
          (isRegAddr a = false → islandCode s a (some v) = 0 → islandLost a (some v) s = false →
            answers (.i3cRegwr f addr v) 0 empty (fun t => islandWord t a = v)) ∧
          (isRegAddr a = false → islandCode s a (some v) = 0 → islandLost a (some v) s = true → answers (.i3cRegwr f addr v) 5 empty any) ∧
          (∀ b off, blockOf a = some (b, off) → isRegAddr a = true → ownAccess s a = false →
            (∀ r, islandCode s a none = 0 → blockRead s b off = some r → answers (.i3cRegrd f addr) 0 (fun p => p = bytesOf r 8) (fun t => t.cores = s.cores)) ∧
            (islandCode s a (some v) = 0 → answers (.i3cRegwr f addr v) 0 empty (fun t => let u := blockWrite none (islandLevel s) v s b off
              t.cores = u.cores ∧ t.routers = u.routers ∧ t.nodes = u.nodes ∧ t.ports = u.ports ∧ t.units = u.units ∧ t.top = u.top ∧ t.rst = u.rst)))) ∧
        (attestCheck s ≠ 0 → s.sec.busy = false → answers (.i3cAttest f nonce) 7 (fun p => p = [BitVec.ofNat 8 (attestCheck s)]) any) ∧
        (attestCheck s = 0 → s.sec.busy = false → answers (.i3cAttest f nonce) 0 (fun p => p.length = 320 ∧ p.take 256 = reportBody s (bytesOf nonce 32)) any) ∧
        (s.sec.busy = true → answers (.i3cAttest f nonce) 8 empty (fun t => t.freeCtr = s.freeCtr)) ∧
        (loaderRuns s = true → loaderFree s = true → addr.toNat % 256 = 0 → addr.toNat + data.length ≤ 2 ^ 24 → 1 ≤ data.length → data.length ≤ 256 →
          answers (.i3cStage f addr data) 0 empty (fun t => t.img.staging = Memory.writeN s.img.staging addr.toNat data)) ∧
        ((data.length = 0 ∨ 256 < data.length) → answers (.i3cStage f addr data) 2 empty any) ∧
        (loaderRuns s = false → answers (.i3cImgcmd f cmd serial) 4 empty (fun t => t.img = s.img)) ∧
        (loaderRuns s = true → serial.toNat ≠ leNat (Memory.readN s.img.staging 24 8) →
          answers (.i3cImgcmd f cmd serial) 0 (fun p => p.length = 8 ∧ leAt p 4 1 = 0x20) (fun t => t.img = s.img)) ∧
        (loaderRuns s = true → serial.toNat = leNat (Memory.readN s.img.staging 24 8) →
          let word := fun (last : Nat) => fun (p : List Byte) => p.length = 8 ∧ leAt p 4 1 = last
          (loaderFree s = false → s.img.owner = true → 1 ≤ cmd.toNat → cmd.toNat ≤ 6 → answers (.i3cImgcmd f cmd serial) 0 (word 0x23) (fun t =>
            t.img = { s.img with last := 0x23 })) ∧
          (loaderFree s = true ∨ s.img.owner = false →
            (s.img.state ≠ .staged → (cmd = 2 ∨ cmd = 5) → answers (.i3cImgcmd f cmd serial) 0 (word 0x20) (fun t => t.img.state = s.img.state)) ∧
            (s.img.state = .idle → (cmd = 3 ∨ cmd = 4) → answers (.i3cImgcmd f cmd serial) 0 (word 0x20) (fun t => t.img.state = .idle)))) ∧
        (1 ≤ fl.toNat → fl.toNat ≤ 256 → answers (.i3cFlashrd f fa fl) 0 (fun p => p = flashRead s fa.toNat fl.toNat) any) ∧
        (flashOpen s = false → answers (.i3cFlasherase f fa) 4 empty (fun t => t.rst = s.rst) ∧
          (data.length = 256 → answers (.i3cFlashwr f fa data) 4 empty (fun t => t.rst = s.rst))) ∧
        (flashOpen s = true → (fa.toNat % 256 = 0 → data.length = 256 → answers (.i3cFlashwr f fa data) 0 empty (fun t => flashRead t fa.toNat 256 = data)) ∧
          (fa.toNat % 65536 = 0 → answers (.i3cFlasherase f fa) 0 empty (fun t => ∀ i : Fin 65536, flashRead t (fa.toNat + i.val) 1 = [0xFF]))) ∧
        answers (.i3cReset f) 0 empty (fun t => t.io.resetPending = true ∧ t.rst = s.rst))) ∧
    (s.io.running = none → s.io.accHeld = none →
      (s.io.response = none → exec .i3cResponseRead s = .next s) ∧
      (s.io.response ≠ none → s.io.resetPending = false → exec .i3cResponseRead s = .next { s with io := { s.io with response := none, ibi := none } }) ∧
      (s.io.response ≠ none → s.io.resetPending = true → (s.rst.phase = .running ∨ s.rst.phase = .waiting) →
        ∃ t, exec .i3cResponseRead s = .next t ∧ t.rst.phase = .reset ∧ t.rst.src = 6)) ∧
    (s.io.resetPending = false → exec .i3cResetTimeout s = .next s) ∧
    (s.io.resetPending = true → (s.rst.phase = .running ∨ s.rst.phase = .waiting) → ∃ t, exec .i3cResetTimeout s = .next t ∧ t.rst.phase = .reset ∧ t.rst.src = 6)

/-- Registers: a store that is refused for its level, its address or its alignment changes nothing, one to a read-only or reserved offset of a block
is taken and changes nothing, and one to a stored field reads back clamped; the sensors show what was measured and its age (10 R274 to R276; 18 R479;
23 R566). -/
def Obligations.RegistersAct : Prop :=
  (∀ (addr : BitVec 48) (lvl : Level) (v : BitVec 64) (s : State),
    (atLeast lvl (regLevel addr.toNat true) = false → exec (.registerWrite addr lvl v) s = .next s) ∧
    (regFault s addr.toNat 8 true ≠ 0 → exec (.registerWrite addr lvl v) s = .next s) ∧
    (blockOf addr.toNat = none → exec (.registerWrite addr lvl v) s = .next s) ∧
    (∀ b off, atLeast lvl (regLevel addr.toNat true) = true → regFault s addr.toNat 8 true = 0 → blockOf addr.toNat = some (b, off) →
      (∀ site, b = .core site → off ≠ 0x818) → exec (.registerWrite addr lvl v) s = .next (blockWrite none lvl v s b off))) ∧
  (∀ (lvl : Level) (v : Word) (s : State) (n : Fin 8) (i : Fin 512) (w : Fin 16),
    grpRead (grpWrite (0x40 + 8 * n.val) lvl v s) (0x40 + 8 * n.val) = some v ∧ grpRead (grpWrite (0x80 + 8 * n.val) lvl v s) (0x80 + 8 * n.val) = some v ∧
    grpRead (grpWrite (0x1000 + 8 * i.val) lvl v s) (0x1000 + 8 * i.val) = some v ∧ grpWrite (0xC0 + 8 * n.val) lvl v s = s ∧
    (∃ r, grpRead (grpWrite (0x8100 + 16 * w.val) lvl v s) (0x8100 + 16 * w.val) = some r ∧ fld r 55 50 = clampNat 12 47 (fld v 55 50) ∧
      fld r 47 0 % 2 ^ fld r 55 50 = 0 ∧ fld r 63 62 = fld v 63 62)) ∧
  (∀ (vals : List (Nat × BitVec 32)) (s : State),
    (powered s = false → exec (.sensorRefresh vals) s = .next s) ∧
    (powered s = true → ∀ (h : Fin 8) (x : BitVec 32), vals = [(h.val, x)] → (getRail s h).vset ≠ 0 → ∃ t, exec (.sensorRefresh vals) s = .next t ∧
      mget t.io.sensors h (0, 0) = (x, s.aoc) ∧ (getRail t h).tj = x.setWidth 8 ∧ mget t.io.sensors 42 (0, 0) = (s.pwr.ballast.setWidth 32, s.aoc)))

/-! ### Two rules of a core -/

/-- Core reset clears local memory to zero and sets cs.lmslice.SIZE to 8, whoever orders it: here a debugger that may, at the core's own register
block (05 R139). -/
def Obligations.CoreResetClearsLocalMemory : Prop :=
  ∀ (addr : BitVec 48) (site : Site) (s : State), regionOf addr.toNat = .siteReg site 0 → windowServed s site = true → s.rst.phase ≠ .off →
    dbgMode s ≠ 0 → s.io.scanSel = none → s.io.accHeld = none →
    ∃ t, exec (.dbgaccCoreReset addr) s = .next t ∧ (∀ a, Memory.read (getCore t site).lm a = 0) ∧ (getCore t site).lmslice = 8

/-- A write to HOD_RCTLt changes HDR and LVL only while STATE = OFF and PEND = 0; at other times the fields keep their values (13 R339). -/
def Obligations.RingControlFrozen : Prop :=
  ∀ (site : Site) (t : Fin 4) (lvl : Level) (v : BitVec 64) (s : State), isCoreSite site.val = true → coreRuns s site.val = true →
    let r := getRing s site.val t
    ∃ u, exec (.hodRctlEn site t lvl v) s = .next u ∧
      ((r.ctl.gate ≠ .off ∨ r.ctl.pend = true) → (getRing u site.val t).hdr = r.hdr ∧ (getRing u site.val t).lvl = r.lvl) ∧
      (r.ctl.gate = .off → r.ctl.pend = false → (getRing u site.val t).hdr.toNat = min (fld v 39 25) 0x5FFF ∧
        levelCode (getRing u site.val t).lvl = min (min (fld v 17 16) 2) (levelCode lvl))
end

