-- ==== Sys2Proof/Laws/Dispatch.lean ====
section
/-! SUPPORT. What `exec` is for each command: the one meaning that its arm calls, so that no proof unfolds the dispatch. -/

namespace Sys2Proof.Laws

open Sys2Proof Sys2Proof.Machine

@[simp] theorem exec_add (c : Ctx) (d a b : Reg) (s : State) : exec (.add c d a b) s = execAdd c d a b s := rfl
@[simp] theorem exec_sub (c : Ctx) (d a b : Reg) (s : State) : exec (.sub c d a b) s = execSub c d a b s := rfl
@[simp] theorem exec_and (c : Ctx) (d a b : Reg) (s : State) : exec (.and c d a b) s = execAnd c d a b s := rfl
@[simp] theorem exec_or (c : Ctx) (d a b : Reg) (s : State) : exec (.or c d a b) s = execOr c d a b s := rfl
@[simp] theorem exec_xor (c : Ctx) (d a b : Reg) (s : State) : exec (.xor c d a b) s = execXor c d a b s := rfl
@[simp] theorem exec_andn (c : Ctx) (d a b : Reg) (s : State) : exec (.andn c d a b) s = execAndn c d a b s := rfl
@[simp] theorem exec_shl (c : Ctx) (d a b : Reg) (s : State) : exec (.shl c d a b) s = execShl c d a b s := rfl
@[simp] theorem exec_shr (c : Ctx) (d a b : Reg) (s : State) : exec (.shr c d a b) s = execShr c d a b s := rfl
@[simp] theorem exec_sar (c : Ctx) (d a b : Reg) (s : State) : exec (.sar c d a b) s = execSar c d a b s := rfl
@[simp] theorem exec_mul (c : Ctx) (d a b : Reg) (s : State) : exec (.mul c d a b) s = execMul c d a b s := rfl
@[simp] theorem exec_mulhs (c : Ctx) (d a b : Reg) (s : State) : exec (.mulhs c d a b) s = execMulhs c d a b s := rfl
@[simp] theorem exec_mulhu (c : Ctx) (d a b : Reg) (s : State) : exec (.mulhu c d a b) s = execMulhu c d a b s := rfl
@[simp] theorem exec_addi (c : Ctx) (d a : Reg) (imm : BitVec 24) (s : State) : exec (.addi c d a imm) s = execAddi c d a imm s := rfl
@[simp] theorem exec_andi (c : Ctx) (d a : Reg) (imm : BitVec 24) (s : State) : exec (.andi c d a imm) s = execAndi c d a imm s := rfl
@[simp] theorem exec_ori (c : Ctx) (d a : Reg) (imm : BitVec 24) (s : State) : exec (.ori c d a imm) s = execOri c d a imm s := rfl
@[simp] theorem exec_xori (c : Ctx) (d a : Reg) (imm : BitVec 24) (s : State) : exec (.xori c d a imm) s = execXori c d a imm s := rfl
@[simp] theorem exec_shli (c : Ctx) (d a : Reg) (n : BitVec 6) (s : State) : exec (.shli c d a n) s = execShli c d a n s := rfl
@[simp] theorem exec_shri (c : Ctx) (d a : Reg) (n : BitVec 6) (s : State) : exec (.shri c d a n) s = execShri c d a n s := rfl
@[simp] theorem exec_sari (c : Ctx) (d a : Reg) (n : BitVec 6) (s : State) : exec (.sari c d a n) s = execSari c d a n s := rfl
@[simp] theorem exec_mov (c : Ctx) (d a : Reg) (s : State) : exec (.mov c d a) s = execMov c d a s := rfl
@[simp] theorem exec_lil (c : Ctx) (d : Reg) (imm : BitVec 32) (s : State) : exec (.lil c d imm) s = execLil c d imm s := rfl
@[simp] theorem exec_lih (c : Ctx) (d : Reg) (imm : BitVec 32) (s : State) : exec (.lih c d imm) s = execLih c d imm s := rfl
@[simp] theorem exec_cmp (c : Ctx) (k : Cond) (pd : PReg) (a b : Reg) (s : State) : exec (.cmp c k pd a b) s = execCmp c k pd a b s := rfl
@[simp] theorem exec_cmpi (c : Ctx) (k : Cond) (pd : PReg) (a : Reg) (imm : BitVec 24) (s : State) :
    exec (.cmpi c k pd a imm) s = execCmpi c k pd a imm s := rfl
@[simp] theorem exec_bld (c : Ctx) (pd : PReg) (a : Reg) (u : BitVec 17) (s : State) : exec (.bld c pd a u) s = execBld c pd a u s := rfl
@[simp] theorem exec_bst (c : Ctx) (ps : PReg) (a : Reg) (u : BitVec 17) (s : State) : exec (.bst c ps a u) s = execBst c ps a u s := rfl
@[simp] theorem exec_bset (c : Ctx) (a : Reg) (u : BitVec 17) (s : State) : exec (.bset c a u) s = execBset c a u s := rfl
@[simp] theorem exec_bclr (c : Ctx) (a : Reg) (u : BitVec 17) (s : State) : exec (.bclr c a u) s = execBclr c a u s := rfl
@[simp] theorem exec_btgl (c : Ctx) (a : Reg) (u : BitVec 17) (s : State) : exec (.btgl c a u) s = execBtgl c a u s := rfl
@[simp] theorem exec_btas (c : Ctx) (pd : PReg) (a : Reg) (u : BitVec 17) (s : State) : exec (.btas c pd a u) s = execBtas c pd a u s := rfl
@[simp] theorem exec_btac (c : Ctx) (pd : PReg) (a : Reg) (u : BitVec 17) (s : State) : exec (.btac c pd a u) s = execBtac c pd a u s := rfl
@[simp] theorem exec_bcomb (c : Ctx) (op : LogicOp) (a : Reg) (offa : BitVec 9) (b : Reg) (offb : BitVec 9) (r : Reg) (offc : BitVec 9) (s : State) :
    exec (.bcomb c op a offa b offb r offc) s = execBcomb c op a offa b offb r offc s := rfl
@[simp] theorem exec_bldw (c : Ctx) (d a : Reg) (u : BitVec 11) (s : State) : exec (.bldw c d a u) s = execBldw c d a u s := rfl
@[simp] theorem exec_bstw (c : Ctx) (d a : Reg) (u : BitVec 11) (s : State) : exec (.bstw c d a u) s = execBstw c d a u s := rfl
@[simp] theorem exec_bitscan (c : Ctx) (d a : Reg) (u : BitVec 17) (b : Reg) (v : Bool) (units : Nat) (s : State) :
    exec (.bitscan c d a u b v units) s = execBitscan c d a u b v units s := rfl
@[simp] theorem exec_pand (c : Ctx) (pd p q : PReg) (na nb : Bool) (s : State) : exec (.pand c pd p q na nb) s = execPand c pd p q na nb s := rfl
@[simp] theorem exec_por (c : Ctx) (pd p q : PReg) (na nb : Bool) (s : State) : exec (.por c pd p q na nb) s = execPor c pd p q na nb s := rfl
@[simp] theorem exec_pxor (c : Ctx) (pd p q : PReg) (na nb : Bool) (s : State) : exec (.pxor c pd p q na nb) s = execPxor c pd p q na nb s := rfl
@[simp] theorem exec_pandn (c : Ctx) (pd p q : PReg) (na nb : Bool) (s : State) : exec (.pandn c pd p q na nb) s = execPandn c pd p q na nb s := rfl
@[simp] theorem exec_movpg (c : Ctx) (d : Reg) (s : State) : exec (.movpg c d) s = execMovpg c d s := rfl
@[simp] theorem exec_movgp (c : Ctx) (a : Reg) (s : State) : exec (.movgp c a) s = execMovgp c a s := rfl
@[simp] theorem exec_ld (c : Ctx) (lg : Fin 4) (d : Reg) (m : AMode) (s : State) : exec (.ld c lg d m) s = execLd c lg d m s := rfl
@[simp] theorem exec_ldu (c : Ctx) (lg : Fin 4) (d : Reg) (m : AMode) (s : State) : exec (.ldu c lg d m) s = execLdu c lg d m s := rfl
@[simp] theorem exec_st (c : Ctx) (lg : Fin 4) (d : Reg) (m : AMode) (s : State) : exec (.st c lg d m) s = execSt c lg d m s := rfl
@[simp] theorem exec_ldl (c : Ctx) (lg : Fin 4) (d : Reg) (m : AMode) (s : State) : exec (.ldl c lg d m) s = execLdl c lg d m s := rfl
@[simp] theorem exec_ldlu (c : Ctx) (lg : Fin 4) (d : Reg) (m : AMode) (s : State) : exec (.ldlu c lg d m) s = execLdlu c lg d m s := rfl
@[simp] theorem exec_stl (c : Ctx) (lg : Fin 4) (d : Reg) (m : AMode) (s : State) : exec (.stl c lg d m) s = execStl c lg d m s := rfl
@[simp] theorem exec_ldg (c : Ctx) (lg : Fin 4) (d : Reg) (m : AMode) (s : State) : exec (.ldg c lg d m) s = execLdg c lg d m s := rfl
@[simp] theorem exec_ldgu (c : Ctx) (lg : Fin 4) (d : Reg) (m : AMode) (s : State) : exec (.ldgu c lg d m) s = execLdgu c lg d m s := rfl
@[simp] theorem exec_stg (c : Ctx) (lg : Fin 4) (d : Reg) (m : AMode) (s : State) : exec (.stg c lg d m) s = execStg c lg d m s := rfl
@[simp] theorem exec_amo (c : Ctx) (wide : Bool) (op : Fin 10) (d a : Reg) (disp : BitVec 24) (b r : Reg) (s : State) :
    exec (.amo c wide op d a disp b r) s = execAmo c wide op d a disp b r s := rfl
@[simp] theorem exec_amog (c : Ctx) (wide : Bool) (op : Fin 10) (d a : Reg) (disp : BitVec 24) (b r : Reg) (s : State) :
    exec (.amog c wide op d a disp b r) s = execAmog c wide op d a disp b r s := rfl
@[simp] theorem exec_fenceLd (c : Ctx) (s : State) : exec (.fenceLd c) s = execFenceLd c s := rfl
@[simp] theorem exec_fenceSt (c : Ctx) (s : State) : exec (.fenceSt c) s = execFenceSt c s := rfl
@[simp] theorem exec_fenceAll (c : Ctx) (s : State) : exec (.fenceAll c) s = execFenceAll c s := rfl
@[simp] theorem exec_cinv (c : Ctx) (a : Reg) (disp : BitVec 24) (s : State) : exec (.cinv c a disp) s = execCinv c a disp s := rfl
@[simp] theorem exec_cwb (c : Ctx) (a : Reg) (disp : BitVec 24) (s : State) : exec (.cwb c a disp) s = execCwb c a disp s := rfl
@[simp] theorem exec_cflush (c : Ctx) (a : Reg) (disp : BitVec 24) (s : State) : exec (.cflush c a disp) s = execCflush c a disp s := rfl
@[simp] theorem exec_cinvall (c : Ctx) (s : State) : exec (.cinvall c) s = execCinvall c s := rfl
@[simp] theorem exec_cflushall (c : Ctx) (s : State) : exec (.cflushall c) s = execCflushall c s := rfl
@[simp] theorem exec_prefetch (c : Ctx) (a : Reg) (disp : BitVec 24) (s : State) : exec (.prefetch c a disp) s = execPrefetch c a disp s := rfl
@[simp] theorem exec_cwaylk (c : Ctx) (a : Reg) (s : State) : exec (.cwaylk c a) s = execCwaylk c a s := rfl
@[simp] theorem exec_iinv (c : Ctx) (a : Reg) (disp : BitVec 24) (s : State) : exec (.iinv c a disp) s = execIinv c a disp s := rfl
@[simp] theorem exec_iinvall (c : Ctx) (s : State) : exec (.iinvall c) s = execIinvall c s := rfl
@[simp] theorem exec_gather (c : Ctx) (lg : Fin 4) (d a b r : Reg) (units : Nat) (s : State) :
    exec (.gather c lg d a b r units) s = execGather c lg d a b r units s := rfl
@[simp] theorem exec_memfill (c : Ctx) (d a b : Reg) (units : Nat) (s : State) : exec (.memfill c d a b units) s = execMemfill c d a b units s := rfl
@[simp] theorem exec_vadd (c : Ctx) (f : VFields) (d a b : Reg) (s : State) : exec (.vadd c f d a b) s = execVadd c f d a b s := rfl
@[simp] theorem exec_vsub (c : Ctx) (f : VFields) (d a b : Reg) (s : State) : exec (.vsub c f d a b) s = execVsub c f d a b s := rfl
@[simp] theorem exec_vmul (c : Ctx) (f : VFields) (d a b : Reg) (s : State) : exec (.vmul c f d a b) s = execVmul c f d a b s := rfl
@[simp] theorem exec_vfma (c : Ctx) (f : VFields) (d a b r : Reg) (s : State) : exec (.vfma c f d a b r) s = execVfma c f d a b r s := rfl
@[simp] theorem exec_vmin (c : Ctx) (f : VFields) (d a b : Reg) (s : State) : exec (.vmin c f d a b) s = execVmin c f d a b s := rfl
@[simp] theorem exec_vmax (c : Ctx) (f : VFields) (d a b : Reg) (s : State) : exec (.vmax c f d a b) s = execVmax c f d a b s := rfl
@[simp] theorem exec_vabs (c : Ctx) (f : VFields) (d a : Reg) (s : State) : exec (.vabs c f d a) s = execVabs c f d a s := rfl
@[simp] theorem exec_vneg (c : Ctx) (f : VFields) (d a : Reg) (s : State) : exec (.vneg c f d a) s = execVneg c f d a s := rfl
@[simp] theorem exec_vand (c : Ctx) (f : VFields) (d a b : Reg) (s : State) : exec (.vand c f d a b) s = execVand c f d a b s := rfl
@[simp] theorem exec_vor (c : Ctx) (f : VFields) (d a b : Reg) (s : State) : exec (.vor c f d a b) s = execVor c f d a b s := rfl
@[simp] theorem exec_vxor (c : Ctx) (f : VFields) (d a b : Reg) (s : State) : exec (.vxor c f d a b) s = execVxor c f d a b s := rfl
@[simp] theorem exec_vshl (c : Ctx) (f : VFields) (d a : Reg) (imm : BitVec 15) (s : State) :
    exec (.vshl c f d a imm) s = execVshl c f d a imm s := rfl
@[simp] theorem exec_vshr (c : Ctx) (f : VFields) (d a : Reg) (imm : BitVec 15) (s : State) :
    exec (.vshr c f d a imm) s = execVshr c f d a imm s := rfl
@[simp] theorem exec_vcmp (c : Ctx) (f : VFields) (d a b : Reg) (imm : BitVec 15) (s : State) :
    exec (.vcmp c f d a b imm) s = execVcmp c f d a b imm s := rfl
@[simp] theorem exec_vsel (c : Ctx) (f : VFields) (d a b r : Reg) (s : State) : exec (.vsel c f d a b r) s = execVsel c f d a b r s := rfl
@[simp] theorem exec_vcvt (c : Ctx) (f : VFields) (d a r : Reg) (imm : BitVec 15) (s : State) :
    exec (.vcvt c f d a r imm) s = execVcvt c f d a r imm s := rfl
@[simp] theorem exec_vsplit (c : Ctx) (f : VFields) (d r a : Reg) (imm : BitVec 15) (s : State) :
    exec (.vsplit c f d r a imm) s = execVsplit c f d r a imm s := rfl
@[simp] theorem exec_vexp2 (c : Ctx) (f : VFields) (d a : Reg) (s : State) : exec (.vexp2 c f d a) s = execVexp2 c f d a s := rfl
@[simp] theorem exec_vrcp (c : Ctx) (f : VFields) (d a : Reg) (s : State) : exec (.vrcp c f d a) s = execVrcp c f d a s := rfl
@[simp] theorem exec_vrsq (c : Ctx) (f : VFields) (d a : Reg) (s : State) : exec (.vrsq c f d a) s = execVrsq c f d a s := rfl
@[simp] theorem exec_vsmax (c : Ctx) (f : VFields) (d a b : Reg) (imm : BitVec 15) (s : State) :
    exec (.vsmax c f d a b imm) s = execVsmax c f d a b imm s := rfl
@[simp] theorem exec_vssum (c : Ctx) (f : VFields) (d a b r : Reg) (imm : BitVec 15) (s : State) :
    exec (.vssum c f d a b r imm) s = execVssum c f d a b r imm s := rfl
@[simp] theorem exec_vexpr (c : Ctx) (f : VFields) (d a b : Reg) (imm : BitVec 15) (s : State) :
    exec (.vexpr c f d a b imm) s = execVexpr c f d a b imm s := rfl
@[simp] theorem exec_vrope (c : Ctx) (f : VFields) (d r a : Reg) (imm : BitVec 15) (s : State) :
    exec (.vrope c f d r a imm) s = execVrope c f d r a imm s := rfl
@[simp] theorem exec_vcmask (c : Ctx) (f : VFields) (d a b : Reg) (imm : BitVec 15) (s : State) :
    exec (.vcmask c f d a b imm) s = execVcmask c f d a b imm s := rfl
@[simp] theorem exec_vpmask (c : Ctx) (f : VFields) (d a b : Reg) (s : State) : exec (.vpmask c f d a b) s = execVpmask c f d a b s := rfl
@[simp] theorem exec_vperm (c : Ctx) (f : VFields) (d a b : Reg) (s : State) : exec (.vperm c f d a b) s = execVperm c f d a b s := rfl
@[simp] theorem exec_vbcast (c : Ctx) (f : VFields) (d a : Reg) (s : State) : exec (.vbcast c f d a) s = execVbcast c f d a s := rfl
@[simp] theorem exec_vredsum (c : Ctx) (f : VFields) (d a : Reg) (s : State) : exec (.vredsum c f d a) s = execVredsum c f d a s := rfl
@[simp] theorem exec_vredmax (c : Ctx) (f : VFields) (d a : Reg) (s : State) : exec (.vredmax c f d a) s = execVredmax c f d a s := rfl
@[simp] theorem exec_vmovg (c : Ctx) (f : VFields) (d a : Reg) (imm : BitVec 15) (s : State) :
    exec (.vmovg c f d a imm) s = execVmovg c f d a imm s := rfl
@[simp] theorem exec_vins (c : Ctx) (f : VFields) (d a : Reg) (imm : BitVec 15) (s : State) :
    exec (.vins c f d a imm) s = execVins c f d a imm s := rfl
@[simp] theorem exec_vld (c : Ctx) (d a : Reg) (imm : BitVec 15) (s : State) : exec (.vld c d a imm) s = execVld c d a imm s := rfl
@[simp] theorem exec_vst (c : Ctx) (d a : Reg) (imm : BitVec 15) (s : State) : exec (.vst c d a imm) s = execVst c d a imm s := rfl
@[simp] theorem exec_br (c : Ctx) (disp : BitVec 26) (s : State) : exec (.br c disp) s = execBr c disp s := rfl
@[simp] theorem exec_brr (c : Ctx) (a : Reg) (s : State) : exec (.brr c a) s = execBrr c a s := rfl
@[simp] theorem exec_call (c : Ctx) (disp : BitVec 26) (s : State) : exec (.call c disp) s = execCall c disp s := rfl
@[simp] theorem exec_callr (c : Ctx) (a : Reg) (s : State) : exec (.callr c a) s = execCallr c a s := rfl
@[simp] theorem exec_ret (c : Ctx) (s : State) : exec (.ret c) s = execRet c s := rfl
@[simp] theorem exec_wspill (c : Ctx) (s : State) : exec (.wspill c) s = execWspill c s := rfl
@[simp] theorem exec_tcfg (c : Ctx) (t : Fin 16) (a : Reg) (s : State) : exec (.tcfg c t a) s = execTcfg c t a s := rfl
@[simp] theorem exec_tld (c : Ctx) (t : Fin 16) (a b : Reg) (units : Nat) (s : State) : exec (.tld c t a b units) s = execTld c t a b units s := rfl
@[simp] theorem exec_tst (c : Ctx) (t : Fin 16) (a b : Reg) (units : Nat) (s : State) : exec (.tst c t a b units) s = execTst c t a b units s := rfl
@[simp] theorem exec_tlda (c : Ctx) (t : Fin 16) (a b : Reg) (fmt : BitVec 4) (units : Nat) (s : State) :
    exec (.tlda c t a b fmt units) s = execTlda c t a b fmt units s := rfl
@[simp] theorem exec_tsta (c : Ctx) (t : Fin 16) (a b : Reg) (fmt : BitVec 4) (rm : BitVec 2) (sat : Bool) (units : Nat) (s : State) :
    exec (.tsta c t a b fmt rm sat units) s = execTsta c t a b fmt rm sat units s := rfl
@[simp] theorem exec_tmma (c : Ctx) (t u w : Fin 16) (reua reub : Bool) (s : State) :
    exec (.tmma c t u w reua reub) s = execTmma c t u w reua reub s := rfl
@[simp] theorem exec_tscale (c : Ctx) (t : Fin 16) (a : Reg) (s : State) : exec (.tscale c t a) s = execTscale c t a s := rfl
@[simp] theorem exec_tzero (c : Ctx) (t : Fin 16) (s : State) : exec (.tzero c t) s = execTzero c t s := rfl
@[simp] theorem exec_tmova (c : Ctx) (a : Reg) (t : Fin 16) (b : Reg) (s : State) : exec (.tmova c a t b) s = execTmova c a t b s := rfl
@[simp] theorem exec_tmovv (c : Ctx) (t : Fin 16) (a b : Reg) (s : State) : exec (.tmovv c t a b) s = execTmovv c t a b s := rfl
@[simp] theorem exec_matrixOpBegin (site : Site) (s : State) : exec (.matrixOpBegin site) s = execMatrixOpBegin site s := rfl
@[simp] theorem exec_tmmaCommit (site : Site) (s : State) : exec (.tmmaCommit site) s = execTmmaCommit site s := rfl
@[simp] theorem exec_residueMismatch (site : Site) (m : Mismatch) (s : State) : exec (.residueMismatch site m) s = execResidueMismatch site m s := rfl
@[simp] theorem exec_csrr (c : Ctx) (d : Reg) (csr : BitVec 12) (s : State) : exec (.csrr c d csr) s = execCsrr c d csr s := rfl
@[simp] theorem exec_csrw (c : Ctx) (d : Reg) (csr : BitVec 12) (a : Reg) (s : State) : exec (.csrw c d csr a) s = execCsrw c d csr a s := rfl
@[simp] theorem exec_csrs (c : Ctx) (d : Reg) (csr : BitVec 12) (a : Reg) (s : State) : exec (.csrs c d csr a) s = execCsrs c d csr a s := rfl
@[simp] theorem exec_csrc (c : Ctx) (d : Reg) (csr : BitVec 12) (a : Reg) (s : State) : exec (.csrc c d csr a) s = execCsrc c d csr a s := rfl
@[simp] theorem exec_ropedataWrite (c : Ctx) (op : CsrOp) (d a : Reg) (s : State) :
    exec (.ropedataWrite c op d a) s = execRopedataWrite c op d a s := rfl
@[simp] theorem exec_chsbdatAccess (c : Ctx) (op : Option CsrOp) (d a : Reg) (s : State) :
    exec (.chsbdatAccess c op d a) s = execChsbdatAccess c op d a s := rfl
@[simp] theorem exec_wmsgRead (c : Ctx) (d : Reg) (s : State) : exec (.wmsgRead c d) s = execWmsgRead c d s := rfl
@[simp] theorem exec_chwaitWrite (c : Ctx) (d a : Reg) (s : State) : exec (.chwaitWrite c d a) s = execChwaitWrite c d a s := rfl
@[simp] theorem exec_tlbinvWrite (c : Ctx) (op : CsrOp) (d a : Reg) (s : State) : exec (.tlbinvWrite c op d a) s = execTlbinvWrite c op d a s := rfl
@[simp] theorem exec_lmsliceWrite (c : Ctx) (op : CsrOp) (d a : Reg) (s : State) :
    exec (.lmsliceWrite c op d a) s = execLmsliceWrite c op d a s := rfl
@[simp] theorem exec_tpendWrite (c : Ctx) (op : CsrOp) (n : Fin 2) (d a : Reg) (s : State) :
    exec (.tpendWrite c op n d a) s = execTpendWrite c op n d a s := rfl
@[simp] theorem exec_ccwdKick (c : Ctx) (op : CsrOp) (d a : Reg) (s : State) : exec (.ccwdKick c op d a) s = execCcwdKick c op d a s := rfl
@[simp] theorem exec_msgw (c : Ctx) (a : Reg) (off : BitVec 24) (s : State) : exec (.msgw c a off) s = execMsgw c a off s := rfl
@[simp] theorem exec_msgsendNonblocking (c : Ctx) (pd : PReg) (a : Reg) (len : Fin 16) (s : State) :
    exec (.msgsendNonblocking c pd a len) s = execMsgsendNonblocking c pd a len s := rfl
@[simp] theorem exec_msgsendBlocking (c : Ctx) (pd : PReg) (a : Reg) (len : Fin 16) (s : State) :
    exec (.msgsendBlocking c pd a len) s = execMsgsendBlocking c pd a len s := rfl
@[simp] theorem exec_lock (c : Ctx) (pd : PReg) (a : Reg) (s : State) : exec (.lock c pd a) s = execLock c pd a s := rfl
@[simp] theorem exec_unlock (c : Ctx) (a : Reg) (s : State) : exec (.unlock c a) s = execUnlock c a s := rfl
@[simp] theorem exec_bar (c : Ctx) (d a b : Reg) (s : State) : exec (.bar c d a b) s = execBar c d a b s := rfl
@[simp] theorem exec_bara (c : Ctx) (a b : Reg) (s : State) : exec (.bara c a b) s = execBara c a b s := rfl
@[simp] theorem exec_watch (c : Ctx) (d a b : Reg) (s : State) : exec (.watch c d a b) s = execWatch c d a b s := rfl
@[simp] theorem exec_unwatch (c : Ctx) (a : Reg) (s : State) : exec (.unwatch c a) s = execUnwatch c a s := rfl
@[simp] theorem exec_syncchk (c : Ctx) (d : Reg) (s : State) : exec (.syncchk c d) s = execSyncchk c d s := rfl
@[simp] theorem exec_hodpost (c : Ctx) (a : Reg) (s : State) : exec (.hodpost c a) s = execHodpost c a s := rfl
@[simp] theorem exec_hodcred (c : Ctx) (a : Reg) (s : State) : exec (.hodcred c a) s = execHodcred c a s := rfl
@[simp] theorem exec_gate (c : Ctx) (n : BitVec 12) (s : State) : exec (.gate c n) s = execGate c n s := rfl
@[simp] theorem exec_retx (c : Ctx) (s : State) : exec (.retx c) s = execRetx c s := rfl
@[simp] theorem exec_wait (c : Ctx) (a : Reg) (s : State) : exec (.wait c a) s = execWait c a s := rfl
@[simp] theorem exec_waitPark (c : Ctx) (a : Reg) (s : State) : exec (.waitPark c a) s = execWaitPark c a s := rfl
@[simp] theorem exec_brk (c : Ctx) (tag : BitVec 24) (s : State) : exec (.brk c tag) s = execBrk c tag s := rfl
@[simp] theorem exec_eventInterrupt (site : Site) (thr : Fin 4) (s : State) : exec (.eventInterrupt site thr) s = execEventInterrupt site thr s := rfl
@[simp] theorem exec_impreciseFaultTaken (site : Site) (thr : Fin 4) (s : State) :
    exec (.impreciseFaultTaken site thr) s = execImpreciseFaultTaken site thr s := rfl
@[simp] theorem exec_idleDeadlock (site : Site) (s : State) : exec (.idleDeadlock site) s = execIdleDeadlock site s := rfl
@[simp] theorem exec_threadStart (site : Site) (thr : Fin 4) (s : State) : exec (.threadStart site thr) s = execThreadStart site thr s := rfl
@[simp] theorem exec_remoteResultReturn (pkt : Nat) (s : State) : exec (.remoteResultReturn pkt) s = execRemoteResultReturn pkt s := rfl
@[simp] theorem exec_storeAck (pkt : Nat) (s : State) : exec (.storeAck pkt) s = execStoreAck pkt s := rfl
@[simp] theorem exec_icacheLineFill (pkt : Nat) (s : State) : exec (.icacheLineFill pkt) s = execIcacheLineFill pkt s := rfl
@[simp] theorem exec_unreachableReply (pkt : Nat) (s : State) : exec (.unreachableReply pkt) s = execUnreachableReply pkt s := rfl
@[simp] theorem exec_strbusyReply (pkt : Nat) (s : State) : exec (.strbusyReply pkt) s = execStrbusyReply pkt s := rfl
@[simp] theorem exec_strbusyResend (site : Site) (pkt : Nat) (s : State) : exec (.strbusyResend site pkt) s = execStrbusyResend site pkt s := rfl
@[simp] theorem exec_meshAccessArrival (arr : Arrival) (s : State) : exec (.meshAccessArrival arr) s = execMeshAccessArrival arr s := rfl
@[simp] theorem exec_coreEvsetStore (site : Site) (thr : Fin 4) (lvl : Level) (bits : BitVec 32) (s : State) :
    exec (.coreEvsetStore site thr lvl bits) s = execCoreEvsetStore site thr lvl bits s := rfl
@[simp] theorem exec_lockRequestArrival (pkt : Nat) (s : State) : exec (.lockRequestArrival pkt) s = execLockRequestArrival pkt s := rfl
@[simp] theorem exec_lockRetry (site : Site) (thr : Fin 4) (s : State) : exec (.lockRetry site thr) s = execLockRetry site thr s := rfl
@[simp] theorem exec_unlockArrival (pkt : Nat) (s : State) : exec (.unlockArrival pkt) s = execUnlockArrival pkt s := rfl
@[simp] theorem exec_lockGrantArrival (pkt : Nat) (s : State) : exec (.lockGrantArrival pkt) s = execLockGrantArrival pkt s := rfl
@[simp] theorem exec_ownerResetNotice (pkt : Nat) (s : State) : exec (.ownerResetNotice pkt) s = execOwnerResetNotice pkt s := rfl
@[simp] theorem exec_synBcfgWrite (cluster : Fin 128) (bar : Fin 64) (v : BitVec 64) (s : State) :
    exec (.synBcfgWrite cluster bar v) s = execSynBcfgWrite cluster bar v s := rfl
@[simp] theorem exec_barrierAbort (cluster : Fin 128) (bar : Fin 64) (s : State) :
    exec (.barrierAbort cluster bar) s = execBarrierAbort cluster bar s := rfl
@[simp] theorem exec_barrierArrival (pkt : Nat) (s : State) : exec (.barrierArrival pkt) s = execBarrierArrival pkt s := rfl
@[simp] theorem exec_combinedArrival (pkt : Nat) (s : State) : exec (.combinedArrival pkt) s = execCombinedArrival pkt s := rfl
@[simp] theorem exec_deviceArrival (pkt : Nat) (s : State) : exec (.deviceArrival pkt) s = execDeviceArrival pkt s := rfl
@[simp] theorem exec_releaseCopyArrival (pkt : Nat) (s : State) : exec (.releaseCopyArrival pkt) s = execReleaseCopyArrival pkt s := rfl
@[simp] theorem exec_releaseNotice (pkt : Nat) (s : State) : exec (.releaseNotice pkt) s = execReleaseNotice pkt s := rfl
@[simp] theorem exec_unitLostNotice (pkt : Nat) (s : State) : exec (.unitLostNotice pkt) s = execUnitLostNotice pkt s := rfl
@[simp] theorem exec_watchRegistration (pkt : Nat) (s : State) : exec (.watchRegistration pkt) s = execWatchRegistration pkt s := rfl
@[simp] theorem exec_wordWatchMatch (pkt : Nat) (s : State) : exec (.wordWatchMatch pkt) s = execWordWatchMatch pkt s := rfl
@[simp] theorem exec_watchTimeout (cluster : Fin 128) (entry : Fin 256) (s : State) :
    exec (.watchTimeout cluster entry) s = execWatchTimeout cluster entry s := rfl
@[simp] theorem exec_unwatchArrival (pkt : Nat) (s : State) : exec (.unwatchArrival pkt) s = execUnwatchArrival pkt s := rfl
@[simp] theorem exec_watchMessageArrival (pkt : Nat) (s : State) : exec (.watchMessageArrival pkt) s = execWatchMessageArrival pkt s := rfl
@[simp] theorem exec_paceTick (cluster : Fin 128) (s : State) : exec (.paceTick cluster) s = execPaceTick cluster s := rfl
@[simp] theorem exec_paceRatioUpdate (cluster : Fin 128) (s : State) : exec (.paceRatioUpdate cluster) s = execPaceRatioUpdate cluster s := rfl
@[simp] theorem exec_paceRateUpdate (h : Fin 8) (rate : BitVec 16) (s : State) : exec (.paceRateUpdate h rate) s = execPaceRateUpdate h rate s := rfl
@[simp] theorem exec_topPaceClr (h : Fin 8) (s : State) : exec (.topPaceClr h) s = execTopPaceClr h s := rfl
@[simp] theorem exec_hbmRequest (pkt : Nat) (flaws : List (Nat × Bool)) (s : State) :
    exec (.hbmRequest pkt flaws) s = execHbmRequest pkt flaws s := rfl
@[simp] theorem exec_hbmRetirePage (node : Fin 96) (addr : BitVec 48) (s : State) :
    exec (.hbmRetirePage node addr) s = execHbmRetirePage node addr s := rfl
@[simp] theorem exec_hbmRetirePc (node : Fin 96) (addr : BitVec 48) (s : State) : exec (.hbmRetirePc node addr) s = execHbmRetirePc node addr s := rfl
@[simp] theorem exec_pcMigrationEnd (node : Fin 96) (s : State) : exec (.pcMigrationEnd node) s = execPcMigrationEnd node s := rfl
@[simp] theorem exec_pcSwitch (node : Fin 96) (pc : Fin 8) (s : State) : exec (.pcSwitch node pc) s = execPcSwitch node pc s := rfl
@[simp] theorem exec_hbmScrubRow (node : Fin 96) (flaws : List (Nat × Bool)) (s : State) :
    exec (.hbmScrubRow node flaws) s = execHbmScrubRow node flaws s := rfl
@[simp] theorem exec_stackTempCheck (node : Fin 96) (temp : BitVec 8) (s : State) :
    exec (.stackTempCheck node temp) s = execStackTempCheck node temp s := rfl
@[simp] theorem exec_hbmEccClr (node : Fin 96) (s : State) : exec (.hbmEccClr node) s = execHbmEccClr node s := rfl
@[simp] theorem exec_gruPool (pkt : Nat) (s : State) : exec (.gruPool pkt) s = execGruPool pkt s := rfl
@[simp] theorem exec_gruScatter (pkt : Nat) (s : State) : exec (.gruScatter pkt) s = execGruScatter pkt s := rfl
@[simp] theorem exec_gruRequestDone (node : Fin 96) (s : State) : exec (.gruRequestDone node) s = execGruRequestDone node s := rfl
@[simp] theorem exec_gruCtlEn (node : Fin 96) (en : Bool) (s : State) : exec (.gruCtlEn node en) s = execGruCtlEn node en s := rfl
@[simp] theorem exec_gruDrainComplete (node : Fin 96) (s : State) : exec (.gruDrainComplete node) s = execGruDrainComplete node s := rfl
@[simp] theorem exec_packetRoute (pkt : Nat) (router : Site) (s : State) :
    exec (.packetRoute pkt router) s = execPacketRoute pkt router s := rfl
@[simp] theorem exec_streamDelivery (pkt : Nat) (s : State) : exec (.streamDelivery pkt) s = execStreamDelivery pkt s := rfl
@[simp] theorem exec_streamResetNotice (pkt : Nat) (s : State) : exec (.streamResetNotice pkt) s = execStreamResetNotice pkt s := rfl
@[simp] theorem exec_meshFlitCrcError (site : Site) (port : Fin 8) (replay : Bool) (s : State) :
    exec (.meshFlitCrcError site port replay) s = execMeshFlitCrcError site port replay s := rfl
@[simp] theorem exec_injectionRateRecover (site : Site) (s : State) : exec (.injectionRateRecover site) s = execInjectionRateRecover site s := rfl
@[simp] theorem exec_mshCtlEn (site : Site) (en : Bool) (s : State) : exec (.mshCtlEn site en) s = execMshCtlEn site en s := rfl
@[simp] theorem exec_injectionGateQuiet (site : Site) (s : State) : exec (.injectionGateQuiet site) s = execInjectionGateQuiet site s := rfl
@[simp] theorem exec_mshErrClr (site : Site) (s : State) : exec (.mshErrClr site) s = execMshErrClr site s := rfl
@[simp] theorem exec_hodRctlEn (site : Site) (ring : Fin 4) (lvl : Level) (v : BitVec 64) (s : State) :
    exec (.hodRctlEn site ring lvl v) s = execHodRctlEn site ring lvl v s := rfl
@[simp] theorem exec_hodRingDrainComplete (site : Site) (ring : Fin 4) (s : State) :
    exec (.hodRingDrainComplete site ring) s = execHodRingDrainComplete site ring s := rfl
@[simp] theorem exec_hodDescriptorCheck (site : Site) (ring : Fin 4) (s : State) :
    exec (.hodDescriptorCheck site ring) s = execHodDescriptorCheck site ring s := rfl
@[simp] theorem exec_hodDescriptorBegin (site : Site) (ring : Fin 4) (s : State) :
    exec (.hodDescriptorBegin site ring) s = execHodDescriptorBegin site ring s := rfl
@[simp] theorem exec_hodReadData (pkt : Nat) (s : State) : exec (.hodReadData pkt) s = execHodReadData pkt s := rfl
@[simp] theorem exec_hodWriteAck (pkt : Nat) (s : State) : exec (.hodWriteAck pkt) s = execHodWriteAck pkt s := rfl
@[simp] theorem exec_hodReadback (pkt : Nat) (s : State) : exec (.hodReadback pkt) s = execHodReadback pkt s := rfl
@[simp] theorem exec_hodGruStatus (pkt : Nat) (s : State) : exec (.hodGruStatus pkt) s = execHodGruStatus pkt s := rfl
@[simp] theorem exec_hodCompletion (site : Site) (ring : Fin 4) (s : State) : exec (.hodCompletion site ring) s = execHodCompletion site ring s := rfl
@[simp] theorem exec_chnEpctlEn (site : Site) (x : Fin 16) (v : BitVec 64) (s : State) :
    exec (.chnEpctlEn site x v) s = execChnEpctlEn site x v s := rfl
@[simp] theorem exec_chnEndpointDrainComplete (site : Site) (x : Fin 16) (s : State) :
    exec (.chnEndpointDrainComplete site x) s = execChnEndpointDrainComplete site x s := rfl
@[simp] theorem exec_tokenCancel (site : Site) (e : Fin 8) (tok : Fin 64) (s : State) :
    exec (.tokenCancel site e tok) s = execTokenCancel site e tok s := rfl
@[simp] theorem exec_requestMessageArrival (pkt : Nat) (s : State) : exec (.requestMessageArrival pkt) s = execRequestMessageArrival pkt s := rfl
@[simp] theorem exec_replyMessageArrival (pkt : Nat) (s : State) : exec (.replyMessageArrival pkt) s = execReplyMessageArrival pkt s := rfl
@[simp] theorem exec_msgAckArrival (pkt : Nat) (s : State) : exec (.msgAckArrival pkt) s = execMsgAckArrival pkt s := rfl
@[simp] theorem exec_msgNackArrival (pkt : Nat) (s : State) : exec (.msgNackArrival pkt) s = execMsgNackArrival pkt s := rfl
@[simp] theorem exec_blockingSendRetry (site : Site) (thr : Fin 4) (s : State) :
    exec (.blockingSendRetry site thr) s = execBlockingSendRetry site thr s := rfl
@[simp] theorem exec_lnkCtlEn (port : Fin 16) (v : BitVec 64) (s : State) : exec (.lnkCtlEn port v) s = execLnkCtlEn port v s := rfl
@[simp] theorem exec_lnkSleepRequest (port : Fin 16) (sleep : Bool) (s : State) :
    exec (.lnkSleepRequest port sleep) s = execLnkSleepRequest port sleep s := rfl
@[simp] theorem exec_lnkFecClr (port : Fin 16) (s : State) : exec (.lnkFecClr port) s = execLnkFecClr port s := rfl
@[simp] theorem exec_lnkErrClr (port : Fin 16) (s : State) : exec (.lnkErrClr port) s = execLnkErrClr port s := rfl
@[simp] theorem exec_controlLaneLock (port : Fin 16) (s : State) : exec (.controlLaneLock port) s = execControlLaneLock port s := rfl
@[simp] theorem exec_controlLockLoss (port : Fin 16) (s : State) : exec (.controlLockLoss port) s = execControlLockLoss port s := rfl
@[simp] theorem exec_linkStateTimeout (port : Fin 16) (s : State) : exec (.linkStateTimeout port) s = execLinkStateTimeout port s := rfl
@[simp] theorem exec_lmMeas (port : Fin 16) (pair : Fin 10) (probe : BitVec 8) (s : State) :
    exec (.lmMeas port pair probe) s = execLmMeas port pair probe s := rfl
@[simp] theorem exec_lmMeasr (port : Fin 16) (pair : Fin 10) (echo : Echo) (s : State) :
    exec (.lmMeasr port pair echo) s = execLmMeasr port pair echo s := rfl
@[simp] theorem exec_lmCap (port : Fin 16) (body : BitVec 384) (s : State) : exec (.lmCap port body) s = execLmCap port body s := rfl
@[simp] theorem exec_lmCapack (port : Fin 16) (s : State) : exec (.lmCapack port) s = execLmCapack port s := rfl
@[simp] theorem exec_dtrainDone (port : Fin 16) (lanes : List (Option (Fin 9))) (s : State) : exec (.dtrainDone port lanes) s = execDtrainDone port lanes s := rfl
@[simp] theorem exec_dcheckDone (port : Fin 16) (s : State) : exec (.dcheckDone port) s = execDcheckDone port s := rfl
@[simp] theorem exec_dataFlitArrival (port : Fin 16) (flit : BitVec 2048) (fecBad : Bool) (s : State) :
    exec (.dataFlitArrival port flit fecBad) s = execDataFlitArrival port flit fecBad s := rfl
@[simp] theorem exec_controlFlitArrival (port : Fin 16) (flit : BitVec 512) (s : State) :
    exec (.controlFlitArrival port flit) s = execControlFlitArrival port flit s := rfl
@[simp] theorem exec_linkNak (port : Fin 16) (ctrl : Bool) (last : BitVec 16) (s : State) :
    exec (.linkNak port ctrl last) s = execLinkNak port ctrl last s := rfl
@[simp] theorem exec_replayTimeout (port : Fin 16) (ctrl : Bool) (s : State) :
    exec (.replayTimeout port ctrl) s = execReplayTimeout port ctrl s := rfl
@[simp] theorem exec_recoverDiscardTimeout (port : Fin 16) (s : State) :
    exec (.recoverDiscardTimeout port) s = execRecoverDiscardTimeout port s := rfl
@[simp] theorem exec_dataLaneFailure (port : Fin 16) (lane : Fin 8) (period : BitVec 32) (s : State) :
    exec (.dataLaneFailure port lane period) s = execDataLaneFailure port lane period s := rfl
@[simp] theorem exec_lmSpare (port : Fin 16) (lane : Fin 8) (period : BitVec 32) (s : State) :
    exec (.lmSpare port lane period) s = execLmSpare port lane period s := rfl
@[simp] theorem exec_lmSpareack (port : Fin 16) (period : BitVec 32) (s : State) :
    exec (.lmSpareack port period) s = execLmSpareack port period s := rfl
@[simp] theorem exec_lmPwr (port : Fin 16) (sleep : Bool) (s : State) : exec (.lmPwr port sleep) s = execLmPwr port sleep s := rfl
@[simp] theorem exec_lmPwrack (port : Fin 16) (accept : Bool) (s : State) : exec (.lmPwrack port accept) s = execLmPwrack port accept s := rfl
@[simp] theorem exec_lmRetrain (port : Fin 16) (s : State) : exec (.lmRetrain port) s = execLmRetrain port s := rfl
@[simp] theorem exec_lmDown (port : Fin 16) (s : State) : exec (.lmDown port) s = execLmDown port s := rfl
@[simp] theorem exec_portDrainTimeout (port : Fin 16) (s : State) : exec (.portDrainTimeout port) s = execPortDrainTimeout port s := rfl
@[simp] theorem exec_collGo (t : Fin 4) (desc : BitVec 48) (s : State) : exec (.collGo t desc) s = execCollGo t desc s := rfl
@[simp] theorem exec_collAbort (t : Fin 4) (s : State) : exec (.collAbort t) s = execCollAbort t s := rfl
@[simp] theorem exec_collUpArrival (pkt : Nat) (s : State) : exec (.collUpArrival pkt) s = execCollUpArrival pkt s := rfl
@[simp] theorem exec_collDownArrival (pkt : Nat) (s : State) : exec (.collDownArrival pkt) s = execCollDownArrival pkt s := rfl
@[simp] theorem exec_collDstWriteAck (t : Fin 4) (chunk : Nat) (s : State) : exec (.collDstWriteAck t chunk) s = execCollDstWriteAck t chunk s := rfl
@[simp] theorem exec_grpHctlEn (lvl : Level) (v : BitVec 64) (s : State) : exec (.grpHctlEn lvl v) s = execGrpHctlEn lvl v s := rfl
@[simp] theorem exec_bridgeDrainComplete (s : State) : exec (.bridgeDrainComplete) s = execBridgeDrainComplete s := rfl
@[simp] theorem exec_grpHintStore (v : BitVec 64) (s : State) : exec (.grpHintStore v) s = execGrpHintStore v s := rfl
@[simp] theorem exec_grpStatClr (s : State) : exec (.grpStatClr) s = execGrpStatClr s := rfl
@[simp] theorem exec_grpHstatClr (s : State) : exec (.grpHstatClr) s = execGrpHstatClr s := rfl
@[simp] theorem exec_hctlDbell (dev : BitVec 9) (site : BitVec 11) (thr : Fin 4) (bits : BitVec 32) (s : State) :
    exec (.hctlDbell dev site thr bits) s = execHctlDbell dev site thr bits s := rfl
@[simp] theorem exec_hctlRegrd (off : BitVec 16) (tag : BitVec 32) (s : State) : exec (.hctlRegrd off tag) s = execHctlRegrd off tag s := rfl
@[simp] theorem exec_hctlRegwr (off : BitVec 16) (tag : BitVec 32) (v : BitVec 64) (s : State) :
    exec (.hctlRegwr off tag v) s = execHctlRegwr off tag v s := rfl
@[simp] theorem exec_hctlSreset (dev : BitVec 9) (site : BitVec 11) (strm : BitVec 4) (s : State) :
    exec (.hctlSreset dev site strm) s = execHctlSreset dev site strm s := rfl
@[simp] theorem exec_errfwdArrival (record : BitVec 512) (s : State) : exec (.errfwdArrival record) s = execErrfwdArrival record s := rfl
@[simp] theorem exec_imgLoad (s : State) : exec (.imgLoad) s = execImgLoad s := rfl
@[simp] theorem exec_imgDrain (s : State) : exec (.imgDrain) s = execImgDrain s := rfl
@[simp] theorem exec_imgDrainComplete (s : State) : exec (.imgDrainComplete) s = execImgDrainComplete s := rfl
@[simp] theorem exec_imgDrainTimeout (s : State) : exec (.imgDrainTimeout) s = execImgDrainTimeout s := rfl
@[simp] theorem exec_imgApply (s : State) : exec (.imgApply) s = execImgApply s := rfl
@[simp] theorem exec_imgUndrain (s : State) : exec (.imgUndrain) s = execImgUndrain s := rfl
@[simp] theorem exec_imgRun (s : State) : exec (.imgRun) s = execImgRun s := rfl
@[simp] theorem exec_imgAbort (s : State) : exec (.imgAbort) s = execImgAbort s := rfl
@[simp] theorem exec_imgdata (sdev : BitVec 9) (off : BitVec 48) (data : List Byte) (s : State) :
    exec (.imgdata sdev off data) s = execImgdata sdev off data s := rfl
@[simp] theorem exec_imgcmd (sdev : BitVec 9) (cmd : BitVec 8) (serial : BitVec 64) (s : State) :
    exec (.imgcmd sdev cmd serial) s = execImgcmd sdev cmd serial s := rfl
@[simp] theorem exec_errorRecordArrival (n : Nat) (s : State) : exec (.errorRecordArrival n) s = execErrorRecordArrival n s := rfl
@[simp] theorem exec_healthViewCompare (s : State) : exec (.healthViewCompare) s = execHealthViewCompare s := rfl
@[simp] theorem exec_responseTimeout (r : Requester) (s : State) : exec (.responseTimeout r) s = execResponseTimeout r s := rfl
@[simp] theorem exec_mgtErrqEnable (v : BitVec 64) (s : State) : exec (.mgtErrqEnable v) s = execMgtErrqEnable v s := rfl
@[simp] theorem exec_mgtErrconsClr (v : BitVec 64) (s : State) : exec (.mgtErrconsClr v) s = execMgtErrconsClr v s := rfl
@[simp] theorem exec_fenceCore (site : Site) (s : State) : exec (.fenceCore site) s = execFenceCore site s := rfl
@[simp] theorem exec_fenceRouter (site : Site) (s : State) : exec (.fenceRouter site) s = execFenceRouter site s := rfl
@[simp] theorem exec_fenceNode (node : Fin 96) (s : State) : exec (.fenceNode node) s = execFenceNode node s := rfl
@[simp] theorem exec_fenceGru (node : Fin 96) (s : State) : exec (.fenceGru node) s = execFenceGru node s := rfl
@[simp] theorem exec_fencePort (port : Fin 16) (s : State) : exec (.fencePort port) s = execFencePort port s := rfl
@[simp] theorem exec_fenceSyncUnit (cluster : Fin 128) (s : State) : exec (.fenceSyncUnit cluster) s = execFenceSyncUnit cluster s := rfl
@[simp] theorem exec_fenceCollEngine (t : Fin 4) (s : State) : exec (.fenceCollEngine t) s = execFenceCollEngine t s := rfl
@[simp] theorem exec_lcadv (fuses : FuseEnd) (s : State) : exec (.lcadv fuses) s = execLcadv fuses s := rfl
@[simp] theorem exec_genid (fuses : FuseEnd) (s : State) : exec (.genid fuses) s = execGenid fuses s := rfl
@[simp] theorem exec_provision (addr : BitVec 48) (fuses : FuseEnd) (s : State) : exec (.provision addr fuses) s = execProvision addr fuses s := rfl
@[simp] theorem exec_returnDev (addr : BitVec 48) (fuses : FuseEnd) (s : State) : exec (.returnDev addr fuses) s = execReturnDev addr fuses s := rfl
@[simp] theorem exec_eol (fuses : FuseEnd) (s : State) : exec (.eol fuses) s = execEol fuses s := rfl
@[simp] theorem exec_advsvn (fuses : FuseEnd) (s : State) : exec (.advsvn fuses) s = execAdvsvn fuses s := rfl
@[simp] theorem exec_secAttest (run : AttestRun) (s : State) : exec (.secAttest run) s = execSecAttest run s := rfl
@[simp] theorem exec_kill (fuses : FuseEnd) (s : State) : exec (.kill fuses) s = execKill fuses s := rfl
@[simp] theorem exec_dbgChallenge (s : State) : exec (.dbgChallenge) s = execDbgChallenge s := rfl
@[simp] theorem exec_dbgUnlock (msg : BitVec 1032) (s : State) : exec (.dbgUnlock msg) s = execDbgUnlock msg s := rfl
@[simp] theorem exec_alarmVolt (s : State) : exec (.alarmVolt) s = execAlarmVolt s := rfl
@[simp] theorem exec_alarmTemp (s : State) : exec (.alarmTemp) s = execAlarmTemp s := rfl
@[simp] theorem exec_alarmTamper (s : State) : exec (.alarmTamper) s = execAlarmTamper s := rfl
@[simp] theorem exec_poweron (straps : BitVec 4) (s : State) : exec (.poweron straps) s = execPoweron straps s := rfl
@[simp] theorem exec_inputUndervoltage (s : State) : exec (.inputUndervoltage) s = execInputUndervoltage s := rfl
@[simp] theorem exec_inputWarning (s : State) : exec (.inputWarning) s = execInputWarning s := rfl
@[simp] theorem exec_railUndervoltage (rail : Fin 16) (s : State) : exec (.railUndervoltage rail) s = execRailUndervoltage rail s := rfl
@[simp] theorem exec_railWarning (rail : Fin 16) (s : State) : exec (.railWarning rail) s = execRailWarning rail s := rfl
@[simp] theorem exec_railGood (rail : Fin 16) (m : StartMeas) (s : State) : exec (.railGood rail m) s = execRailGood rail m s := rfl
@[simp] theorem exec_resetNLow (s : State) : exec (.resetNLow) s = execResetNLow s := rfl
@[simp] theorem exec_resetNGlitch (s : State) : exec (.resetNGlitch) s = execResetNGlitch s := rfl
@[simp] theorem exec_resetStretchEnd (m : StartMeas) (s : State) : exec (.resetStretchEnd m) s = execResetStretchEnd m s := rfl
@[simp] theorem exec_clockGood (group : Fin 3) (s : State) : exec (.clockGood group) s = execClockGood group s := rfl
@[simp] theorem exec_refclkFailure (s : State) : exec (.refclkFailure) s = execRefclkFailure s := rfl
@[simp] theorem exec_startBudgetExpiry (s : State) : exec (.startBudgetExpiry) s = execStartBudgetExpiry s := rfl
@[simp] theorem exec_swreset (s : State) : exec (.swreset) s = execSwreset s := rfl
@[simp] theorem exec_bootok (s : State) : exec (.bootok) s = execBootok s := rfl
@[simp] theorem exec_mkick (s : State) : exec (.mkick) s = execMkick s := rfl
@[simp] theorem exec_force (bits : BitVec 2) (s : State) : exec (.force bits) s = execForce bits s := rfl
@[simp] theorem exec_mgtWatchdogExpiry (s : State) : exec (.mgtWatchdogExpiry) s = execMgtWatchdogExpiry s := rfl
@[simp] theorem exec_ccWatchdogExpiry (cc : Fin 16) (s : State) : exec (.ccWatchdogExpiry cc) s = execCcWatchdogExpiry cc s := rfl
@[simp] theorem exec_thermalTrip (s : State) : exec (.thermalTrip) s = execThermalTrip s := rfl
@[simp] theorem exec_throttleStart (h : Fin 8) (tj : BitVec 8) (s : State) : exec (.throttleStart h tj) s = execThrottleStart h tj s := rfl
@[simp] theorem exec_throttleTick (h : Fin 8) (tj : BitVec 8) (s : State) : exec (.throttleTick h tj) s = execThrottleTick h tj s := rfl
@[simp] theorem exec_throttleEnd (h : Fin 8) (tj : BitVec 8) (s : State) : exec (.throttleEnd h tj) s = execThrottleEnd h tj s := rfl
@[simp] theorem exec_powerWindow (draw vin : BitVec 16) (s : State) : exec (.powerWindow draw vin) s = execPowerWindow draw vin s := rfl
@[simp] theorem exec_kilnGo (issuer : Option Site) (kind : BitVec 4) (inst : BitVec 12) (s : State) :
    exec (.kilnGo issuer kind inst) s = execKilnGo issuer kind inst s := rfl
@[simp] theorem exec_kilnSliceDone (r : SliceResult) (s : State) : exec (.kilnSliceDone r) s = execKilnSliceDone r s := rfl
@[simp] theorem exec_kilnBudgetExpiry (s : State) : exec (.kilnBudgetExpiry) s = execKilnBudgetExpiry s := rfl
@[simp] theorem exec_dbgHalt (site : Site) (mask : BitVec 4) (s : State) : exec (.dbgHalt site mask) s = execDbgHalt site mask s := rfl
@[simp] theorem exec_haltTaken (site : Site) (thr : Fin 4) (s : State) : exec (.haltTaken site thr) s = execHaltTaken site thr s := rfl
@[simp] theorem exec_dbgResume (site : Site) (mask : BitVec 4) (s : State) : exec (.dbgResume site mask) s = execDbgResume site mask s := rfl
@[simp] theorem exec_dbgStep (site : Site) (mask : BitVec 4) (s : State) : exec (.dbgStep site mask) s = execDbgStep site mask s := rfl
@[simp] theorem exec_dbgDiscsb (site : Site) (mask : BitVec 4) (s : State) : exec (.dbgDiscsb site mask) s = execDbgDiscsb site mask s := rfl
@[simp] theorem exec_dbgdataAccess (site : Site) (w : Option (BitVec 64)) (s : State) :
    exec (.dbgdataAccess site w) s = execDbgdataAccess site w s := rfl
@[simp] theorem exec_jtagIdcode (s : State) : exec (.jtagIdcode) s = execJtagIdcode s := rfl
@[simp] theorem exec_jtagSamplePreload (lands : BitVec 40) (s : State) : exec (.jtagSamplePreload lands) s = execJtagSamplePreload lands s := rfl
@[simp] theorem exec_jtagExtest (drive : BitVec 40) (s : State) : exec (.jtagExtest drive) s = execJtagExtest drive s := rfl
@[simp] theorem exec_jtagBypass (s : State) : exec (.jtagBypass) s = execJtagBypass s := rfl
@[simp] theorem exec_dbgaccRead (addr : BitVec 48) (s : State) : exec (.dbgaccRead addr) s = execDbgaccRead addr s := rfl
@[simp] theorem exec_dbgaccWrite (addr : BitVec 48) (v : BitVec 64) (s : State) : exec (.dbgaccWrite addr v) s = execDbgaccWrite addr v s := rfl
@[simp] theorem exec_dbgaccDebugReset (s : State) : exec (.dbgaccDebugReset) s = execDbgaccDebugReset s := rfl
@[simp] theorem exec_dbgaccCoreReset (addr : BitVec 48) (s : State) : exec (.dbgaccCoreReset addr) s = execDbgaccCoreReset addr s := rfl
@[simp] theorem exec_otpprog (image : BitVec 512) (key : BitVec 32) (s : State) : exec (.otpprog image key) s = execOtpprog image key s := rfl
@[simp] theorem exec_scansel (chain : Fin 8) (s : State) : exec (.scansel chain) s = execScansel chain s := rfl
@[simp] theorem exec_i3cIdent (f : Frame) (s : State) : exec (.i3cIdent f) s = execI3cIdent f s := rfl
@[simp] theorem exec_i3cSensor (f : Frame) (first count : BitVec 8) (s : State) :
    exec (.i3cSensor f first count) s = execI3cSensor f first count s := rfl
@[simp] theorem exec_i3cRegrd (f : Frame) (addr : BitVec 64) (s : State) : exec (.i3cRegrd f addr) s = execI3cRegrd f addr s := rfl
@[simp] theorem exec_i3cRegwr (f : Frame) (addr : BitVec 64) (v : BitVec 64) (s : State) :
    exec (.i3cRegwr f addr v) s = execI3cRegwr f addr v s := rfl
@[simp] theorem exec_i3cAttest (f : Frame) (nonce : BitVec 256) (s : State) : exec (.i3cAttest f nonce) s = execI3cAttest f nonce s := rfl
@[simp] theorem exec_i3cStage (f : Frame) (off : BitVec 64) (data : List Byte) (s : State) :
    exec (.i3cStage f off data) s = execI3cStage f off data s := rfl
@[simp] theorem exec_i3cImgcmd (f : Frame) (cmd : BitVec 8) (serial : BitVec 64) (s : State) :
    exec (.i3cImgcmd f cmd serial) s = execI3cImgcmd f cmd serial s := rfl
@[simp] theorem exec_i3cFlashrd (f : Frame) (addr : BitVec 32) (len : BitVec 16) (s : State) :
    exec (.i3cFlashrd f addr len) s = execI3cFlashrd f addr len s := rfl
@[simp] theorem exec_i3cFlashwr (f : Frame) (addr : BitVec 32) (data : List Byte) (s : State) :
    exec (.i3cFlashwr f addr data) s = execI3cFlashwr f addr data s := rfl
@[simp] theorem exec_i3cFlasherase (f : Frame) (addr : BitVec 32) (s : State) : exec (.i3cFlasherase f addr) s = execI3cFlasherase f addr s := rfl
@[simp] theorem exec_i3cReset (f : Frame) (s : State) : exec (.i3cReset f) s = execI3cReset f s := rfl
@[simp] theorem exec_i3cResponseRead (s : State) : exec (.i3cResponseRead) s = execI3cResponseRead s := rfl
@[simp] theorem exec_i3cResetTimeout (s : State) : exec (.i3cResetTimeout) s = execI3cResetTimeout s := rfl
@[simp] theorem exec_sensorRefresh (vals : List (Nat × BitVec 32)) (s : State) : exec (.sensorRefresh vals) s = execSensorRefresh vals s := rfl
@[simp] theorem exec_coreTrcctlEnable (site : Site) (v : BitVec 64) (s : State) :
    exec (.coreTrcctlEnable site v) s = execCoreTrcctlEnable site v s := rfl
@[simp] theorem exec_registerWrite (addr : BitVec 48) (lvl : Level) (v : BitVec 64) (s : State) :
    exec (.registerWrite addr lvl v) s = execRegisterWrite addr lvl v s := rfl
@[simp] theorem exec_spareLaneFailure (port : Fin 16) (s : State) : exec (.spareLaneFailure port) s = execSpareLaneFailure port s := rfl
@[simp] theorem exec_lmRequestRepeat (port : Fin 16) (n : Nat) (s : State) : exec (.lmRequestRepeat port n) s = execLmRequestRepeat port n s := rfl
@[simp] theorem exec_railRecovery (rail : Fin 16) (s : State) : exec (.railRecovery rail) s = execRailRecovery rail s := rfl
@[simp] theorem exec_resetSourceEnd (code : BitVec 8) (s : State) : exec (.resetSourceEnd code) s = execResetSourceEnd code s := rfl
@[simp] theorem exec_coreResetEnd (site : Site) (s : State) : exec (.coreResetEnd site) s = execCoreResetEnd site s := rfl
@[simp] theorem exec_mgtRestartDone (s : State) : exec (.mgtRestartDone) s = execMgtRestartDone s := rfl
@[simp] theorem exec_imgrptArrival (dev : BitVec 9) (cmd last : BitVec 8) (state : BitVec 8) (serial : BitVec 64) (s : State) :
    exec (.imgrptArrival dev cmd last state serial) s = execImgrptArrival dev cmd last state serial s := rfl
@[simp] theorem exec_imgackArrival (dev : BitVec 9) (status : BitVec 8) (s : State) :
    exec (.imgackArrival dev status) s = execImgackArrival dev status s := rfl

end Sys2Proof.Laws
end

