-- ==== Sys2Proof/Laws/State.lean ====
section
/-! SUPPORT. What each update of one part of the state leaves alone, field by field; a proof rewrites with these and unfolds no update. -/

namespace Sys2Proof.Laws

open Sys2Proof Sys2Proof.Machine

/-! ### setCore -/

@[simp] theorem setCore_pending (s : State) (site : Nat) (c : Core) : (setCore s site c).pending = s.pending := rfl
@[simp] theorem setCore_freeCtr (s : State) (site : Nat) (c : Core) : (setCore s site c).freeCtr = s.freeCtr := rfl
@[simp] theorem setCore_aoc (s : State) (site : Nat) (c : Core) : (setCore s site c).aoc = s.aoc := rfl
@[simp] theorem setCore_units (s : State) (site : Nat) (c : Core) : (setCore s site c).units = s.units := rfl
@[simp] theorem setCore_nodes (s : State) (site : Nat) (c : Core) : (setCore s site c).nodes = s.nodes := rfl
@[simp] theorem setCore_routers (s : State) (site : Nat) (c : Core) : (setCore s site c).routers = s.routers := rfl
@[simp] theorem setCore_ports (s : State) (site : Nat) (c : Core) : (setCore s site c).ports = s.ports := rfl
@[simp] theorem setCore_hbm (s : State) (site : Nat) (c : Core) : (setCore s site c).hbm = s.hbm := rfl
@[simp] theorem setCore_hbmBad (s : State) (site : Nat) (c : Core) : (setCore s site c).hbmBad = s.hbmBad := rfl
@[simp] theorem setCore_packets (s : State) (site : Nat) (c : Core) : (setCore s site c).packets = s.packets := rfl
@[simp] theorem setCore_nextPkt (s : State) (site : Nat) (c : Core) : (setCore s site c).nextPkt = s.nextPkt := rfl
@[simp] theorem setCore_nextReq (s : State) (site : Nat) (c : Core) : (setCore s site c).nextReq = s.nextReq := rfl
@[simp] theorem setCore_top (s : State) (site : Nat) (c : Core) : (setCore s site c).top = s.top := rfl
@[simp] theorem setCore_grp (s : State) (site : Nat) (c : Core) : (setCore s site c).grp = s.grp := rfl
@[simp] theorem setCore_img (s : State) (site : Nat) (c : Core) : (setCore s site c).img = s.img := rfl
@[simp] theorem setCore_mgt (s : State) (site : Nat) (c : Core) : (setCore s site c).mgt = s.mgt := rfl
@[simp] theorem setCore_sec (s : State) (site : Nat) (c : Core) : (setCore s site c).sec = s.sec := rfl
@[simp] theorem setCore_rst (s : State) (site : Nat) (c : Core) : (setCore s site c).rst = s.rst := rfl
@[simp] theorem setCore_pwr (s : State) (site : Nat) (c : Core) : (setCore s site c).pwr = s.pwr := rfl
@[simp] theorem setCore_kln (s : State) (site : Nat) (c : Core) : (setCore s site c).kln = s.kln := rfl
@[simp] theorem setCore_io (s : State) (site : Nat) (c : Core) : (setCore s site c).io = s.io := rfl

/-! ### modCore -/

@[simp] theorem modCore_pending (s : State) (site : Nat) (f : Core → Core) : (modCore site f s).pending = s.pending := rfl
@[simp] theorem modCore_freeCtr (s : State) (site : Nat) (f : Core → Core) : (modCore site f s).freeCtr = s.freeCtr := rfl
@[simp] theorem modCore_aoc (s : State) (site : Nat) (f : Core → Core) : (modCore site f s).aoc = s.aoc := rfl
@[simp] theorem modCore_units (s : State) (site : Nat) (f : Core → Core) : (modCore site f s).units = s.units := rfl
@[simp] theorem modCore_nodes (s : State) (site : Nat) (f : Core → Core) : (modCore site f s).nodes = s.nodes := rfl
@[simp] theorem modCore_routers (s : State) (site : Nat) (f : Core → Core) : (modCore site f s).routers = s.routers := rfl
@[simp] theorem modCore_ports (s : State) (site : Nat) (f : Core → Core) : (modCore site f s).ports = s.ports := rfl
@[simp] theorem modCore_hbm (s : State) (site : Nat) (f : Core → Core) : (modCore site f s).hbm = s.hbm := rfl
@[simp] theorem modCore_hbmBad (s : State) (site : Nat) (f : Core → Core) : (modCore site f s).hbmBad = s.hbmBad := rfl
@[simp] theorem modCore_packets (s : State) (site : Nat) (f : Core → Core) : (modCore site f s).packets = s.packets := rfl
@[simp] theorem modCore_nextPkt (s : State) (site : Nat) (f : Core → Core) : (modCore site f s).nextPkt = s.nextPkt := rfl
@[simp] theorem modCore_nextReq (s : State) (site : Nat) (f : Core → Core) : (modCore site f s).nextReq = s.nextReq := rfl
@[simp] theorem modCore_top (s : State) (site : Nat) (f : Core → Core) : (modCore site f s).top = s.top := rfl
@[simp] theorem modCore_grp (s : State) (site : Nat) (f : Core → Core) : (modCore site f s).grp = s.grp := rfl
@[simp] theorem modCore_img (s : State) (site : Nat) (f : Core → Core) : (modCore site f s).img = s.img := rfl
@[simp] theorem modCore_mgt (s : State) (site : Nat) (f : Core → Core) : (modCore site f s).mgt = s.mgt := rfl
@[simp] theorem modCore_sec (s : State) (site : Nat) (f : Core → Core) : (modCore site f s).sec = s.sec := rfl
@[simp] theorem modCore_rst (s : State) (site : Nat) (f : Core → Core) : (modCore site f s).rst = s.rst := rfl
@[simp] theorem modCore_pwr (s : State) (site : Nat) (f : Core → Core) : (modCore site f s).pwr = s.pwr := rfl
@[simp] theorem modCore_kln (s : State) (site : Nat) (f : Core → Core) : (modCore site f s).kln = s.kln := rfl
@[simp] theorem modCore_io (s : State) (site : Nat) (f : Core → Core) : (modCore site f s).io = s.io := rfl

/-! ### modThr -/

@[simp] theorem modThr_pending (s : State) (site : Nat) (t : Fin 4) (f : Thread → Thread) : (modThr site t f s).pending = s.pending := rfl
@[simp] theorem modThr_freeCtr (s : State) (site : Nat) (t : Fin 4) (f : Thread → Thread) : (modThr site t f s).freeCtr = s.freeCtr := rfl
@[simp] theorem modThr_aoc (s : State) (site : Nat) (t : Fin 4) (f : Thread → Thread) : (modThr site t f s).aoc = s.aoc := rfl
@[simp] theorem modThr_units (s : State) (site : Nat) (t : Fin 4) (f : Thread → Thread) : (modThr site t f s).units = s.units := rfl
@[simp] theorem modThr_nodes (s : State) (site : Nat) (t : Fin 4) (f : Thread → Thread) : (modThr site t f s).nodes = s.nodes := rfl
@[simp] theorem modThr_routers (s : State) (site : Nat) (t : Fin 4) (f : Thread → Thread) : (modThr site t f s).routers = s.routers := rfl
@[simp] theorem modThr_ports (s : State) (site : Nat) (t : Fin 4) (f : Thread → Thread) : (modThr site t f s).ports = s.ports := rfl
@[simp] theorem modThr_hbm (s : State) (site : Nat) (t : Fin 4) (f : Thread → Thread) : (modThr site t f s).hbm = s.hbm := rfl
@[simp] theorem modThr_hbmBad (s : State) (site : Nat) (t : Fin 4) (f : Thread → Thread) : (modThr site t f s).hbmBad = s.hbmBad := rfl
@[simp] theorem modThr_packets (s : State) (site : Nat) (t : Fin 4) (f : Thread → Thread) : (modThr site t f s).packets = s.packets := rfl
@[simp] theorem modThr_nextPkt (s : State) (site : Nat) (t : Fin 4) (f : Thread → Thread) : (modThr site t f s).nextPkt = s.nextPkt := rfl
@[simp] theorem modThr_nextReq (s : State) (site : Nat) (t : Fin 4) (f : Thread → Thread) : (modThr site t f s).nextReq = s.nextReq := rfl
@[simp] theorem modThr_top (s : State) (site : Nat) (t : Fin 4) (f : Thread → Thread) : (modThr site t f s).top = s.top := rfl
@[simp] theorem modThr_grp (s : State) (site : Nat) (t : Fin 4) (f : Thread → Thread) : (modThr site t f s).grp = s.grp := rfl
@[simp] theorem modThr_img (s : State) (site : Nat) (t : Fin 4) (f : Thread → Thread) : (modThr site t f s).img = s.img := rfl
@[simp] theorem modThr_mgt (s : State) (site : Nat) (t : Fin 4) (f : Thread → Thread) : (modThr site t f s).mgt = s.mgt := rfl
@[simp] theorem modThr_sec (s : State) (site : Nat) (t : Fin 4) (f : Thread → Thread) : (modThr site t f s).sec = s.sec := rfl
@[simp] theorem modThr_rst (s : State) (site : Nat) (t : Fin 4) (f : Thread → Thread) : (modThr site t f s).rst = s.rst := rfl
@[simp] theorem modThr_pwr (s : State) (site : Nat) (t : Fin 4) (f : Thread → Thread) : (modThr site t f s).pwr = s.pwr := rfl
@[simp] theorem modThr_kln (s : State) (site : Nat) (t : Fin 4) (f : Thread → Thread) : (modThr site t f s).kln = s.kln := rfl
@[simp] theorem modThr_io (s : State) (site : Nat) (t : Fin 4) (f : Thread → Thread) : (modThr site t f s).io = s.io := rfl

/-! ### modRing -/

@[simp] theorem modRing_pending (s : State) (site : Nat) (r : Fin 4) (f : HodRing → HodRing) : (modRing site r f s).pending = s.pending := rfl
@[simp] theorem modRing_freeCtr (s : State) (site : Nat) (r : Fin 4) (f : HodRing → HodRing) : (modRing site r f s).freeCtr = s.freeCtr := rfl
@[simp] theorem modRing_aoc (s : State) (site : Nat) (r : Fin 4) (f : HodRing → HodRing) : (modRing site r f s).aoc = s.aoc := rfl
@[simp] theorem modRing_units (s : State) (site : Nat) (r : Fin 4) (f : HodRing → HodRing) : (modRing site r f s).units = s.units := rfl
@[simp] theorem modRing_nodes (s : State) (site : Nat) (r : Fin 4) (f : HodRing → HodRing) : (modRing site r f s).nodes = s.nodes := rfl
@[simp] theorem modRing_routers (s : State) (site : Nat) (r : Fin 4) (f : HodRing → HodRing) : (modRing site r f s).routers = s.routers := rfl
@[simp] theorem modRing_ports (s : State) (site : Nat) (r : Fin 4) (f : HodRing → HodRing) : (modRing site r f s).ports = s.ports := rfl
@[simp] theorem modRing_hbm (s : State) (site : Nat) (r : Fin 4) (f : HodRing → HodRing) : (modRing site r f s).hbm = s.hbm := rfl
@[simp] theorem modRing_hbmBad (s : State) (site : Nat) (r : Fin 4) (f : HodRing → HodRing) : (modRing site r f s).hbmBad = s.hbmBad := rfl
@[simp] theorem modRing_packets (s : State) (site : Nat) (r : Fin 4) (f : HodRing → HodRing) : (modRing site r f s).packets = s.packets := rfl
@[simp] theorem modRing_nextPkt (s : State) (site : Nat) (r : Fin 4) (f : HodRing → HodRing) : (modRing site r f s).nextPkt = s.nextPkt := rfl
@[simp] theorem modRing_nextReq (s : State) (site : Nat) (r : Fin 4) (f : HodRing → HodRing) : (modRing site r f s).nextReq = s.nextReq := rfl
@[simp] theorem modRing_top (s : State) (site : Nat) (r : Fin 4) (f : HodRing → HodRing) : (modRing site r f s).top = s.top := rfl
@[simp] theorem modRing_grp (s : State) (site : Nat) (r : Fin 4) (f : HodRing → HodRing) : (modRing site r f s).grp = s.grp := rfl
@[simp] theorem modRing_img (s : State) (site : Nat) (r : Fin 4) (f : HodRing → HodRing) : (modRing site r f s).img = s.img := rfl
@[simp] theorem modRing_mgt (s : State) (site : Nat) (r : Fin 4) (f : HodRing → HodRing) : (modRing site r f s).mgt = s.mgt := rfl
@[simp] theorem modRing_sec (s : State) (site : Nat) (r : Fin 4) (f : HodRing → HodRing) : (modRing site r f s).sec = s.sec := rfl
@[simp] theorem modRing_rst (s : State) (site : Nat) (r : Fin 4) (f : HodRing → HodRing) : (modRing site r f s).rst = s.rst := rfl
@[simp] theorem modRing_pwr (s : State) (site : Nat) (r : Fin 4) (f : HodRing → HodRing) : (modRing site r f s).pwr = s.pwr := rfl
@[simp] theorem modRing_kln (s : State) (site : Nat) (r : Fin 4) (f : HodRing → HodRing) : (modRing site r f s).kln = s.kln := rfl
@[simp] theorem modRing_io (s : State) (site : Nat) (r : Fin 4) (f : HodRing → HodRing) : (modRing site r f s).io = s.io := rfl

/-! ### modEnd -/

@[simp] theorem modEnd_pending (s : State) (site x : Nat) (f : Endpoint → Endpoint) : (modEnd site x f s).pending = s.pending := rfl
@[simp] theorem modEnd_freeCtr (s : State) (site x : Nat) (f : Endpoint → Endpoint) : (modEnd site x f s).freeCtr = s.freeCtr := rfl
@[simp] theorem modEnd_aoc (s : State) (site x : Nat) (f : Endpoint → Endpoint) : (modEnd site x f s).aoc = s.aoc := rfl
@[simp] theorem modEnd_units (s : State) (site x : Nat) (f : Endpoint → Endpoint) : (modEnd site x f s).units = s.units := rfl
@[simp] theorem modEnd_nodes (s : State) (site x : Nat) (f : Endpoint → Endpoint) : (modEnd site x f s).nodes = s.nodes := rfl
@[simp] theorem modEnd_routers (s : State) (site x : Nat) (f : Endpoint → Endpoint) : (modEnd site x f s).routers = s.routers := rfl
@[simp] theorem modEnd_ports (s : State) (site x : Nat) (f : Endpoint → Endpoint) : (modEnd site x f s).ports = s.ports := rfl
@[simp] theorem modEnd_hbm (s : State) (site x : Nat) (f : Endpoint → Endpoint) : (modEnd site x f s).hbm = s.hbm := rfl
@[simp] theorem modEnd_hbmBad (s : State) (site x : Nat) (f : Endpoint → Endpoint) : (modEnd site x f s).hbmBad = s.hbmBad := rfl
@[simp] theorem modEnd_packets (s : State) (site x : Nat) (f : Endpoint → Endpoint) : (modEnd site x f s).packets = s.packets := rfl
@[simp] theorem modEnd_nextPkt (s : State) (site x : Nat) (f : Endpoint → Endpoint) : (modEnd site x f s).nextPkt = s.nextPkt := rfl
@[simp] theorem modEnd_nextReq (s : State) (site x : Nat) (f : Endpoint → Endpoint) : (modEnd site x f s).nextReq = s.nextReq := rfl
@[simp] theorem modEnd_top (s : State) (site x : Nat) (f : Endpoint → Endpoint) : (modEnd site x f s).top = s.top := rfl
@[simp] theorem modEnd_grp (s : State) (site x : Nat) (f : Endpoint → Endpoint) : (modEnd site x f s).grp = s.grp := rfl
@[simp] theorem modEnd_img (s : State) (site x : Nat) (f : Endpoint → Endpoint) : (modEnd site x f s).img = s.img := rfl
@[simp] theorem modEnd_mgt (s : State) (site x : Nat) (f : Endpoint → Endpoint) : (modEnd site x f s).mgt = s.mgt := rfl
@[simp] theorem modEnd_sec (s : State) (site x : Nat) (f : Endpoint → Endpoint) : (modEnd site x f s).sec = s.sec := rfl
@[simp] theorem modEnd_rst (s : State) (site x : Nat) (f : Endpoint → Endpoint) : (modEnd site x f s).rst = s.rst := rfl
@[simp] theorem modEnd_pwr (s : State) (site x : Nat) (f : Endpoint → Endpoint) : (modEnd site x f s).pwr = s.pwr := rfl
@[simp] theorem modEnd_kln (s : State) (site x : Nat) (f : Endpoint → Endpoint) : (modEnd site x f s).kln = s.kln := rfl
@[simp] theorem modEnd_io (s : State) (site x : Nat) (f : Endpoint → Endpoint) : (modEnd site x f s).io = s.io := rfl

/-! ### modUnit -/

@[simp] theorem modUnit_pending (s : State) (k : Nat) (f : SyncUnit → SyncUnit) : (modUnit k f s).pending = s.pending := rfl
@[simp] theorem modUnit_freeCtr (s : State) (k : Nat) (f : SyncUnit → SyncUnit) : (modUnit k f s).freeCtr = s.freeCtr := rfl
@[simp] theorem modUnit_aoc (s : State) (k : Nat) (f : SyncUnit → SyncUnit) : (modUnit k f s).aoc = s.aoc := rfl
@[simp] theorem modUnit_cores (s : State) (k : Nat) (f : SyncUnit → SyncUnit) : (modUnit k f s).cores = s.cores := rfl
@[simp] theorem modUnit_nodes (s : State) (k : Nat) (f : SyncUnit → SyncUnit) : (modUnit k f s).nodes = s.nodes := rfl
@[simp] theorem modUnit_routers (s : State) (k : Nat) (f : SyncUnit → SyncUnit) : (modUnit k f s).routers = s.routers := rfl
@[simp] theorem modUnit_ports (s : State) (k : Nat) (f : SyncUnit → SyncUnit) : (modUnit k f s).ports = s.ports := rfl
@[simp] theorem modUnit_hbm (s : State) (k : Nat) (f : SyncUnit → SyncUnit) : (modUnit k f s).hbm = s.hbm := rfl
@[simp] theorem modUnit_hbmBad (s : State) (k : Nat) (f : SyncUnit → SyncUnit) : (modUnit k f s).hbmBad = s.hbmBad := rfl
@[simp] theorem modUnit_packets (s : State) (k : Nat) (f : SyncUnit → SyncUnit) : (modUnit k f s).packets = s.packets := rfl
@[simp] theorem modUnit_nextPkt (s : State) (k : Nat) (f : SyncUnit → SyncUnit) : (modUnit k f s).nextPkt = s.nextPkt := rfl
@[simp] theorem modUnit_nextReq (s : State) (k : Nat) (f : SyncUnit → SyncUnit) : (modUnit k f s).nextReq = s.nextReq := rfl
@[simp] theorem modUnit_top (s : State) (k : Nat) (f : SyncUnit → SyncUnit) : (modUnit k f s).top = s.top := rfl
@[simp] theorem modUnit_grp (s : State) (k : Nat) (f : SyncUnit → SyncUnit) : (modUnit k f s).grp = s.grp := rfl
@[simp] theorem modUnit_img (s : State) (k : Nat) (f : SyncUnit → SyncUnit) : (modUnit k f s).img = s.img := rfl
@[simp] theorem modUnit_mgt (s : State) (k : Nat) (f : SyncUnit → SyncUnit) : (modUnit k f s).mgt = s.mgt := rfl
@[simp] theorem modUnit_sec (s : State) (k : Nat) (f : SyncUnit → SyncUnit) : (modUnit k f s).sec = s.sec := rfl
@[simp] theorem modUnit_rst (s : State) (k : Nat) (f : SyncUnit → SyncUnit) : (modUnit k f s).rst = s.rst := rfl
@[simp] theorem modUnit_pwr (s : State) (k : Nat) (f : SyncUnit → SyncUnit) : (modUnit k f s).pwr = s.pwr := rfl
@[simp] theorem modUnit_kln (s : State) (k : Nat) (f : SyncUnit → SyncUnit) : (modUnit k f s).kln = s.kln := rfl
@[simp] theorem modUnit_io (s : State) (k : Nat) (f : SyncUnit → SyncUnit) : (modUnit k f s).io = s.io := rfl

/-! ### modNode -/

@[simp] theorem modNode_pending (s : State) (k : Nat) (f : HbmNode → HbmNode) : (modNode k f s).pending = s.pending := rfl
@[simp] theorem modNode_freeCtr (s : State) (k : Nat) (f : HbmNode → HbmNode) : (modNode k f s).freeCtr = s.freeCtr := rfl
@[simp] theorem modNode_aoc (s : State) (k : Nat) (f : HbmNode → HbmNode) : (modNode k f s).aoc = s.aoc := rfl
@[simp] theorem modNode_cores (s : State) (k : Nat) (f : HbmNode → HbmNode) : (modNode k f s).cores = s.cores := rfl
@[simp] theorem modNode_units (s : State) (k : Nat) (f : HbmNode → HbmNode) : (modNode k f s).units = s.units := rfl
@[simp] theorem modNode_routers (s : State) (k : Nat) (f : HbmNode → HbmNode) : (modNode k f s).routers = s.routers := rfl
@[simp] theorem modNode_ports (s : State) (k : Nat) (f : HbmNode → HbmNode) : (modNode k f s).ports = s.ports := rfl
@[simp] theorem modNode_hbm (s : State) (k : Nat) (f : HbmNode → HbmNode) : (modNode k f s).hbm = s.hbm := rfl
@[simp] theorem modNode_hbmBad (s : State) (k : Nat) (f : HbmNode → HbmNode) : (modNode k f s).hbmBad = s.hbmBad := rfl
@[simp] theorem modNode_packets (s : State) (k : Nat) (f : HbmNode → HbmNode) : (modNode k f s).packets = s.packets := rfl
@[simp] theorem modNode_nextPkt (s : State) (k : Nat) (f : HbmNode → HbmNode) : (modNode k f s).nextPkt = s.nextPkt := rfl
@[simp] theorem modNode_nextReq (s : State) (k : Nat) (f : HbmNode → HbmNode) : (modNode k f s).nextReq = s.nextReq := rfl
@[simp] theorem modNode_top (s : State) (k : Nat) (f : HbmNode → HbmNode) : (modNode k f s).top = s.top := rfl
@[simp] theorem modNode_grp (s : State) (k : Nat) (f : HbmNode → HbmNode) : (modNode k f s).grp = s.grp := rfl
@[simp] theorem modNode_img (s : State) (k : Nat) (f : HbmNode → HbmNode) : (modNode k f s).img = s.img := rfl
@[simp] theorem modNode_mgt (s : State) (k : Nat) (f : HbmNode → HbmNode) : (modNode k f s).mgt = s.mgt := rfl
@[simp] theorem modNode_sec (s : State) (k : Nat) (f : HbmNode → HbmNode) : (modNode k f s).sec = s.sec := rfl
@[simp] theorem modNode_rst (s : State) (k : Nat) (f : HbmNode → HbmNode) : (modNode k f s).rst = s.rst := rfl
@[simp] theorem modNode_pwr (s : State) (k : Nat) (f : HbmNode → HbmNode) : (modNode k f s).pwr = s.pwr := rfl
@[simp] theorem modNode_kln (s : State) (k : Nat) (f : HbmNode → HbmNode) : (modNode k f s).kln = s.kln := rfl
@[simp] theorem modNode_io (s : State) (k : Nat) (f : HbmNode → HbmNode) : (modNode k f s).io = s.io := rfl

/-! ### modRouter -/

@[simp] theorem modRouter_pending (s : State) (k : Nat) (f : Router → Router) : (modRouter k f s).pending = s.pending := rfl
@[simp] theorem modRouter_freeCtr (s : State) (k : Nat) (f : Router → Router) : (modRouter k f s).freeCtr = s.freeCtr := rfl
@[simp] theorem modRouter_aoc (s : State) (k : Nat) (f : Router → Router) : (modRouter k f s).aoc = s.aoc := rfl
@[simp] theorem modRouter_cores (s : State) (k : Nat) (f : Router → Router) : (modRouter k f s).cores = s.cores := rfl
@[simp] theorem modRouter_units (s : State) (k : Nat) (f : Router → Router) : (modRouter k f s).units = s.units := rfl
@[simp] theorem modRouter_nodes (s : State) (k : Nat) (f : Router → Router) : (modRouter k f s).nodes = s.nodes := rfl
@[simp] theorem modRouter_ports (s : State) (k : Nat) (f : Router → Router) : (modRouter k f s).ports = s.ports := rfl
@[simp] theorem modRouter_hbm (s : State) (k : Nat) (f : Router → Router) : (modRouter k f s).hbm = s.hbm := rfl
@[simp] theorem modRouter_hbmBad (s : State) (k : Nat) (f : Router → Router) : (modRouter k f s).hbmBad = s.hbmBad := rfl
@[simp] theorem modRouter_packets (s : State) (k : Nat) (f : Router → Router) : (modRouter k f s).packets = s.packets := rfl
@[simp] theorem modRouter_nextPkt (s : State) (k : Nat) (f : Router → Router) : (modRouter k f s).nextPkt = s.nextPkt := rfl
@[simp] theorem modRouter_nextReq (s : State) (k : Nat) (f : Router → Router) : (modRouter k f s).nextReq = s.nextReq := rfl
@[simp] theorem modRouter_top (s : State) (k : Nat) (f : Router → Router) : (modRouter k f s).top = s.top := rfl
@[simp] theorem modRouter_grp (s : State) (k : Nat) (f : Router → Router) : (modRouter k f s).grp = s.grp := rfl
@[simp] theorem modRouter_img (s : State) (k : Nat) (f : Router → Router) : (modRouter k f s).img = s.img := rfl
@[simp] theorem modRouter_mgt (s : State) (k : Nat) (f : Router → Router) : (modRouter k f s).mgt = s.mgt := rfl
@[simp] theorem modRouter_sec (s : State) (k : Nat) (f : Router → Router) : (modRouter k f s).sec = s.sec := rfl
@[simp] theorem modRouter_rst (s : State) (k : Nat) (f : Router → Router) : (modRouter k f s).rst = s.rst := rfl
@[simp] theorem modRouter_pwr (s : State) (k : Nat) (f : Router → Router) : (modRouter k f s).pwr = s.pwr := rfl
@[simp] theorem modRouter_kln (s : State) (k : Nat) (f : Router → Router) : (modRouter k f s).kln = s.kln := rfl
@[simp] theorem modRouter_io (s : State) (k : Nat) (f : Router → Router) : (modRouter k f s).io = s.io := rfl

/-! ### modPort -/

@[simp] theorem modPort_pending (s : State) (k : Nat) (f : Port → Port) : (modPort k f s).pending = s.pending := rfl
@[simp] theorem modPort_freeCtr (s : State) (k : Nat) (f : Port → Port) : (modPort k f s).freeCtr = s.freeCtr := rfl
@[simp] theorem modPort_aoc (s : State) (k : Nat) (f : Port → Port) : (modPort k f s).aoc = s.aoc := rfl
@[simp] theorem modPort_cores (s : State) (k : Nat) (f : Port → Port) : (modPort k f s).cores = s.cores := rfl
@[simp] theorem modPort_units (s : State) (k : Nat) (f : Port → Port) : (modPort k f s).units = s.units := rfl
@[simp] theorem modPort_nodes (s : State) (k : Nat) (f : Port → Port) : (modPort k f s).nodes = s.nodes := rfl
@[simp] theorem modPort_routers (s : State) (k : Nat) (f : Port → Port) : (modPort k f s).routers = s.routers := rfl
@[simp] theorem modPort_hbm (s : State) (k : Nat) (f : Port → Port) : (modPort k f s).hbm = s.hbm := rfl
@[simp] theorem modPort_hbmBad (s : State) (k : Nat) (f : Port → Port) : (modPort k f s).hbmBad = s.hbmBad := rfl
@[simp] theorem modPort_packets (s : State) (k : Nat) (f : Port → Port) : (modPort k f s).packets = s.packets := rfl
@[simp] theorem modPort_nextPkt (s : State) (k : Nat) (f : Port → Port) : (modPort k f s).nextPkt = s.nextPkt := rfl
@[simp] theorem modPort_nextReq (s : State) (k : Nat) (f : Port → Port) : (modPort k f s).nextReq = s.nextReq := rfl
@[simp] theorem modPort_top (s : State) (k : Nat) (f : Port → Port) : (modPort k f s).top = s.top := rfl
@[simp] theorem modPort_grp (s : State) (k : Nat) (f : Port → Port) : (modPort k f s).grp = s.grp := rfl
@[simp] theorem modPort_img (s : State) (k : Nat) (f : Port → Port) : (modPort k f s).img = s.img := rfl
@[simp] theorem modPort_mgt (s : State) (k : Nat) (f : Port → Port) : (modPort k f s).mgt = s.mgt := rfl
@[simp] theorem modPort_sec (s : State) (k : Nat) (f : Port → Port) : (modPort k f s).sec = s.sec := rfl
@[simp] theorem modPort_rst (s : State) (k : Nat) (f : Port → Port) : (modPort k f s).rst = s.rst := rfl
@[simp] theorem modPort_pwr (s : State) (k : Nat) (f : Port → Port) : (modPort k f s).pwr = s.pwr := rfl
@[simp] theorem modPort_kln (s : State) (k : Nat) (f : Port → Port) : (modPort k f s).kln = s.kln := rfl
@[simp] theorem modPort_io (s : State) (k : Nat) (f : Port → Port) : (modPort k f s).io = s.io := rfl

/-! ### modEngine -/

@[simp] theorem modEngine_pending (s : State) (k : Nat) (f : Engine → Engine) : (modEngine k f s).pending = s.pending := rfl
@[simp] theorem modEngine_freeCtr (s : State) (k : Nat) (f : Engine → Engine) : (modEngine k f s).freeCtr = s.freeCtr := rfl
@[simp] theorem modEngine_aoc (s : State) (k : Nat) (f : Engine → Engine) : (modEngine k f s).aoc = s.aoc := rfl
@[simp] theorem modEngine_cores (s : State) (k : Nat) (f : Engine → Engine) : (modEngine k f s).cores = s.cores := rfl
@[simp] theorem modEngine_units (s : State) (k : Nat) (f : Engine → Engine) : (modEngine k f s).units = s.units := rfl
@[simp] theorem modEngine_nodes (s : State) (k : Nat) (f : Engine → Engine) : (modEngine k f s).nodes = s.nodes := rfl
@[simp] theorem modEngine_routers (s : State) (k : Nat) (f : Engine → Engine) : (modEngine k f s).routers = s.routers := rfl
@[simp] theorem modEngine_ports (s : State) (k : Nat) (f : Engine → Engine) : (modEngine k f s).ports = s.ports := rfl
@[simp] theorem modEngine_hbm (s : State) (k : Nat) (f : Engine → Engine) : (modEngine k f s).hbm = s.hbm := rfl
@[simp] theorem modEngine_hbmBad (s : State) (k : Nat) (f : Engine → Engine) : (modEngine k f s).hbmBad = s.hbmBad := rfl
@[simp] theorem modEngine_packets (s : State) (k : Nat) (f : Engine → Engine) : (modEngine k f s).packets = s.packets := rfl
@[simp] theorem modEngine_nextPkt (s : State) (k : Nat) (f : Engine → Engine) : (modEngine k f s).nextPkt = s.nextPkt := rfl
@[simp] theorem modEngine_nextReq (s : State) (k : Nat) (f : Engine → Engine) : (modEngine k f s).nextReq = s.nextReq := rfl
@[simp] theorem modEngine_top (s : State) (k : Nat) (f : Engine → Engine) : (modEngine k f s).top = s.top := rfl
@[simp] theorem modEngine_img (s : State) (k : Nat) (f : Engine → Engine) : (modEngine k f s).img = s.img := rfl
@[simp] theorem modEngine_mgt (s : State) (k : Nat) (f : Engine → Engine) : (modEngine k f s).mgt = s.mgt := rfl
@[simp] theorem modEngine_sec (s : State) (k : Nat) (f : Engine → Engine) : (modEngine k f s).sec = s.sec := rfl
@[simp] theorem modEngine_rst (s : State) (k : Nat) (f : Engine → Engine) : (modEngine k f s).rst = s.rst := rfl
@[simp] theorem modEngine_pwr (s : State) (k : Nat) (f : Engine → Engine) : (modEngine k f s).pwr = s.pwr := rfl
@[simp] theorem modEngine_kln (s : State) (k : Nat) (f : Engine → Engine) : (modEngine k f s).kln = s.kln := rfl
@[simp] theorem modEngine_io (s : State) (k : Nat) (f : Engine → Engine) : (modEngine k f s).io = s.io := rfl

/-! ### modPace -/

@[simp] theorem modPace_pending (s : State) (k : Nat) (f : Pace → Pace) : (modPace k f s).pending = s.pending := rfl
@[simp] theorem modPace_freeCtr (s : State) (k : Nat) (f : Pace → Pace) : (modPace k f s).freeCtr = s.freeCtr := rfl
@[simp] theorem modPace_aoc (s : State) (k : Nat) (f : Pace → Pace) : (modPace k f s).aoc = s.aoc := rfl
@[simp] theorem modPace_cores (s : State) (k : Nat) (f : Pace → Pace) : (modPace k f s).cores = s.cores := rfl
@[simp] theorem modPace_units (s : State) (k : Nat) (f : Pace → Pace) : (modPace k f s).units = s.units := rfl
@[simp] theorem modPace_nodes (s : State) (k : Nat) (f : Pace → Pace) : (modPace k f s).nodes = s.nodes := rfl
@[simp] theorem modPace_routers (s : State) (k : Nat) (f : Pace → Pace) : (modPace k f s).routers = s.routers := rfl
@[simp] theorem modPace_ports (s : State) (k : Nat) (f : Pace → Pace) : (modPace k f s).ports = s.ports := rfl
@[simp] theorem modPace_hbm (s : State) (k : Nat) (f : Pace → Pace) : (modPace k f s).hbm = s.hbm := rfl
@[simp] theorem modPace_hbmBad (s : State) (k : Nat) (f : Pace → Pace) : (modPace k f s).hbmBad = s.hbmBad := rfl
@[simp] theorem modPace_packets (s : State) (k : Nat) (f : Pace → Pace) : (modPace k f s).packets = s.packets := rfl
@[simp] theorem modPace_nextPkt (s : State) (k : Nat) (f : Pace → Pace) : (modPace k f s).nextPkt = s.nextPkt := rfl
@[simp] theorem modPace_nextReq (s : State) (k : Nat) (f : Pace → Pace) : (modPace k f s).nextReq = s.nextReq := rfl
@[simp] theorem modPace_grp (s : State) (k : Nat) (f : Pace → Pace) : (modPace k f s).grp = s.grp := rfl
@[simp] theorem modPace_img (s : State) (k : Nat) (f : Pace → Pace) : (modPace k f s).img = s.img := rfl
@[simp] theorem modPace_mgt (s : State) (k : Nat) (f : Pace → Pace) : (modPace k f s).mgt = s.mgt := rfl
@[simp] theorem modPace_sec (s : State) (k : Nat) (f : Pace → Pace) : (modPace k f s).sec = s.sec := rfl
@[simp] theorem modPace_rst (s : State) (k : Nat) (f : Pace → Pace) : (modPace k f s).rst = s.rst := rfl
@[simp] theorem modPace_pwr (s : State) (k : Nat) (f : Pace → Pace) : (modPace k f s).pwr = s.pwr := rfl
@[simp] theorem modPace_kln (s : State) (k : Nat) (f : Pace → Pace) : (modPace k f s).kln = s.kln := rfl
@[simp] theorem modPace_io (s : State) (k : Nat) (f : Pace → Pace) : (modPace k f s).io = s.io := rfl

/-! ### modRail -/

@[simp] theorem modRail_pending (s : State) (k : Nat) (f : Rail → Rail) : (modRail k f s).pending = s.pending := rfl
@[simp] theorem modRail_freeCtr (s : State) (k : Nat) (f : Rail → Rail) : (modRail k f s).freeCtr = s.freeCtr := rfl
@[simp] theorem modRail_aoc (s : State) (k : Nat) (f : Rail → Rail) : (modRail k f s).aoc = s.aoc := rfl
@[simp] theorem modRail_cores (s : State) (k : Nat) (f : Rail → Rail) : (modRail k f s).cores = s.cores := rfl
@[simp] theorem modRail_units (s : State) (k : Nat) (f : Rail → Rail) : (modRail k f s).units = s.units := rfl
@[simp] theorem modRail_nodes (s : State) (k : Nat) (f : Rail → Rail) : (modRail k f s).nodes = s.nodes := rfl
@[simp] theorem modRail_routers (s : State) (k : Nat) (f : Rail → Rail) : (modRail k f s).routers = s.routers := rfl
@[simp] theorem modRail_ports (s : State) (k : Nat) (f : Rail → Rail) : (modRail k f s).ports = s.ports := rfl
@[simp] theorem modRail_hbm (s : State) (k : Nat) (f : Rail → Rail) : (modRail k f s).hbm = s.hbm := rfl
@[simp] theorem modRail_hbmBad (s : State) (k : Nat) (f : Rail → Rail) : (modRail k f s).hbmBad = s.hbmBad := rfl
@[simp] theorem modRail_packets (s : State) (k : Nat) (f : Rail → Rail) : (modRail k f s).packets = s.packets := rfl
@[simp] theorem modRail_nextPkt (s : State) (k : Nat) (f : Rail → Rail) : (modRail k f s).nextPkt = s.nextPkt := rfl
@[simp] theorem modRail_nextReq (s : State) (k : Nat) (f : Rail → Rail) : (modRail k f s).nextReq = s.nextReq := rfl
@[simp] theorem modRail_top (s : State) (k : Nat) (f : Rail → Rail) : (modRail k f s).top = s.top := rfl
@[simp] theorem modRail_grp (s : State) (k : Nat) (f : Rail → Rail) : (modRail k f s).grp = s.grp := rfl
@[simp] theorem modRail_img (s : State) (k : Nat) (f : Rail → Rail) : (modRail k f s).img = s.img := rfl
@[simp] theorem modRail_mgt (s : State) (k : Nat) (f : Rail → Rail) : (modRail k f s).mgt = s.mgt := rfl
@[simp] theorem modRail_sec (s : State) (k : Nat) (f : Rail → Rail) : (modRail k f s).sec = s.sec := rfl
@[simp] theorem modRail_rst (s : State) (k : Nat) (f : Rail → Rail) : (modRail k f s).rst = s.rst := rfl
@[simp] theorem modRail_kln (s : State) (k : Nat) (f : Rail → Rail) : (modRail k f s).kln = s.kln := rfl
@[simp] theorem modRail_io (s : State) (k : Nat) (f : Rail → Rail) : (modRail k f s).io = s.io := rfl

/-! ### inject -/

@[simp] theorem inject_pending (s : State) (p : Packet) : (inject p s).pending = s.pending := rfl
@[simp] theorem inject_freeCtr (s : State) (p : Packet) : (inject p s).freeCtr = s.freeCtr := rfl
@[simp] theorem inject_aoc (s : State) (p : Packet) : (inject p s).aoc = s.aoc := rfl
@[simp] theorem inject_cores (s : State) (p : Packet) : (inject p s).cores = s.cores := rfl
@[simp] theorem inject_units (s : State) (p : Packet) : (inject p s).units = s.units := rfl
@[simp] theorem inject_nodes (s : State) (p : Packet) : (inject p s).nodes = s.nodes := rfl
@[simp] theorem inject_routers (s : State) (p : Packet) : (inject p s).routers = s.routers := rfl
@[simp] theorem inject_ports (s : State) (p : Packet) : (inject p s).ports = s.ports := rfl
@[simp] theorem inject_hbm (s : State) (p : Packet) : (inject p s).hbm = s.hbm := rfl
@[simp] theorem inject_hbmBad (s : State) (p : Packet) : (inject p s).hbmBad = s.hbmBad := rfl
@[simp] theorem inject_nextReq (s : State) (p : Packet) : (inject p s).nextReq = s.nextReq := rfl
@[simp] theorem inject_top (s : State) (p : Packet) : (inject p s).top = s.top := rfl
@[simp] theorem inject_grp (s : State) (p : Packet) : (inject p s).grp = s.grp := rfl
@[simp] theorem inject_img (s : State) (p : Packet) : (inject p s).img = s.img := rfl
@[simp] theorem inject_mgt (s : State) (p : Packet) : (inject p s).mgt = s.mgt := rfl
@[simp] theorem inject_sec (s : State) (p : Packet) : (inject p s).sec = s.sec := rfl
@[simp] theorem inject_rst (s : State) (p : Packet) : (inject p s).rst = s.rst := rfl
@[simp] theorem inject_pwr (s : State) (p : Packet) : (inject p s).pwr = s.pwr := rfl
@[simp] theorem inject_kln (s : State) (p : Packet) : (inject p s).kln = s.kln := rfl
@[simp] theorem inject_io (s : State) (p : Packet) : (inject p s).io = s.io := rfl

/-! ### dropPacket -/

@[simp] theorem dropPacket_pending (s : State) (n : Nat) : (dropPacket n s).pending = s.pending := rfl
@[simp] theorem dropPacket_freeCtr (s : State) (n : Nat) : (dropPacket n s).freeCtr = s.freeCtr := rfl
@[simp] theorem dropPacket_aoc (s : State) (n : Nat) : (dropPacket n s).aoc = s.aoc := rfl
@[simp] theorem dropPacket_cores (s : State) (n : Nat) : (dropPacket n s).cores = s.cores := rfl
@[simp] theorem dropPacket_units (s : State) (n : Nat) : (dropPacket n s).units = s.units := rfl
@[simp] theorem dropPacket_nodes (s : State) (n : Nat) : (dropPacket n s).nodes = s.nodes := rfl
@[simp] theorem dropPacket_routers (s : State) (n : Nat) : (dropPacket n s).routers = s.routers := rfl
@[simp] theorem dropPacket_ports (s : State) (n : Nat) : (dropPacket n s).ports = s.ports := rfl
@[simp] theorem dropPacket_hbm (s : State) (n : Nat) : (dropPacket n s).hbm = s.hbm := rfl
@[simp] theorem dropPacket_hbmBad (s : State) (n : Nat) : (dropPacket n s).hbmBad = s.hbmBad := rfl
@[simp] theorem dropPacket_nextPkt (s : State) (n : Nat) : (dropPacket n s).nextPkt = s.nextPkt := rfl
@[simp] theorem dropPacket_nextReq (s : State) (n : Nat) : (dropPacket n s).nextReq = s.nextReq := rfl
@[simp] theorem dropPacket_top (s : State) (n : Nat) : (dropPacket n s).top = s.top := rfl
@[simp] theorem dropPacket_grp (s : State) (n : Nat) : (dropPacket n s).grp = s.grp := rfl
@[simp] theorem dropPacket_img (s : State) (n : Nat) : (dropPacket n s).img = s.img := rfl
@[simp] theorem dropPacket_mgt (s : State) (n : Nat) : (dropPacket n s).mgt = s.mgt := rfl
@[simp] theorem dropPacket_sec (s : State) (n : Nat) : (dropPacket n s).sec = s.sec := rfl
@[simp] theorem dropPacket_rst (s : State) (n : Nat) : (dropPacket n s).rst = s.rst := rfl
@[simp] theorem dropPacket_pwr (s : State) (n : Nat) : (dropPacket n s).pwr = s.pwr := rfl
@[simp] theorem dropPacket_kln (s : State) (n : Nat) : (dropPacket n s).kln = s.kln := rfl
@[simp] theorem dropPacket_io (s : State) (n : Nat) : (dropPacket n s).io = s.io := rfl

/-! ### putPacket -/

@[simp] theorem putPacket_pending (s : State) (p : Packet) : (putPacket p s).pending = s.pending := rfl
@[simp] theorem putPacket_freeCtr (s : State) (p : Packet) : (putPacket p s).freeCtr = s.freeCtr := rfl
@[simp] theorem putPacket_aoc (s : State) (p : Packet) : (putPacket p s).aoc = s.aoc := rfl
@[simp] theorem putPacket_cores (s : State) (p : Packet) : (putPacket p s).cores = s.cores := rfl
@[simp] theorem putPacket_units (s : State) (p : Packet) : (putPacket p s).units = s.units := rfl
@[simp] theorem putPacket_nodes (s : State) (p : Packet) : (putPacket p s).nodes = s.nodes := rfl
@[simp] theorem putPacket_routers (s : State) (p : Packet) : (putPacket p s).routers = s.routers := rfl
@[simp] theorem putPacket_ports (s : State) (p : Packet) : (putPacket p s).ports = s.ports := rfl
@[simp] theorem putPacket_hbm (s : State) (p : Packet) : (putPacket p s).hbm = s.hbm := rfl
@[simp] theorem putPacket_hbmBad (s : State) (p : Packet) : (putPacket p s).hbmBad = s.hbmBad := rfl
@[simp] theorem putPacket_nextPkt (s : State) (p : Packet) : (putPacket p s).nextPkt = s.nextPkt := rfl
@[simp] theorem putPacket_nextReq (s : State) (p : Packet) : (putPacket p s).nextReq = s.nextReq := rfl
@[simp] theorem putPacket_top (s : State) (p : Packet) : (putPacket p s).top = s.top := rfl
@[simp] theorem putPacket_grp (s : State) (p : Packet) : (putPacket p s).grp = s.grp := rfl
@[simp] theorem putPacket_img (s : State) (p : Packet) : (putPacket p s).img = s.img := rfl
@[simp] theorem putPacket_mgt (s : State) (p : Packet) : (putPacket p s).mgt = s.mgt := rfl
@[simp] theorem putPacket_sec (s : State) (p : Packet) : (putPacket p s).sec = s.sec := rfl
@[simp] theorem putPacket_rst (s : State) (p : Packet) : (putPacket p s).rst = s.rst := rfl
@[simp] theorem putPacket_pwr (s : State) (p : Packet) : (putPacket p s).pwr = s.pwr := rfl
@[simp] theorem putPacket_kln (s : State) (p : Packet) : (putPacket p s).kln = s.kln := rfl
@[simp] theorem putPacket_io (s : State) (p : Packet) : (putPacket p s).io = s.io := rfl

/-! ### drawFree -/

@[simp] theorem drawFree_pending (s : State) (w : Nat) : (drawFree w s).2.pending = s.pending := rfl
@[simp] theorem drawFree_aoc (s : State) (w : Nat) : (drawFree w s).2.aoc = s.aoc := rfl
@[simp] theorem drawFree_cores (s : State) (w : Nat) : (drawFree w s).2.cores = s.cores := rfl
@[simp] theorem drawFree_units (s : State) (w : Nat) : (drawFree w s).2.units = s.units := rfl
@[simp] theorem drawFree_nodes (s : State) (w : Nat) : (drawFree w s).2.nodes = s.nodes := rfl
@[simp] theorem drawFree_routers (s : State) (w : Nat) : (drawFree w s).2.routers = s.routers := rfl
@[simp] theorem drawFree_ports (s : State) (w : Nat) : (drawFree w s).2.ports = s.ports := rfl
@[simp] theorem drawFree_hbm (s : State) (w : Nat) : (drawFree w s).2.hbm = s.hbm := rfl
@[simp] theorem drawFree_hbmBad (s : State) (w : Nat) : (drawFree w s).2.hbmBad = s.hbmBad := rfl
@[simp] theorem drawFree_packets (s : State) (w : Nat) : (drawFree w s).2.packets = s.packets := rfl
@[simp] theorem drawFree_nextPkt (s : State) (w : Nat) : (drawFree w s).2.nextPkt = s.nextPkt := rfl
@[simp] theorem drawFree_nextReq (s : State) (w : Nat) : (drawFree w s).2.nextReq = s.nextReq := rfl
@[simp] theorem drawFree_top (s : State) (w : Nat) : (drawFree w s).2.top = s.top := rfl
@[simp] theorem drawFree_grp (s : State) (w : Nat) : (drawFree w s).2.grp = s.grp := rfl
@[simp] theorem drawFree_img (s : State) (w : Nat) : (drawFree w s).2.img = s.img := rfl
@[simp] theorem drawFree_mgt (s : State) (w : Nat) : (drawFree w s).2.mgt = s.mgt := rfl
@[simp] theorem drawFree_sec (s : State) (w : Nat) : (drawFree w s).2.sec = s.sec := rfl
@[simp] theorem drawFree_rst (s : State) (w : Nat) : (drawFree w s).2.rst = s.rst := rfl
@[simp] theorem drawFree_pwr (s : State) (w : Nat) : (drawFree w s).2.pwr = s.pwr := rfl
@[simp] theorem drawFree_kln (s : State) (w : Nat) : (drawFree w s).2.kln = s.kln := rfl
@[simp] theorem drawFree_io (s : State) (w : Nat) : (drawFree w s).2.io = s.io := rfl

/-! ### What a part reads as after its update -/

theorem mget_mset_self {α : Type} (m : Map α) (k : Nat) (v d : α) : mget (mset m k v) k d = v := by
  induction m with
  | nil => simp [mset, mget]
  | cons e r ih =>
    obtain ⟨j, w⟩ := e
    unfold mset
    split
    · simp [mget]
    · split
      · simp [mget]
      · simp [mget, *]

theorem mget_mset_ne {α : Type} (m : Map α) (k j : Nat) (v d : α) (h : j ≠ k) : mget (mset m k v) j d = mget m j d := by
  induction m with
  | nil => simp [mset, mget, Ne.symm h]
  | cons e r ih =>
    obtain ⟨i, w⟩ := e
    unfold mset
    split
    · simp [mget, Ne.symm h]
    · split
      · subst i; simp [mget, Ne.symm h]
      · simp [mget, ih]

/-- An updated entry, and every other one. -/
theorem mget_mset {α : Type} (m : Map α) (k j : Nat) (v d : α) : mget (mset m k v) j d = if j = k then v else mget m j d := by
  by_cases h : j = k
  · simp [h, mget_mset_self]
  · simp [h, mget_mset_ne _ _ _ _ _ h]

/-- A removed entry reads as the default, and every other one as before. -/
theorem mget_mdel {α : Type} (m : Map α) (k j : Nat) (d : α) : mget (mdel m k) j d = if j = k then d else mget m j d := by
  induction m with
  | nil => simp [mdel, mget]
  | cons e r ih =>
    obtain ⟨i, w⟩ := e
    unfold mdel at *
    by_cases hi : i = k <;> by_cases hj : j = k <;> by_cases hij : i = j <;> simp_all [mget]

theorem getCore_setCore (s : State) (i j : Nat) (c : Core) : getCore (setCore s i c) j = if j = i then c else getCore s j := mget_mset ..
theorem getCore_modCore (s : State) (i j : Nat) (f : Core → Core) : getCore (modCore i f s) j = if j = i then f (getCore s i) else getCore s j :=
  mget_mset ..
theorem getUnit_modUnit (s : State) (i j : Nat) (f : SyncUnit → SyncUnit) :
    getUnit (modUnit i f s) j = if j = i then f (getUnit s i) else getUnit s j := mget_mset ..
theorem getNode_modNode (s : State) (i j : Nat) (f : HbmNode → HbmNode) :
    getNode (modNode i f s) j = if j = i then f (getNode s i) else getNode s j := mget_mset ..
theorem getRouter_modRouter (s : State) (i j : Nat) (f : Router → Router) :
    getRouter (modRouter i f s) j = if j = i then f (getRouter s i) else getRouter s j := mget_mset ..
theorem getPort_modPort (s : State) (i j : Nat) (f : Port → Port) :
    getPort (modPort i f s) j = if j = i then f (getPort s i) else getPort s j := mget_mset ..
theorem getEngine_modEngine (s : State) (i j : Nat) (f : Engine → Engine) :
    getEngine (modEngine i f s) j = if j = i then f (getEngine s i) else getEngine s j := mget_mset ..
theorem getPace_modPace (s : State) (i j : Nat) (f : Pace → Pace) :
    getPace (modPace i f s) j = if j = i then f (getPace s i) else getPace s j := mget_mset ..
theorem getRail_modRail (s : State) (i j : Nat) (f : Rail → Rail) :
    getRail (modRail i f s) j = if j = i then f (getRail s i) else getRail s j := mget_mset ..

/-- A property of the four threads, thread by thread. -/
theorem fin4 {p : Fin 4 → Prop} (h0 : p 0) (h1 : p 1) (h2 : p 2) (h3 : p 3) : ∀ t, p t
  | 0 => h0
  | 1 => h1
  | 2 => h2
  | 3 => h3

@[simp] theorem coreThr_coreSetThr (c : Core) (t u : Fin 4) (h : Thread) : coreThr (coreSetThr c t h) u = if u = t then h else coreThr c u :=
  fin4 (p := fun t => coreThr (coreSetThr c t h) u = if u = t then h else coreThr c u)
    (fin4 (p := fun u => coreThr (coreSetThr c 0 h) u = if u = 0 then h else coreThr c u) rfl rfl rfl rfl u)
    (fin4 (p := fun u => coreThr (coreSetThr c 1 h) u = if u = 1 then h else coreThr c u) rfl rfl rfl rfl u)
    (fin4 (p := fun u => coreThr (coreSetThr c 2 h) u = if u = 2 then h else coreThr c u) rfl rfl rfl rfl u)
    (fin4 (p := fun u => coreThr (coreSetThr c 3 h) u = if u = 3 then h else coreThr c u) rfl rfl rfl rfl u) t

theorem getThr_modThr (s : State) (i j : Nat) (t u : Fin 4) (f : Thread → Thread) :
    getThr (modThr i t f s) j u = if j = i ∧ u = t then f (getThr s i t) else getThr s j u := by
  unfold getThr modThr
  rw [getCore_modCore]
  by_cases h : j = i
  · subst h; simp
  · simp [h]

theorem getRing_modRing (s : State) (i j : Nat) (r q : Fin 4) (f : HodRing → HodRing) :
    getRing (modRing i r f s) j q = if j = i ∧ q = r then f (getRing s i r) else getRing s j q := by
  unfold getRing modRing
  rw [getCore_modCore]
  by_cases h : j = i
  · subst h; simp [mget_mset, Fin.ext_iff]
  · simp [h]

theorem getEnd_modEnd (s : State) (i j x y : Nat) (f : Endpoint → Endpoint) :
    getEnd (modEnd i x f s) j y = if j = i ∧ y = x then f (getEnd s i x) else getEnd s j y := by
  unfold getEnd modEnd
  rw [getCore_modCore]
  by_cases h : j = i
  · subst h; simp [mget_mset]
  · simp [h]

/-! ### What an update of a thread leaves alone in its core -/

@[simp] theorem coreSetThr_power (c : Core) (t : Fin 4) (h : Thread) : (coreSetThr c t h).power = c.power :=
  fin4 (p := fun t => (coreSetThr c t h).power = c.power) rfl rfl rfl rfl t
@[simp] theorem coreSetThr_lastSlot (c : Core) (t : Fin 4) (h : Thread) : (coreSetThr c t h).lastSlot = c.lastSlot :=
  fin4 (p := fun t => (coreSetThr c t h).lastSlot = c.lastSlot) rfl rfl rfl rfl t
@[simp] theorem coreSetThr_lm (c : Core) (t : Fin 4) (h : Thread) : (coreSetThr c t h).lm = c.lm :=
  fin4 (p := fun t => (coreSetThr c t h).lm = c.lm) rfl rfl rfl rfl t
@[simp] theorem coreSetThr_lmBad (c : Core) (t : Fin 4) (h : Thread) : (coreSetThr c t h).lmBad = c.lmBad :=
  fin4 (p := fun t => (coreSetThr c t h).lmBad = c.lmBad) rfl rfl rfl rfl t
@[simp] theorem coreSetThr_bits (c : Core) (t : Fin 4) (h : Thread) : (coreSetThr c t h).bits = c.bits :=
  fin4 (p := fun t => (coreSetThr c t h).bits = c.bits) rfl rfl rfl rfl t
@[simp] theorem coreSetThr_rope (c : Core) (t : Fin 4) (h : Thread) : (coreSetThr c t h).rope = c.rope :=
  fin4 (p := fun t => (coreSetThr c t h).rope = c.rope) rfl rfl rfl rfl t
@[simp] theorem coreSetThr_lmslice (c : Core) (t : Fin 4) (h : Thread) : (coreSetThr c t h).lmslice = c.lmslice :=
  fin4 (p := fun t => (coreSetThr c t h).lmslice = c.lmslice) rfl rfl rfl rfl t
@[simp] theorem coreSetThr_idleEn (c : Core) (t : Fin 4) (h : Thread) : (coreSetThr c t h).idleEn = c.idleEn :=
  fin4 (p := fun t => (coreSetThr c t h).idleEn = c.idleEn) rfl rfl rfl rfl t
@[simp] theorem coreSetThr_idleDelay (c : Core) (t : Fin 4) (h : Thread) : (coreSetThr c t h).idleDelay = c.idleDelay :=
  fin4 (p := fun t => (coreSetThr c t h).idleDelay = c.idleDelay) rfl rfl rfl rfl t
@[simp] theorem coreSetThr_idleSince (c : Core) (t : Fin 4) (h : Thread) : (coreSetThr c t h).idleSince = c.idleSince :=
  fin4 (p := fun t => (coreSetThr c t h).idleSince = c.idleSince) rfl rfl rfl rfl t
@[simp] theorem coreSetThr_mx (c : Core) (t : Fin 4) (h : Thread) : (coreSetThr c t h).mx = c.mx :=
  fin4 (p := fun t => (coreSetThr c t h).mx = c.mx) rfl rfl rfl rfl t
@[simp] theorem coreSetThr_caches (c : Core) (t : Fin 4) (h : Thread) : (coreSetThr c t h).caches = c.caches :=
  fin4 (p := fun t => (coreSetThr c t h).caches = c.caches) rfl rfl rfl rfl t
@[simp] theorem coreSetThr_mmu (c : Core) (t : Fin 4) (h : Thread) : (coreSetThr c t h).mmu = c.mmu :=
  fin4 (p := fun t => (coreSetThr c t h).mmu = c.mmu) rfl rfl rfl rfl t
@[simp] theorem coreSetThr_hod (c : Core) (t : Fin 4) (h : Thread) : (coreSetThr c t h).hod = c.hod :=
  fin4 (p := fun t => (coreSetThr c t h).hod = c.hod) rfl rfl rfl rfl t
@[simp] theorem coreSetThr_ends (c : Core) (t : Fin 4) (h : Thread) : (coreSetThr c t h).ends = c.ends :=
  fin4 (p := fun t => (coreSetThr c t h).ends = c.ends) rfl rfl rfl rfl t
@[simp] theorem coreSetThr_comparators (c : Core) (t : Fin 4) (h : Thread) : (coreSetThr c t h).comparators = c.comparators :=
  fin4 (p := fun t => (coreSetThr c t h).comparators = c.comparators) rfl rfl rfl rfl t
@[simp] theorem coreSetThr_dbg (c : Core) (t : Fin 4) (h : Thread) : (coreSetThr c t h).dbg = c.dbg :=
  fin4 (p := fun t => (coreSetThr c t h).dbg = c.dbg) rfl rfl rfl rfl t
@[simp] theorem coreSetThr_ccwdEn (c : Core) (t : Fin 4) (h : Thread) : (coreSetThr c t h).ccwdEn = c.ccwdEn :=
  fin4 (p := fun t => (coreSetThr c t h).ccwdEn = c.ccwdEn) rfl rfl rfl rfl t
@[simp] theorem coreSetThr_ccwdPeriod (c : Core) (t : Fin 4) (h : Thread) : (coreSetThr c t h).ccwdPeriod = c.ccwdPeriod :=
  fin4 (p := fun t => (coreSetThr c t h).ccwdPeriod = c.ccwdPeriod) rfl rfl rfl rfl t
@[simp] theorem coreSetThr_ccwdSince (c : Core) (t : Fin 4) (h : Thread) : (coreSetThr c t h).ccwdSince = c.ccwdSince :=
  fin4 (p := fun t => (coreSetThr c t h).ccwdSince = c.ccwdSince) rfl rfl rfl rfl t
@[simp] theorem coreSetThr_lostUnits (c : Core) (t : Fin 4) (h : Thread) : (coreSetThr c t h).lostUnits = c.lostUnits :=
  fin4 (p := fun t => (coreSetThr c t h).lostUnits = c.lostUnits) rfl rfl rfl rfl t
@[simp] theorem coreSetThr_lockups (c : Core) (t : Fin 4) (h : Thread) : (coreSetThr c t h).lockups = c.lockups :=
  fin4 (p := fun t => (coreSetThr c t h).lockups = c.lockups) rfl rfl rfl rfl t
@[simp] theorem coreSetThr_streams (c : Core) (t : Fin 4) (h : Thread) : (coreSetThr c t h).streams = c.streams :=
  fin4 (p := fun t => (coreSetThr c t h).streams = c.streams) rfl rfl rfl rfl t
@[simp] theorem coreSetThr_resetEnds (c : Core) (t : Fin 4) (h : Thread) : (coreSetThr c t h).resetEnds = c.resetEnds :=
  fin4 (p := fun t => (coreSetThr c t h).resetEnds = c.resetEnds) rfl rfl rfl rfl t

/-! ### Packets -/

@[simp] theorem inject_packets (s : State) (p : Packet) : (inject p s).packets = s.packets ++ [{ p with id := s.nextPkt }] := rfl
@[simp] theorem dropPacket_packets (s : State) (n : Nat) : (dropPacket n s).packets = s.packets.filter (fun p => p.id != n) := rfl

/-! ### The queue -/

/-- A step takes the command at the front; on an empty queue the always-on count goes on. -/
theorem step_cons (s : State) (i : Instr) (rest : List Instr) (h : s.pending = i :: rest) : step s = exec i { s with pending := rest } := by
  simp [step, h]

theorem step_nil (s : State) (h : s.pending = []) : step s = .next { s with aoc := s.aoc + 1 } := by
  simp [step, h, idle]

end Sys2Proof.Laws
end

