-- ==== Sys2Proof/Laws/Memory.lean ====
section
/-! SUPPORT. The byte memories: what a byte reads as after a write, and the canonical form, which every operation keeps. -/

namespace Sys2Proof.Laws

open Sys2Proof Sys2Proof.Machine

/-! ### Reading after writing -/

theorem read_write (m : List Host.Cell) (a b : Nat) (v : Byte) : Memory.read (Memory.write m a v) b = if b = a then v else Memory.read m b := by
  unfold Memory.write Memory.read
  split
  · next h => rw [mget_mdel]; simp [h]
  · exact mget_mset ..

/-- After a write of bytes from `a` on, the bytes written read as written and every other byte as before. -/
theorem read_writeN (bs : List Byte) : ∀ (m : List Host.Cell) (a b : Nat),
    Memory.read (Memory.writeN m a bs) b = if a ≤ b ∧ b < a + bs.length then bs.getD (b - a) 0 else Memory.read m b := by
  induction bs with
  | nil =>
    intro m a b
    rw [if_neg (by simp)]
    rfl
  | cons x r ih =>
    intro m a b
    simp only [Memory.writeN, ih, read_write, List.length_cons]
    by_cases h : b = a
    · subst h
      rw [if_neg (by omega), if_pos rfl, if_pos (by omega)]
      simp
    · by_cases h2 : a + 1 ≤ b ∧ b < a + 1 + r.length
      · obtain ⟨k, rfl⟩ : ∃ k, b = a + (k + 1) := ⟨b - a - 1, by omega⟩
        rw [if_pos h2, if_pos (by omega), show a + (k + 1) - (a + 1) = k by omega, show a + (k + 1) - a = k + 1 by omega]
        simp
      · rw [if_neg h2, if_neg h, if_neg (by omega)]

/-- Reading `n` bytes, byte by byte. -/
theorem readN_getD (m : List Host.Cell) : ∀ (n a i : Nat), i < n → (Memory.readN m a n).getD i 0 = Memory.read m (a + i) := by
  intro n
  induction n with
  | zero => intro a i h; omega
  | succ n ih =>
    intro a i h
    cases i with
    | zero => simp [Memory.readN]
    | succ i =>
      have := ih (a + 1) i (by omega)
      simp only [Memory.readN, List.getD_cons_succ, this]
      congr 1
      omega

@[simp] theorem readN_length (m : List Host.Cell) : ∀ (n a : Nat), (Memory.readN m a n).length = n := by
  intro n
  induction n with
  | zero => intro a; rfl
  | succ n ih => intro a; simp [Memory.readN, ih]

/-! ### The canonical form -/

/-- The form of a memory, one cell at a time: no cell is unlisted's value, and addresses rise. -/
theorem wf_cons (c : Host.Cell) (m : List Host.Cell) :
    Memory.wf (c :: m) = true ↔ c.2 ≠ Memory.unlisted ∧ (∀ e ∈ m, c.1 < e.1) ∧ Memory.wf m = true := by
  induction m generalizing c with
  | nil => simp [Memory.wf]
  | cons d r ih =>
    simp only [Memory.wf, Bool.and_eq_true, bne_iff_ne, decide_eq_true_eq, List.mem_cons, forall_eq_or_imp]
    constructor
    · rintro ⟨⟨h1, h2⟩, h3⟩
      exact ⟨h1, ⟨h2, fun e he => Nat.lt_trans h2 (((ih d).mp h3).2.1 e he)⟩, h3⟩
    · rintro ⟨h1, ⟨h2, _⟩, h3⟩
      exact ⟨⟨h1, h2⟩, h3⟩

theorem wf_mdel (m : List Host.Cell) (k : Nat) (h : Memory.wf m = true) : Memory.wf (mdel m k) = true := by
  induction m with
  | nil => rfl
  | cons c r ih =>
    rw [wf_cons] at h
    obtain ⟨h1, h2, h3⟩ := h
    unfold mdel at *
    rw [List.filter_cons]
    split
    · rw [wf_cons]
      exact ⟨h1, fun e he => h2 e ((List.mem_filter.mp he).1), ih h3⟩
    · exact ih h3

theorem mem_mset {α : Type} {m : Map α} {k : Nat} {v : α} {e : Nat × α} (h : e ∈ mset m k v) : e = (k, v) ∨ e ∈ m := by
  induction m with
  | nil => simpa [mset] using h
  | cons c r ih =>
    obtain ⟨j, w⟩ := c
    unfold mset at h
    split at h
    · simpa using h
    · split at h
      · rcases List.mem_cons.mp h with h | h
        · exact .inl h
        · exact .inr (List.mem_cons_of_mem _ h)
      · rcases List.mem_cons.mp h with h | h
        · exact .inr (h ▸ List.mem_cons_self)
        · exact (ih h).imp id (List.mem_cons_of_mem _)

theorem wf_mset (m : List Host.Cell) (k : Nat) (v : Byte) (hv : v ≠ Memory.unlisted) (h : Memory.wf m = true) : Memory.wf (mset m k v) = true := by
  induction m with
  | nil => simp [mset, Memory.wf, hv]
  | cons c r ih =>
    obtain ⟨j, w⟩ := c
    have hc := h
    rw [wf_cons] at hc
    obtain ⟨h1, h2, h3⟩ := hc
    unfold mset
    split
    · next hk =>
      rw [wf_cons]
      refine ⟨hv, fun e he => ?_, h⟩
      rcases List.mem_cons.mp he with rfl | he
      · exact hk
      · exact Nat.lt_trans hk (h2 e he)
    · split
      · next hk =>
        subst hk
        rw [wf_cons]
        exact ⟨hv, h2, h3⟩
      · next hk1 hk2 =>
        rw [wf_cons]
        refine ⟨h1, fun e he => ?_, ih h3⟩
        rcases mem_mset he with rfl | he
        · simp only; omega
        · exact h2 e he

/-- Every write keeps the canonical form. -/
theorem wf_write (m : List Host.Cell) (a : Nat) (v : Byte) (h : Memory.wf m = true) : Memory.wf (Memory.write m a v) = true := by
  unfold Memory.write
  split
  · exact wf_mdel m a h
  · next hv => exact wf_mset m a v hv h

theorem wf_writeN (bs : List Byte) : ∀ (m : List Host.Cell) (a : Nat), Memory.wf m = true → Memory.wf (Memory.writeN m a bs) = true := by
  induction bs with
  | nil => exact fun _ _ h => h
  | cons b r ih => exact fun m a h => ih _ _ (wf_write m a b h)

theorem wf_writeSkip (skip : Nat → Bool) (bs : List Byte) :
    ∀ (m : List Host.Cell) (a : Nat), Memory.wf m = true → Memory.wf (writeSkip skip m a bs) = true := by
  induction bs with
  | nil => exact fun _ _ h => h
  | cons b r ih =>
    intro m a h
    unfold writeSkip
    exact ih _ _ (by split <;> first | exact h | exact wf_write m a b h)

/-- The memories of the device at reset are in the form. -/
theorem wf_reset : Memory.wf State.reset.hbm = true ∧ Memory.wf State.reset.img.staging = true ∧ Memory.wf State.reset.rst.flash = true ∧
    Memory.wf State.reset.rst.sram = true ∧ Memory.wf State.reset.rst.fw = true ∧ ∀ p a, Memory.wf (Core.reset p a).lm = true :=
  ⟨rfl, rfl, rfl, rfl, rfl, fun _ _ => rfl⟩

end Sys2Proof.Laws
end

