-- ==== Sys2Proof/Laws/Ops.lean ====
section
/-! SUPPORT. What the shared operations do, said once: registers, records, packets, writes to the HBM stacks, and what every command keeps. -/

namespace Sys2Proof.Laws

open Sys2Proof Sys2Proof.Machine

/-! ### Registers of a thread (03 R70, R77) -/

@[simp] theorem readKey_none (h : Thread) : readKey h none = 0 := rfl

/-- A register that is written reads as written, but for gr0, and every other one as before. -/
theorem readKey_writeKey (h : Thread) (k j : Option Nat) (v : Word) :
    readKey (writeKey k v h) j = if j = k ∧ k.isSome = true then v else readKey h j := by
  cases k with
  | none => simp [writeKey]
  | some n =>
    cases j with
    | none => simp
    | some m => simp [writeKey, readKey, mget_mset]

@[simp] theorem writeKey_win (h : Thread) (k : Option Nat) (v : Word) : (writeKey k v h).win = h.win := by cases k <;> rfl
@[simp] theorem writeKey_pc (h : Thread) (k : Option Nat) (v : Word) : (writeKey k v h).pc = h.pc := by cases k <;> rfl
@[simp] theorem writeKey_run (h : Thread) (k : Option Nat) (v : Word) : (writeKey k v h).run = h.run := by cases k <;> rfl
@[simp] theorem writeKey_halted (h : Thread) (k : Option Nat) (v : Word) : (writeKey k v h).halted = h.halted := by cases k <;> rfl
@[simp] theorem writeKey_preds (h : Thread) (k : Option Nat) (v : Word) : (writeKey k v h).preds = h.preds := by cases k <;> rfl
@[simp] theorem writeKey_vregs (h : Thread) (k : Option Nat) (v : Word) : (writeKey k v h).vregs = h.vregs := by cases k <;> rfl
@[simp] theorem writeKey_status (h : Thread) (k : Option Nat) (v : Word) : (writeKey k v h).status = h.status := by cases k <;> rfl
@[simp] theorem writeKey_exc (h : Thread) (k : Option Nat) (v : Word) : (writeKey k v h).exc = h.exc := by cases k <;> rfl
@[simp] theorem writeKey_reach (h : Thread) (k : Option Nat) (v : Word) : (writeKey k v h).reach = h.reach := by cases k <;> rfl
@[simp] theorem writeKey_fp (h : Thread) (k : Option Nat) (v : Word) : (writeKey k v h).fp = h.fp := by cases k <;> rfl
@[simp] theorem writeKey_comm (h : Thread) (k : Option Nat) (v : Word) : (writeKey k v h).comm = h.comm := by cases k <;> rfl
@[simp] theorem writeKey_loads (h : Thread) (k : Option Nat) (v : Word) : (writeKey k v h).loads = h.loads := by cases k <;> rfl
@[simp] theorem writeKey_stores (h : Thread) (k : Option Nat) (v : Word) : (writeKey k v h).stores = h.stores := by cases k <;> rfl
@[simp] theorem writeKey_stepOne (h : Thread) (k : Option Nat) (v : Word) : (writeKey k v h).stepOne = h.stepOne := by cases k <;> rfl

theorem grKey_isSome (w : Window) (r : Reg) : (grKey w r).isSome = decide (r.val ≠ 0) := by
  unfold grKey
  split
  · simp_all
  · split <;> simp_all

/-- gr0 reads 0 and discards writes; two names of one windowed register are one register. -/
theorem readGr_writeGr (h : Thread) (d r : Reg) (v : Word) :
    readGr (writeGr d v h) r = if grKey h.win r = grKey h.win d ∧ d.val ≠ 0 then v else readGr h r := by
  unfold readGr writeGr
  rw [writeKey_win, readKey_writeKey, grKey_isSome]
  simp

@[simp] theorem readGr_zero (h : Thread) : readGr h 0 = 0 := by simp [readGr, grKey]

/-- Predicates: p0 reads 1 (03 R77). -/
@[simp] theorem readP_zero (h : Thread) : readP h 0 = true := rfl

/-! ### Words that end -/

theorem stepDone_eq (site : Nat) (t : Fin 4) (s : State) (h : (getThr s site t).stepOne = false) : stepDone site t s = s := by
  simp [stepDone, h]

/-! ### Records -/

/-- A record changes the management block alone. -/
theorem postRecord_frame (cls : Nat) (k : SrcKind) (code site unit addr detail : Nat) (s : State) :
    ∃ m, postRecord cls k code site unit addr detail s = { s with mgt := m } := by
  unfold postRecord
  dsimp only
  repeat' split
  all_goals exact ⟨_, rfl⟩

/-! ### What every command keeps: the queue, and the form of the HBM memory -/

def Keeps (s t : State) : Prop := t.pending = s.pending ∧ (Memory.wf s.hbm = true → Memory.wf t.hbm = true)

theorem Keeps.rfl' {s : State} : Keeps s s := ⟨rfl, id⟩
theorem Keeps.of_same {s t : State} (hp : t.pending = s.pending) (hm : t.hbm = s.hbm) : Keeps s t := ⟨hp, fun h => hm ▸ h⟩
theorem Keeps.of_empty {s t : State} (hp : t.pending = s.pending) (hm : t.hbm = []) : Keeps s t := ⟨hp, fun _ => hm ▸ rfl⟩
theorem Keeps.trans {s t u : State} (a : Keeps s t) (b : Keeps t u) : Keeps s u := ⟨b.1.trans a.1, fun h => b.2 (a.2 h)⟩
theorem Keeps.ite {s t u : State} {p : Prop} [Decidable p] (a : Keeps s t) (b : Keeps s u) : Keeps s (if p then t else u) := by
  split <;> assumption

theorem Keeps.foldl {α : Type} {f : State → α → State} (h : ∀ s x, Keeps s (f s x)) : ∀ (l : List α) (s : State), Keeps s (l.foldl f s)
  | [], _ => Keeps.rfl'
  | x :: r, s => (h s x).trans (Keeps.foldl h r (f s x))

theorem keeps_modCore (i : Nat) (f : Core → Core) (s : State) : Keeps s (modCore i f s) := .of_same rfl rfl
theorem keeps_modThr (i : Nat) (t : Fin 4) (f : Thread → Thread) (s : State) : Keeps s (modThr i t f s) := .of_same rfl rfl
theorem keeps_modUnit (i : Nat) (f : SyncUnit → SyncUnit) (s : State) : Keeps s (modUnit i f s) := .of_same rfl rfl
theorem keeps_modNode (i : Nat) (f : HbmNode → HbmNode) (s : State) : Keeps s (modNode i f s) := .of_same rfl rfl
theorem keeps_modRouter (i : Nat) (f : Router → Router) (s : State) : Keeps s (modRouter i f s) := .of_same rfl rfl
theorem keeps_modPort (i : Nat) (f : Port → Port) (s : State) : Keeps s (modPort i f s) := .of_same rfl rfl
theorem keeps_inject (p : Packet) (s : State) : Keeps s (inject p s) := .of_same rfl rfl
theorem keeps_dropPacket (n : Nat) (s : State) : Keeps s (dropPacket n s) := .of_same rfl rfl

theorem keeps_postRecord (cls : Nat) (k : SrcKind) (code site unit addr detail : Nat) (s : State) :
    Keeps s (postRecord cls k code site unit addr detail s) := by
  obtain ⟨m, h⟩ := postRecord_frame cls k code site unit addr detail s
  rw [h]
  exact .of_same rfl rfl

theorem keeps_startMigration (k p : Nat) (s : State) : Keeps s (startMigration k p s) := by
  unfold startMigration
  dsimp only
  split
  · split
    · exact keeps_modNode ..
    · exact .rfl'
  · exact keeps_postRecord ..

theorem keeps_retirePage (k p row : Nat) (s : State) : Keeps s (retirePage k p row s) := by
  unfold retirePage
  dsimp only
  split
  · exact keeps_postRecord ..
  · have h := (keeps_modNode k (fun n => { n with
      sparesUsed := mset n.sparesUsed p (mget n.sparesUsed p 0 + 1), redirected := n.redirected ++ [(p, row)] }) s).trans
        (keeps_postRecord 2 .node 0x22 (nodeSite k) p row (sparesLeft (getNode s k) p - 1) _)
    split
    · exact h.trans (keeps_startMigration ..)
    · exact h

theorem keeps_hbmUeCount (u : Nat) (s : State) : Keeps s (hbmUeCount u s) := by
  unfold hbmUeCount
  split
  · exact .rfl'
  · have h := fun (k p : Nat) => (keeps_modNode k (fun n => { n with ue := satInc n.ue, errV := true, errAddr := u * 32 }) s).trans
      (keeps_postRecord 1 .node 0x21 (nodeSite k) p (u * 32) 0 _)
    dsimp only
    split
    · exact h _ _
    · exact (h _ _).trans (keeps_retirePage ..)

/-- A write to the HBM stacks keeps the queue and the form of their memory. -/
theorem keeps_hbmWriteN (a : Nat) (bs : List Byte) (s : State) : Keeps s (hbmWriteN a bs s) := by
  have h1 : Keeps s { s with hbm := writeSkip (lostByte 32 (hbmBadAt s) a bs.length) s.hbm a bs,
                             hbmBad := s.hbmBad.filter (fun u => !(wholeSectors a bs.length).contains u) } := ⟨rfl, wf_writeSkip _ _ _ _⟩
  unfold hbmWriteN
  dsimp only
  exact (h1.trans (by split <;> exact Keeps.rfl')).trans (Keeps.foldl (fun s u => keeps_hbmUeCount u s) _ _)

theorem keeps_hbmPatch (a : Nat) (bs : List Byte) (s : State) : Keeps s (hbmPatch a bs s) := ⟨rfl, wf_writeN _ _ _⟩

theorem keeps_countPerf (site ev : Nat) (t : Fin 4) (n : Nat) (s : State) : Keeps s (countPerf site ev t n s) := by
  unfold countPerf
  dsimp only
  split
  · exact .rfl'
  · exact keeps_modCore ..

theorem keeps_sendReply (p : Packet) (b : Body) (s : State) : Keeps s (sendReply p b s) := by
  unfold sendReply injectDirect
  split <;> exact keeps_inject ..

end Sys2Proof.Laws
end

