-- ==== Sys2Proof/Laws/Words.lean ====
section
/-! SUPPORT. What the issue of a word does, said once: a long word whose guard holds performs its checks and its effect. -/

namespace Sys2Proof.Laws

open Sys2Proof Sys2Proof.Machine Sys2Proof.Safety

theorem pendingKey_none {h : Thread} {ks : List Nat} (hk : ∀ k ∈ ks, keyPending h k = false) : pendingKey h ks = none := by
  unfold pendingKey
  rw [List.find?_eq_none]
  intro k hm
  simp [hk k hm]

/-- Registers that can be used are no obstacle. -/
theorem keysReady_usable {α : Type} {h : Thread} {reads writes vecs : List Reg} {x : Except Trap α} (u : Usable h reads writes vecs) :
    keysReady h (keysOf h reads) (keysOf h writes) vecs x = x := by
  unfold keysReady
  rw [pendingKey_none u.noneAwaited]
  have h1 : h.poisonG.find? (fun e => (keysOf h reads).contains e.1) = none := by
    rw [List.find?_eq_none]
    intro e he
    simpa using u.clean e he
  have h2 : h.poisonV.find? (fun e => vecs.any (fun v => v.val == e.1)) = none := by
    rw [List.find?_eq_none]
    intro e he
    simpa using u.cleanVec e he
  simp only [h1, h2]

/-- A word that issues performs, where the command gives the form of its word. -/
theorem issue_performs {c : Ctx} {i : Instr} {s f : State} (sp : OpSpec) (h : Issues c s f) (hf : c.form ≠ .fetched) :
    issueWord c (performAs c i sp) s = afterWord (performWord c c.form sp (otherSpec c c.form) f) := by
  obtain ⟨w, hw⟩ := h.fetch
  have hp : performAs c i sp w f = some (performWord c c.form sp (otherSpec c c.form) f) := by
    unfold performAs
    split
    · exact absurd ‹_› hf
    · rfl
  have hs := h.slot
  have hh := h.noHalt
  have hn := h.noFault
  have he := h.noEvent
  unfold thr at hh hn he
  unfold issueWord
  simp only [hs, hh, he, hw, hp]
  by_cases ha : acceptsAsync (getThr s c.site.val c.thr) = true
  · simp [ha, hn ha]
  · simp [ha]

/-- A legal long word whose guard holds and whose registers can be used: its checks decide, and its effect is made once it is counted. -/
theorem long_performs {c : Ctx} {f : State} (sp os : OpSpec) (hl : LongOn c f) (legal : sp.legal = true)
    (u : Usable (thr c f) sp.useG sp.setG sp.useV) :
    performWord c c.form sp os f =
      match sp.prep f with
      | .error e => trap c.site.val c.thr false 0 e f
      | .ok d => complete c.site.val c.thr d.next (d.eff (if sp.cls = 3 then issuedVec c f else issued c f)) := by
  obtain ⟨neg, gp, hform, hguard⟩ := hl
  unfold thr at hguard u
  unfold performWord issuedVec issued
  simp only [hform, legal, hguard, prepare, keysReady_usable u]
  rfl

/-- The word of a thread that is there, issued and long. -/
theorem run_long {c : Ctx} {i : Instr} {s f : State} (sp : OpSpec) (h : Issues c s f) (hl : LongOn c f) (legal : sp.legal = true)
    (u : Usable (thr c f) sp.useG sp.setG sp.useV) :
    runWord c i sp s = .next (afterWord
      (match sp.prep f with
      | .error e => trap c.site.val c.thr false 0 e f
      | .ok d => complete c.site.val c.thr d.next (d.eff (if sp.cls = 3 then issuedVec c f else issued c f)))) := by
  unfold runWord
  have hf : c.form ≠ .fetched := by
    obtain ⟨_, _, hc, _⟩ := hl
    simp [hc]
  rw [if_pos h.thread, issue_performs sp h hf, long_performs _ _ hl legal u]

/-- A word whose checks pass and that goes on with the next word. -/
theorem run_seq {c : Ctx} {i : Instr} {s f : State} {eff : State → State} (sp : OpSpec) (h : Issues c s f) (hl : LongOn c f)
    (legal : sp.legal = true) (u : Usable (thr c f) sp.useG sp.setG sp.useV) (hp : sp.prep f = .ok ⟨eff, .seq⟩) (hc : sp.cls ≠ 3) :
    runWord c i sp s = .next (retire c (eff (issued c f))) := by
  rw [run_long sp h hl legal u, hp]
  simp [hc, complete, retire, endAt, thr]

/-- The same for a word of the vector unit. -/
theorem run_vec {c : Ctx} {i : Instr} {s f : State} {eff : State → State} (sp : OpSpec) (h : Issues c s f) (hl : LongOn c f)
    (legal : sp.legal = true) (u : Usable (thr c f) sp.useG sp.setG sp.useV) (hp : sp.prep f = .ok ⟨eff, .seq⟩) (hc : sp.cls = 3) :
    runWord c i sp s = .next (retire c (eff (issuedVec c f))) := by
  rw [run_long sp h hl legal u, hp]
  simp [hc, complete, retire, endAt, thr]

/-- A word that transfers control. -/
theorem run_jump {c : Ctx} {i : Instr} {s f : State} {eff : State → State} {a : Word} (sp : OpSpec) (h : Issues c s f) (hl : LongOn c f)
    (legal : sp.legal = true) (u : Usable (thr c f) sp.useG sp.setG sp.useV) (hp : sp.prep f = .ok ⟨eff, .jump a⟩) (hc : sp.cls ≠ 3) :
    runWord c i sp s = .next (endAt c a (eff (issued c f))) := by
  rw [run_long sp h hl legal u, hp]
  simp [hc, complete, endAt]

/-- A word that waits in a long stall after its effect. -/
theorem run_hold {c : Ctx} {i : Instr} {s f : State} {eff : State → State} {w : Wait} (sp : OpSpec) (h : Issues c s f) (hl : LongOn c f)
    (legal : sp.legal = true) (u : Usable (thr c f) sp.useG sp.setG sp.useV) (hp : sp.prep f = .ok ⟨eff, .hold w⟩) (hc : sp.cls ≠ 3) :
    runWord c i sp s = .next (afterWord (stallThread c.site.val c.thr w (eff (issued c f)))) := by
  rw [run_long sp h hl legal u, hp]
  simp [hc, complete]

/-- A word whose effect says where the thread goes on. -/
theorem run_own {c : Ctx} {i : Instr} {s f : State} {eff : State → State} (sp : OpSpec) (h : Issues c s f) (hl : LongOn c f)
    (legal : sp.legal = true) (u : Usable (thr c f) sp.useG sp.setG sp.useV) (hp : sp.prep f = .ok ⟨eff, .own⟩) (hc : sp.cls ≠ 3) :
    runWord c i sp s = .next (afterWord (eff (issued c f))) := by
  rw [run_long sp h hl legal u, hp]
  simp [hc, complete]

/-- A word whose checks find a fault. -/
theorem run_fault {c : Ctx} {i : Instr} {s f : State} {code sub tag : Nat} {ea : Word} (sp : OpSpec) (h : Issues c s f) (hl : LongOn c f)
    (legal : sp.legal = true) (u : Usable (thr c f) sp.useG sp.setG sp.useV) (hp : sp.prep f = .error (.fault code sub ea tag)) :
    runWord c i sp s = .next (afterWord (raise c.site.val c.thr false 0 code sub ea tag f)) := by
  rw [run_long sp h hl legal u, hp]
  simp [trap]

end Sys2Proof.Laws
end

