-- ==== Sys2Proof/Tests/Slice0.lean ====
section
/-! SUPPORT. Small tests: ill-formed commands are refused, and every hypothesis of a statement is met by a concrete state. A witness that
names several clauses has one conjunct, or one state, for each. -/

namespace Sys2Proof.Tests

open Sys2Proof Sys2Proof.Machine Sys2Proof.Safety

set_option maxRecDepth 8000
set_option exponentiation.threshold 2100

/-! ### Small states -/

/-- An address in the window of core site 0. -/
def pc0 : Word := 0x400000100000

/-- A long word of thread 0 of core site 0, its guard p0. -/
def w0 : Ctx := ⟨0, 0, .long false 0⟩

/-- The same word with the complement of p0 for a guard. -/
def wOff : Ctx := ⟨0, 0, .long true 0⟩

/-- A word of control core 0. -/
def wCc : Ctx := ⟨182, 0, .long false 0⟩

/-- Core site 0 on, and nothing else. -/
def core (f : Core → Core) : State := setCore State.reset 0 (f (Core.reset .on pc0))
def thread (f : Thread → Thread) : State := core (fun c => { c with thr0 := f c.thr0 })

/-- The word at the pc of thread 0 has been fetched. -/
def fetched (c : Core) : Core := { c with thr0 := { c.thr0 with fetched := some (pc0, 0, 0) } }

/-- Control core 0 on at site 182. -/
def ccore (f : Core → Core) : State := setCore State.reset 182 (f (Core.reset .on 0x400016D00000))

/-- A packet that has been handed over, and a state that holds it as packet 0. -/
def handed (cls dst src addr : Nat) (b : Body) : Packet := { mkPacket State.reset cls .machine src dst addr b with delivered := true, at_ := dst }
def holding (p : Packet) (s : State) : State := { s with packets := [p] }

/-- What makes a fetched word of thread 0 issue, apart from the fetch. -/
def issuesNow (s : State) : Bool :=
  canIssue s 0 0 && !((getCore s 0).dbg.pendHalt.getLsbD 0 && mayHalt s (getThr s 0 0)) && (getThr s 0 0).imprecise.isNone &&
  (deliverableBit (getThr s 0 0)).isNone

theorem issues_of {c : Ctx} {s f : State} {w : Word} (hc : c.site = 0 ∧ c.thr = 0) (h : issuesNow s = true)
    (hf : fetchWord 0 0 (modThr 0 0 (fun h => { h with abandoned := 0 }) s) = .word f w) : Issues c s f := by
  obtain ⟨site, t, form⟩ := c
  obtain ⟨rfl, rfl⟩ := hc
  simp only [issuesNow, Bool.and_eq_true, Option.isNone_iff_eq_none, Bool.not_eq_true'] at h
  obtain ⟨⟨⟨h1, h2⟩, h3⟩, h4⟩ := h
  exact ⟨(by decide : hasThread 0 0 = true), h1, h2, fun _ => h3, h4, ⟨w, hf⟩⟩

theorem usable_of {h : Thread} (hl : h.loads = []) (hg : h.poisonG = []) (hv : h.poisonV = []) (r w v : List Reg) : Usable h r w v := by
  constructor <;> simp [keyPending, hl, hg, hv]

theorem on_of (f : State) : LongOn w0 f := ⟨false, 0, rfl, rfl⟩

/-! ### Ill-formed commands -/

theorem test_word_needs_thread : (Instr.add ⟨0, 0, .long false 0⟩ 1 2 3).wellFormed = true ∧ (Instr.add ⟨182, 1, .long false 0⟩ 1 2 3).wellFormed = false ∧
    (Instr.add ⟨7, 0, .long false 0⟩ 1 2 3).wellFormed = false := by decide

theorem test_event_needs_thread : (Instr.threadStart 182 0).wellFormed = true ∧ (Instr.threadStart 182 3).wellFormed = false ∧
    (Instr.haltTaken 7 0).wellFormed = false := by decide

theorem test_matrix_needs_core : (Instr.tmmaCommit 0).wellFormed = true ∧ (Instr.tmmaCommit 182).wellFormed = false := by decide

theorem test_hod_needs_core : (Instr.hodCompletion 0 1).wellFormed = true ∧ (Instr.hodCompletion 182 1).wellFormed = false := by decide

theorem test_endpoint_needs_threads : (Instr.chnEpctlEn 182 1 0).wellFormed = true ∧ (Instr.chnEpctlEn 7 1 0).wellFormed = false := by decide

theorem test_debug_needs_threads : (Instr.dbgHalt 182 1).wellFormed = true ∧ (Instr.dbgHalt 7 1).wellFormed = false := by decide

theorem test_ill_formed_faults : exec (.dbgHalt 7 1) State.reset = .fault .noAgent := by rfl

theorem test_empty_queue_ticks : step State.reset = .next { State.reset with aoc := 1 } := by rfl

theorem test_front_first : step { State.reset with pending := [.mkick, .bootok] } = .next { State.reset with pending := [.bootok] } := by rfl

/-! ### Witnesses: words -/

def run0 : State := core fetched
def at0 : State := core id

theorem issues0 : Issues w0 run0 at0 := issues_of (by decide) (by decide) rfl
theorem usable0 (r w v : List Reg) : Usable (thr w0 at0) r w v := usable_of rfl rfl rfl r w v

theorem witness_StepRunsFront : ({ State.reset with pending := [.mkick] } : State).pending = Instr.mkick :: [] := rfl

theorem witness_IntegerWordsCompute : Issues w0 run0 at0 ∧ LongOn w0 at0 ∧ Usable (thr w0 at0) [1, 2] [3] [] := ⟨issues0, on_of _, usable0 _ _ _⟩

theorem witness_BitWordsAct : Issues w0 run0 at0 ∧ LongOn w0 at0 ∧ Reaches 0 0xFFFF ∧ Reaches 0 0x13FFF ∧ ¬ Reaches 0 0x14000 ∧ Reaches 1 0x14000 ∧
    ((grAt (atOf w0) at0 1).toNat + (0x14000#17).toNat) % 2 ^ 17 = 0x14000 ∧ Usable (thr w0 at0) [1] [] [] :=
  ⟨issues0, on_of _, by unfold Reaches; decide, by unfold Reaches; decide, by unfold Reaches; decide, by unfold Reaches; decide, by decide, usable0 _ _ _⟩

theorem witness_LogicWordsCompute : Issues w0 run0 at0 ∧ LongOn w0 at0 ∧ AtFirstUnit (thr w0 at0) ∧ Reaches 0 (64 * 1023) ∧
    min ((grAt (atOf w0) at0 1).toNat % 2 ^ 17) (bitRegionEnd 0 - 0) ≤ 0 ∧ Usable (thr w0 at0) [1, 2] [3] [] :=
  ⟨issues0, on_of _, by unfold AtFirstUnit; decide, by unfold Reaches; decide, by decide, usable0 _ _ _⟩

theorem witness_GuardsAndPairsAct : Issues wOff run0 at0 ∧ LongOff wOff at0 ∧ readP (thr w0 at0) (Fin.ofNat 8 0) = true ∧ Usable (thr w0 at0) [2, 3] [1] [] :=
  ⟨issues_of (by decide) (by decide) rfl, ⟨true, 0, rfl, by decide⟩, by decide, usable0 _ _ _⟩

/-- Thread 0 with a fetched word at its pc: the pair of the all-ones word, a reserved class, operation and field, ADD of gr1 and gr2 to gr3, RET, and a
pair of two ALU operations. -/
def wf : Ctx := ⟨0, 0, .fetched⟩
def runs (w : Word) : State := core (fun c => { c with thr0 := { c.thr0 with fetched := some (pc0, 0, w) } })
theorem issues_runs : Issues wf (runs 0x0000184400000000) at0 ∧
    fetchWord 0 0 (modThr 0 0 (fun h => { h with abandoned := 0 }) (runs 0x0000184400000000)) = .word at0 0x0000184400000000 :=
  ⟨issues_of (c := wf) (w := 0x0000184400000000) ⟨rfl, rfl⟩ (by decide) rfl, rfl⟩
theorem witness_GuardsAndPairsAct_fetched : (bit (BitVec.allOnes 64) 63 = true ∧ bit (BitVec.allOnes 64) 31 = true) ∧
    7 ≤ fld (0x7800000000000000 : Word) 62 59 ∧ fld (0x00C0000000000000 : Word) 58 52 = 0x0C ∧ fld (1 : Word) 32 0 ≠ 0 ∧
    decodeLong wf 0x7800000000000000 = none ∧ bit (0x0000184400000000 : Word) 63 = false ∧ fld (0x0000184400000000 : Word) 47 43 = 3 ∧
    fld (0x0000184400000000 : Word) 42 38 = 1 ∧ fld (0x0000184400000000 : Word) 37 33 = 2 ∧
    (readP (thr wf at0) (Fin.ofNat 8 (fld (0x0000184400000000 : Word) 50 48)) != bit (0x0000184400000000 : Word) 51) = true := by decide
theorem witness_GuardsAndPairsAct_decoded : decodeLong wf 0x0000184400000000 = some (.add wf 3 1 2) ∧
    decodeForm 0x0000184400000000 = .long false 0 ∧ (Instr.mov wf 3 1 ≠ .add wf 3 1 2) := by
  refine ⟨by rfl, by rfl, by simp⟩

/-- A local access that passes, at the last aligned place of the shared region, one outside, one unaligned and one of another thread's slice. -/
theorem witness_LocalAccessWordsAct : Issues w0 run0 at0 ∧ LongOn w0 at0 ∧ Undisturbed w0 at0 ∧ (getCore at0 0).lmBad = [] ∧ Usable (thr w0 at0) [1, 2] [] [] ∧
    (let ea := fun (d : BitVec 24) => effAddr (atOf w0) at0 8 (.base 2 d)
     (ea 0x17FFF8).toNat < lmBytes ∧ (ea 0x17FFF8).toNat % 8 = 0 ∧ ownReach at0 0 0 (ea 0x17FFF8).toNat 8 = true ∧
     modeLegal false (some 1) (.base 2 0x17FFF8) = true ∧ modeLegal false none (.base 2 0x17FFF8) = true ∧
     lmBytes ≤ (ea 0x180000).toNat ∧ (ea 4).toNat % 8 ≠ 0 ∧ ownReach at0 0 0 (ea 0x40000).toNat 8 = false) :=
  ⟨issues0, on_of _, by unfold Undisturbed NothingHeld; decide, rfl, usable0 _ _ _, by decide⟩

/-- The configuration under which HBM is mapped on one node: region 0 of 2^28 bytes, node 0 with every pseudo-channel mapped. -/
def withHbm (s : State) : State :=
  { s with
    img := { s.img with ilv := [(0, 0x8018_0001_0000_0000)], ring := [(0, 0)], nbase := [(0, 0)] },
    nodes := [(0, { HbmNode.reset with inService := true, pc := (List.range 8).map (fun p => (p, if p = 7 then 1 else 0)) })],
    top := { s.top with stackMap := 1, gruMap := 1 } }

def hbmAt : State := withHbm at0
def hbmRun : State := withHbm run0

theorem test_hbm_is_mapped : hbmNodeFor hbmAt 0 = some 0 ∧ hbmNodeFor hbmAt 0xFFFFFFF = some 0 ∧ hbmNodeFor hbmAt 0x10000000 = none := by decide

theorem hbm_issues : Issues w0 hbmRun hbmAt := issues_of (by decide) (by decide) rfl

/-- A register of thread 0 of core site 0, and an access of HBM address 0. -/
def load0 : Access := ⟨.machine, none, 0, 0, 8, false, false⟩
def amo0 : Access := ⟨.machine, none, 0, 0, 4, false, false⟩
def group1 : Access := ⟨.machine, some 1, BitVec.ofNat 64 (2 ^ 48), 0, 8, true, true⟩

/-- gr2 = 2^48: address 0 of device 1. -/
def grpOf (s : State) : State := modThr 0 0 (fun h => { h with gregs := [(2, BitVec.ofNat 64 (2 ^ 48))] }) s

theorem witness_DeviceAccessWordsAct : Issues w0 hbmRun hbmAt ∧ LongOn w0 hbmAt ∧
    effAddr (atOf w0) hbmAt 8 (.base 2 0) = 0 ∧ overlapWait hbmAt 0 0 load0 = none ∧ overlapWait hbmAt 0 0 amo0 = none ∧
    loadCount (thr w0 hbmAt) < 8 ∧ storeCount (thr w0 hbmAt) < 16 ∧ modeLegal true (some 1) (.base 2 0) = true ∧ modeLegal false none (.base 2 0) = true ∧
    checkDevice hbmAt 0 0 .load false 0 8 = .ok load0 ∧ checkDevice hbmAt 0 0 .store false 0 8 = .ok load0 ∧
    checkDevice hbmAt 0 0 .store true 0 4 = .ok amo0 ∧ dirtyUnion hbmAt 0 0 = none ∧
    checkGroup (grpOf hbmAt) 0 0 .load false (effAddr (atOf w0) (grpOf hbmAt) 8 (.base 2 0)) 8 = .ok group1 ∧
    checkGroup (grpOf hbmAt) 0 0 .store true (grAt (atOf w0) (grpOf hbmAt) 2) 8 = .ok group1 ∧ overlapWait (grpOf hbmAt) 0 0 group1 = none ∧
    Issues w0 (grpOf hbmRun) (grpOf hbmAt) :=
  ⟨hbm_issues, on_of _, by decide, by decide, by decide, by decide, by decide, by decide, by decide, rfl, rfl, rfl, by decide, rfl, rfl, by decide,
   issues_of (by decide) (by decide) rfl⟩

theorem witness_AccessesAreMadeOrSent : ownOffset 0 ⟨.machine, none, 0x400000000008, 0x400000000008, 8, false, false⟩ = some 8 ∧
    ownOffset 0 load0 = none ∧ policyAt hbmAt 0 load0.a load0.cd = 0 ∧ ownOffset 0 group1 = none ∧ group1.dev.isSome = true := by decide

/-- The region attribute table of core 0 makes the HBM cacheable under policy 2, and the side buffer holds line 1. -/
def cached (c : Core) : Core :=
  { c with caches := { c.caches with rat := [(0, BitVec.ofNat 64 (2 ^ 63 + 2 * 2 ^ 56 + 28 * 2 ^ 50))], rlc := { c.caches.rlc with side := [(1, 0)] } } }

def cacheAt0 : State := withHbm (core cached)
def cacheRun : State := withHbm (core (fun c => cached (fetched c)))

/-- A load of thread 0 is outstanding. -/
def busyLoad (h : Thread) : Thread := { h with loads := [outstanding load0 0 (some 1) false false] }

theorem witness_FenceAndCacheWordsAct : Issues w0 cacheRun cacheAt0 ∧ LongOn w0 cacheAt0 ∧ (thr w0 cacheAt0).loads = [] ∧ (thr w0 cacheAt0).stores = [] ∧
    (thr w0 cacheAt0).comm.sends = [] ∧ storesForced cacheAt0 0 0 = true ∧ lineAddr (atOf w0) cacheAt0 0x40 = .ok (some 1) ∧
    heldBy (thr w0 cacheAt0) none 64 64 false = none ∧ lvlOf (thr w0 cacheAt0) ≠ .user ∧ cacheableWait cacheAt0 (atOf w0) = none ∧ anyDirty cacheAt0 0 = false ∧
    checkDevice cacheAt0 0 0 .load false 0x40 1 = .ok ⟨.machine, none, 0x40, 0x40, 1, false, false⟩ ∧ wouldHit cacheAt0 0 1 = true ∧ wouldHit cacheAt0 0 0 = false ∧
    policyAt cacheAt0 0 0 false = 2 :=
  ⟨issues_of (by decide) (by decide) rfl, on_of _, rfl, rfl, rfl, by decide, rfl, by decide, by decide, by decide, by decide, rfl, by decide, by decide, by decide⟩

/-- A load outstanding, and a thread of the user level. -/
def asUser (h : Thread) : Thread := { h with status := { h.status with lvl := .user } }
theorem witness_FenceAndCacheWordsAct_waiting : ∃ f, Issues w0 (core (fun c => let d := fetched c; { d with thr0 := busyLoad d.thr0 })) f ∧ LongOn w0 f ∧
    (thr w0 f).loads ≠ [] := ⟨thread busyLoad, issues_of (by decide) (by decide) rfl, on_of _, by decide⟩

/-- The user level, and an imprecise fault or an interrupt by itself. -/
theorem witness_FenceAndCacheWordsAct_user : ∃ f, Issues w0 (core (fun c => let d := fetched c; { d with thr0 := asUser d.thr0 })) f ∧ LongOn w0 f ∧
    lvlOf (thr w0 f) = .user := ⟨thread asUser, issues_of (by decide) (by decide) rfl, on_of _, rfl⟩

/-- Registers 1 to 4 of thread 0 by their keys. -/
def regs (l : List (Nat × Word)) (h : Thread) : Thread := { h with gregs := l }

/-- Operand slots 0 (rows of A) and 1 (columns of B) of INT8 elements, 8 rows of 8 bytes each, and accumulator 0 of INT32 elements, 8 by 8. -/
def confA : Word := BitVec.ofNat 64 (2 ^ 63 + 2 ^ 56 + 2 ^ 39 + 2 ^ 16 + 2 ^ 8)
def confB : Word := confA ||| BitVec.ofNat 64 (2 ^ 54 + 2 ^ 45)
def confC : Word := BitVec.ofNat 64 (2 ^ 63 + 8 * 2 ^ 56 + 2 ^ 8 + 1)
def tiled (q : List MatOp) (c : Core) : Core :=
  { c with mx := { c.mx with slots := [(0, confA), (1, confB)], accs := [(0, ⟨confC, false, false, [], []⟩)], queue := q } }
def tile0 : State := core (tiled [])
def tileRun : State := core (fun c => tiled [] (fetched c))
theorem tile_issues : Issues w0 tileRun tile0 := issues_of (by decide) (by decide) rfl

theorem unit_of_some {α : Type} {o : Option α} (h : o.isSome = true) : ∃ u, o = some u := Option.isSome_iff_exists.mp h

/-- GATHER of no element, MEMFILL of 8 B, TLD and TST of 8 rows of 8 B, TLDA and TSTA of INT32 elements. -/
theorem witness_ResumableWordsFinish : Issues w0 tileRun tile0 ∧ LongOn w0 tile0 ∧ AtFirstUnit (thr w0 tile0) ∧
    (∃ u, unitsFrom (gatherUnit (atOf w0) 0 0 0 0) 0 0 (issued w0 tile0) = some u) ∧
    (∃ u, unitsFrom (fillUnit (atOf w0) 0 0) 0 1 (issued w0 (withHbm tile0)) = some u) ∧
    tileCheck (atOf w0) 0 0 16 tile0 = .ok () ∧ slotHeld (getCore tile0 0) confA = false ∧
    (∃ u, unitsFrom (tldRow (atOf w0) confA 0 16) 0 (slotRows confA) (issued w0 tile0) = some u) ∧ slotPoison (getCore tile0 0) confA = none ∧
    (∃ u, unitsFrom (tstRow (atOf w0) confA 0 16) 0 (slotRows confA) (issued w0 tile0) = some u) ∧ accBusy (getCore tile0 0) 0 = false ∧
    accCheck (atOf w0) false 8 0 64 8 tile0 = .ok () ∧ accCheck (atOf w0) true 8 0 64 8 tile0 = .ok () ∧
    (∃ u, unitsFrom (tldaRow (atOf w0) 8 0 64 8) 0 8 (issued w0 tile0) = some u) ∧
    (∃ u, unitsFrom (tstaRow (atOf w0) 8 0 64 8 0 false) 0 8 (issued w0 tile0) = some u) :=
  ⟨tile_issues, on_of _, by unfold AtFirstUnit; decide, unit_of_some rfl, unit_of_some rfl, rfl, by decide, unit_of_some rfl, by decide, unit_of_some rfl, by decide, rfl,
   rfl, unit_of_some rfl, unit_of_some rfl⟩

/-- FP32 and INT32 lanes, and fields without a format. -/
def f32 : VFields := ⟨7, 0, false, false, false, 0⟩
def i32 : VFields := ⟨8, 0, false, false, false, 0⟩

/-- Each vector operation with legal fields, and the integer lanes that wrap. -/
theorem witness_VecLaneWordsAct : Issues w0 run0 at0 ∧ LongOn w0 at0 ∧ readByMatrix (getCore at0 0) 0 31 = false ∧
    shortLegal .vadd f32 = true ∧ shortLegal .vsub i32 = true ∧ shortLegal .vmul ⟨1, 0, true, true, true, 0⟩ = true ∧ shortLegal .vmin f32 = true ∧
    shortLegal .vmax i32 = true ∧ shortLegal .vand ⟨0, 0, false, false, false, 0⟩ = true ∧ shortLegal .vor ⟨0, 0, false, false, false, 0⟩ = true ∧
    shortLegal .vxor ⟨0, 0, false, false, false, 0⟩ = true ∧ shortLegal .vabs f32 = true ∧ shortLegal .vneg f32 = true ∧ shortLegal .vexp2 f32 = true ∧
    shortLegal .vrcp f32 = true ∧ shortLegal .vrsq f32 = true ∧ i32.fmt = 8 ∧ i32.sat = false ∧ bit FpRegs.reset.fpcsr 7 = false :=
  ⟨issues0, on_of _, by decide⟩

theorem witness_VecMoveWordsAct : Issues w0 run0 at0 ∧ LongOn w0 at0 ∧ readByMatrix (getCore at0 0) 0 0 = false ∧
    fieldsLegal fmtShift false false .none i32 = true ∧ fieldsLegal fmtShift false false .shift i32 = true ∧ (31 : BitVec 15).toNat < 32 ∧
    fieldsLegal fmtArith false false .none f32 = true ∧ fieldsLegal fmtWide false false .none f32 = true ∧ fieldsLegal fmtArith false false .arith f32 = true ∧
    (7 : BitVec 15).toNat < 8 ∧ isIntFmt 7 = false ∧ fieldsLegal (· == 7) false false .none f32 = true := ⟨issues0, on_of _, by decide⟩

theorem witness_VecRoundedWordsAct : Issues w0 run0 at0 ∧ LongOn w0 at0 ∧ readByMatrix (getCore at0 0) 0 0 = false ∧
    fieldsLegal fmtFloat true true .none f32 = true ∧ rowLegal false false f32 5 = true ∧ rowLegal true true f32 0 = true ∧ rowLegal false true f32 5 = true ∧
    fieldsLegal fmtArith true true .arith f32 = true ∧ fieldsLegal fmtArith false false .arith i32 = true := ⟨issues0, on_of _, by decide⟩

theorem witness_VecConvertWordsAct : Issues w0 run0 at0 ∧ LongOn w0 at0 ∧ readByMatrix (getCore at0 0) 0 0 = false ∧ readByMatrix (getCore at0 0) 0 1 = false ∧
    cvtLegal ⟨7, 0, false, false, false, 5⟩ 1 0 1 = true ∧ (1 : BitVec 15).toNat < 2 ∧ (0x1E0 : BitVec 15).toNat < 512 ∧ (0x1E0 : BitVec 15).toNat % 256 ≤ 224 ∧
    laneLegal f32 31 = true ∧ fieldsLegal fmtWide false false .none f32 = true ∧ (1 : Reg) ≠ 0 := ⟨issues0, on_of _, by decide⟩

/-- A transfer at the last place, and one whose second word is uncorrectable. -/
theorem witness_VecTransferWordsAct : (∃ f, Issues w0 (core (fun c => { fetched c with thr0 := regs [(2, 0x17FF80)] (fetched c).thr0 })) f ∧ LongOn w0 f ∧
    grAt (atOf w0) f 2 = 0x17FF80 ∧ ownReach f 0 0 0x17FF80 128 = true ∧ (lmFirstBad f 0 0x17FF80 128).isSome = false) ∧
    ∃ f, Issues w0 (core (fun c => { fetched c with lmBad := [1] })) f ∧ LongOn w0 f ∧ ownReach f 0 0 0 128 = true ∧ (lmFirstBad f 0 0 128).isSome = true ∧
      readByMatrix (getCore f 0) 0 0 = false :=
  ⟨⟨core (fun c => { c with thr0 := regs [(2, 0x17FF80)] c.thr0 }), issues_of (by decide) (by decide) rfl, on_of _, by decide⟩,
   ⟨core (fun c => { c with lmBad := [1] }), issues_of (by decide) (by decide) rfl, on_of _, by decide⟩⟩

/-- A thread with six resident frames, or at the limit of its spill area, with gr1 and gr15 addressing its own local memory. -/
def full (h : Thread) : Thread := { h with gregs := [(1, pc0), (15, pc0)], win := { h.win with res := 6, limit := 6 } }
def atLimit (h : Thread) : Thread := { h with win := { h.win with res := 6, limit := 5 } }
def oneFrame (h : Thread) : Thread := { h with gregs := [(1, pc0), (15, pc0)], win := { h.win with res := 1, limit := 6 } }
def bottom (h : Thread) : Thread := { h with gregs := [(1, pc0), (15, pc0)] }
def fetchedBy (k : Thread → Thread) : State := core (fun c => { fetched c with thr0 := k (fetched c).thr0 })

theorem witness_ControlWordsTransfer : Issues w0 run0 at0 ∧ LongOn w0 at0 ∧ checkJump at0 0 0 pc0 = .ok () ∧ (thr w0 at0).win.res ≠ 6 ∧
    (thr w0 at0).pc + (0 : BitVec 26).signExtend 64 * 8 = pc0 := ⟨issues0, on_of _, rfl, by decide, by decide⟩

theorem witness_ControlWordsTransfer_return : Issues w0 (fetchedBy oneFrame) (thread oneFrame) ∧ LongOn w0 (thread oneFrame) ∧
    0 < (thr w0 (thread oneFrame)).win.res ∧ grAt (atOf w0) (thread oneFrame) 15 = pc0 ∧ checkJump (thread oneFrame) 0 0 pc0 = .ok () :=
  ⟨issues_of (by decide) (by decide) rfl, on_of _, by decide, by decide, rfl⟩

theorem witness_ControlWordsTransfer_spill : Issues w0 (fetchedBy full) (thread full) ∧ LongOn w0 (thread full) ∧ (thr w0 (thread full)).win.res = 6 ∧
    (thr w0 (thread full)).win.wsp.toNat + 6 ≤ (thr w0 (thread full)).win.limit.toNat ∧ touchesOtherSlice (thread full) 0 0 0 768 = false ∧
    touchesOtherSlice (thread full) 0 0 0 128 = false ∧ grAt (atOf w0) (thread full) 1 = pc0 ∧ checkJump (thread full) 0 0 pc0 = .ok () ∧
    (∀ p, Usable (thr w0 (thread full)) [] [] [] ∧ (∀ k ∈ frameKeys p, keyPending (thr w0 (thread full)) k = false) ∧
      ∀ e ∈ (thr w0 (thread full)).poisonG, ¬ e.1 ∈ frameKeys p) :=
  ⟨issues_of (by decide) (by decide) rfl, on_of _, by decide, by decide, by decide, by decide, by decide, rfl, fun _ => ⟨usable_of rfl rfl rfl _ _ _,
    fun _ _ => rfl, fun _ h => nomatch h⟩⟩

theorem witness_ControlWordsTransfer_limit : Issues w0 (fetchedBy atLimit) (thread atLimit) ∧ LongOn w0 (thread atLimit) ∧
    (thr w0 (thread atLimit)).win.limit.toNat < (thr w0 (thread atLimit)).win.wsp.toNat + (thr w0 (thread atLimit)).win.res :=
  ⟨issues_of (by decide) (by decide) rfl, on_of _, by decide⟩

theorem witness_ControlWordsTransfer_underflow : Issues w0 (fetchedBy bottom) (thread bottom) ∧ LongOn w0 (thread bottom) ∧
    (thr w0 (thread bottom)).win.res = 0 ∧ (thr w0 (thread bottom)).win.wsp = (thr w0 (thread bottom)).win.base ∧
    grAt (atOf w0) (thread bottom) 15 = pc0 ∧ checkJump (thread bottom) 0 0 pc0 = .ok () :=
  ⟨issues_of (by decide) (by decide) rfl, on_of _, by decide, by decide, by decide, rfl⟩

/-- A configuration that is taken, one that is refused, operations that may enter, and a row of an accumulator that is moved. -/
theorem witness_TilesAct : Issues w0 tileRun tile0 ∧ LongOn w0 tile0 ∧ isCcSite 0 = false ∧ slotUsed (getCore tile0 0) 0 = false ∧
    confError (getCore tile0 0) .machine 0 0 confA = 0 ∧ confError (getCore tile0 0) .machine 0 0 1 = 1 ∧ opsOf (getCore tile0 0) 0 < 2 ∧
    opCheck (getCore tile0 0) 0 (tpendValid (thr w0 tile0)) (.tmma 8 0 1 false false) = .ok () ∧
    opCheck (getCore tile0 0) 0 (tpendValid (thr w0 tile0)) (.tzero 8) = .ok () ∧ accBusy (getCore tile0 0) 0 = false ∧
    moveCheck (atOf w0) 8 7 tile0 = .ok () ∧ readByMatrix (getCore tile0 0) 0 31 = false :=
  ⟨tile_issues, on_of _, by decide, by decide, by decide, by decide, by decide, rfl, rfl, by decide, rfl, by decide⟩

/-- The scale operation of an FP32 accumulator. -/
theorem witness_TilesAct_scale : opCheck { tiled [] (Core.reset .on pc0) with mx := { Matrix.reset with
    accs := [(0, ⟨BitVec.ofNat 64 (2 ^ 63 + 7 * 2 ^ 56 + 2 ^ 8 + 1), false, false, [], []⟩)] } } 0 false (.tscale 8 31) = .ok () := rfl

/-- An operation at the front of the unit, before and after it has begun. -/
theorem witness_TilesAct_unit : isCoreSite 0 = true ∧ (getCore (core (tiled [⟨0, .tzero 8, false, [], [], [], false⟩])) 0).mx.queue =
      ⟨0, .tzero 8, false, [], [], [], false⟩ :: [] ∧
    (getCore (core (tiled [⟨0, .tzero 8, true, [], [], [], false⟩])) 0).mx.queue = ⟨0, .tzero 8, true, [], [], [], false⟩ :: [] ∧ opAcc (.tzero 8) = 0 :=
  ⟨by decide, rfl, rfl, by decide⟩

/-- A word of control core 0 that issues. -/
def ccRun : State := ccore (fun c => { c with thr0 := { c.thr0 with fetched := some (0x400016D00000, 0, 0) } })
def ccAt : State := ccore id
theorem cc_issues : Issues wCc ccRun ccAt :=
  ⟨(by decide : hasThread 182 0 = true), (by decide : canIssue ccRun 182 0 = true), by decide, fun _ => rfl, by decide, ⟨_, rfl⟩⟩

/-- A state whose thread 0 of core site 0 is changed, with the anchor of cluster 0 in service. -/
def served (s : State) : State := modRouter (anchorOf 0) (fun r => { r with inService := true }) (modRouter 0 (fun r => { r with inService := true }) s)

def holdsWatch (h : Thread) : Thread := { h with comm := { h.comm with watches := [(0, .holding 0 5)] } }
theorem witness_CsrWordsMove : Issues w0 run0 at0 ∧ LongOn w0 at0 ∧ csrAssigned (atOf w0) 0x100 = true ∧ csrAllowed (atOf w0) at0 false 0x100 = true ∧
    csrAllowed (atOf w0) at0 true 0x100 = true ∧ csrW1c 0x100 = 0 ∧ lvlOf (thr w0 at0) = .machine := ⟨issues0, on_of _, by decide⟩

theorem witness_CsrWordsMove_denied : Issues w0 (fetchedBy asUser) (thread asUser) ∧ LongOn w0 (thread asUser) ∧
    csrAssigned (atOf w0) 0x100 = true ∧ csrAllowed (atOf w0) (thread asUser) false 0x120 = true ∧ csrAllowed (atOf w0) (thread asUser) true 0x100 = false ∧
    csrAllowed (atOf w0) (thread asUser) false 0x131 = false ∧ csrAssigned (atOf w0) 0x131 = true :=
  ⟨issues_of (by decide) (by decide) rfl, on_of _, by decide⟩

theorem witness_CsrWordsMove_named : Issues w0 (fetchedBy holdsWatch) (thread holdsWatch) ∧ lvlOf (thr w0 (thread holdsWatch)) = .machine ∧
    oldestWatch (thr w0 (thread holdsWatch)).comm = some (0, 0, 5) ∧ Issues wCc ccRun ccAt ∧ LongOn wCc ccAt ∧ lvlOf (thr wCc ccAt) = .machine ∧
    isCcSite 182 = true := ⟨issues_of (by decide) (by decide) rfl, by decide, by decide, cc_issues, ⟨false, 0, rfl, rfl⟩, by decide, by decide⟩

/-- A doorbell of the own device, and an endpoint with a message in it. -/
def bell : Word := BitVec.ofNat 64 (0x600000003000)
def ready (c : Core) : Core := { c with ends := [(0, { Endpoint.reset with ctl := ⟨true, false, .on⟩, prod := 1 })] }
theorem witness_MessageWordsAct : Issues w0 run0 at0 ∧ LongOn w0 at0 ∧ (248 : BitVec 24).toNat < 256 ∧ (248 : BitVec 24).toNat % 8 = 0 ∧
    (thr w0 at0).comm.sends.length < 4 ∧ (∃ u, sendAttempt 0 0 0 [] 1 false (setP (atOf w0) 1 false (issued w0 at0)) = (true, u)) ∧
    readyMask at0 0 0 &&& 1 = 0 ∧ readyMask (core ready) 0 0 &&& 1 ≠ 0 := ⟨issues0, on_of _, by decide, by decide, by decide, ⟨_, rfl⟩, by decide, by decide⟩

theorem witness_MessageWordsAct_bell : ∃ d, checkBell (served at0) (lvlOf (thr w0 (served at0))) d = .ok () ∧ Issues w0 (served run0) (served at0) := by
  refine ⟨bell, ?_, issues_of (by decide) (by decide) rfl⟩
  have h1 : fld bell 63 57 = 0 := by decide
  have h2 : doorbellOf (fld bell 47 0) = some (0, .request 0) := by decide
  have h3 : hasThreads 0 = true := by decide
  have h4 : fld bell 56 48 = ownDev (served at0) := by decide
  have h5 : coreInService (served at0) 0 = true := by decide
  unfold checkBell
  simp only [h1, h2, h3, ← h4, h5]
  rfl

/-- Lock and barrier 0 of cluster 0 as operands; every handle free, and none. -/
def noHandle (h : Thread) : Thread := { h with comm := { h.comm with watches := (List.range 8).map (fun i => (i, .registered 0)) } }
theorem witness_SyncWordsAct : Issues w0 (served run0) (served at0) ∧ LongOn w0 (served at0) ∧ lockOf (lockAddr 0 255) = some (0, 255) ∧
    unitGone (served at0) 0 0 = false ∧ lockOf 0 = none ∧ barOf (barAddr 0 63) = some (clusterOf 0, 63) ∧ storesForced (served at0) 0 0 = true ∧
    (thr w0 (served at0)).comm.bara.length < 4 ∧ watchTarget (lockAddr 0 255) = some 0 ∧ lvlOf (thr w0 (served at0)) ≠ .user ∧
    firstBit 8 (fun i => mget (thr w0 (served at0)).comm.watches i .free == .free) = some 0 ∧
    firstBit 8 (fun i => mget (noHandle (thr w0 at0)).comm.watches i .free == .free) = none ∧ syncPending (served at0) 0 0 = false :=
  ⟨issues_of (by decide) (by decide) rfl, on_of _, by decide⟩

/-- A ring that is on, with room for one descriptor and without. -/
def ringOn (n : Nat) (c : Core) : Core := { c with hod := [(0, { HodRing.reset with ctl := ⟨true, false, .on⟩, out := n })] }
theorem witness_HodWordsPost : Issues w0 (core (fun c => ringOn 0 (fetched c))) (core (ringOn 0)) ∧ Issues w0 (core (fun c => ringOn 1 (fetched c))) (core (ringOn 1)) ∧
    LongOn w0 (core (ringOn 0)) ∧ isCcSite 0 = false ∧ storesForced (core (ringOn 0)) 0 0 = true ∧ (getRing (core (ringOn 0)) 0 0).ctl.gate = .on ∧
    (getRing (core (ringOn 0)) 0 0).out + 1 ≤ 2 ^ (getRing (core (ringOn 0)) 0 0).rlog ∧
    2 ^ (getRing (core (ringOn 1)) 0 0).rlog < (getRing (core (ringOn 1)) 0 0).out + 1 ∧
    (getRing (core (ringOn 0)) 0 0).cred + 65535 ≤ 65535 ∧ (getRing at0 0 0).ctl.gate ≠ .on :=
  ⟨issues_of (by decide) (by decide) rfl, issues_of (by decide) (by decide) rfl, on_of _, by decide⟩

/-- A gate entry for callers of the machine level, whose fetch has returned; a thread whose exception returns to `pc0`. -/
def gate0 : BitVec 512 := 0xC20000400000100000
def calls (h : Thread) : Thread := { h with gateFetch := some (0, 0, some gate0), exc := { h.exc with gtab := BitVec.ofNat 64 (2 ^ 52), epc := pc0 } }
theorem witness_GateAndReturn : Issues w0 (fetchedBy calls) (thread calls) ∧ LongOn w0 (thread calls) ∧ (thr w0 (thread calls)).status.df = false ∧
    opsOf (getCore (thread calls) 0) 0 = 0 ∧ (thr w0 (thread calls)).status.exl = false ∧
    (0 : BitVec 12).toNat < fld (thr w0 (thread calls)).exc.gtab 63 52 ∧ gateMalformed (parseGate gate0) .machine = false ∧ (parseGate gate0).val = true ∧
    (parseGate gate0).callers.testBit 2 = true ∧ (parseGate gate0).argc = 0 ∧ (parseGate gate0).stk = 0 ∧
    reachable (thread calls) 0 (levelOf (parseGate gate0).tlvl) (parseGate gate0).entry = true ∧ Undisturbed w0 (thread calls) ∧
    reachable (thread calls) 0 (thr w0 (thread calls)).status.plvl (thr w0 (thread calls)).exc.epc = true ∧ tpendValid (thr w0 (thread calls)) = false :=
  ⟨issues_of (by decide) (by decide) rfl, on_of _, by decide, by decide, by decide, by decide, by decide, by decide, by decide, by decide, by decide, by decide,
   by unfold Undisturbed NothingHeld; decide, by decide, by decide⟩

/-- Event bit 3 is set; gr1 asks for it, or to park. -/
def waits (h : Thread) : Thread := { h with gregs := [(1, 8)], exc := { h.exc with event := 8 } }
def parks (h : Thread) : Thread := { h with gregs := [(1, BitVec.ofNat 64 (2 ^ 63))] }
theorem witness_WaitAndBreakWords : Issues w0 (fetchedBy waits) (thread waits) ∧ LongOn w0 (thread waits) ∧ bit (grAt (atOf w0) (thread waits) 1) 63 = false ∧
    (grAt (atOf w0) (thread waits) 1).setWidth 32 ≠ 0 ∧ (thr w0 (thread waits)).exc.event &&& 8 ≠ 0 ∧ Issues w0 (fetchedBy parks) (thread parks) ∧
    bit (grAt (atOf w0) (thread parks) 1) 63 = true ∧ lvlOf (thr w0 (thread parks)) = .machine ∧ (thr w0 (thread parks)).exc.event.getLsbD 0 = false ∧
    Undisturbed w0 (thread parks) ∧ lvlOf (thr w0 (thread (fun h => parks (asUser h)))) ≠ .machine :=
  ⟨issues_of (by decide) (by decide) rfl, on_of _, by decide, by decide, by decide, issues_of (by decide) (by decide) rfl, by decide, by decide, by decide,
   by unfold Undisturbed NothingHeld; decide, by decide⟩

/-- Asynchronous causes: an imprecise fault, an event, a parked thread that is to start, and a core that is stuck. -/
def faulty (h : Thread) : Thread := { h with imprecise := some ⟨6, 0, 0, false⟩ }
def eventful (h : Thread) : Thread := { h with exc := { h.exc with event := 2, evmask := 2 }, status := { h.status with eie := true } }
def asleep (h : Thread) : Thread := { h with run := .parked, exc := { h.exc with event := 1, mvec := 0x400000100000 } }
theorem witness_AsynchronousCausesAct : hasThread 0 0 = true ∧ atBoundary (thread faulty) 0 0 = true ∧ acceptsAsync (getThr (thread faulty) 0 0) = true ∧
    (getThr (thread faulty) 0 0).imprecise = some ⟨6, 0, 0, false⟩ ∧ atBoundary (thread eventful) 0 0 = true ∧ (getThr (thread eventful) 0 0).imprecise = none ∧
    deliverableBit (getThr (thread eventful) 0 0) = some 1 ∧ (getThr (thread asleep) 0 0).run = .parked ∧ (getThr (thread asleep) 0 0).halted = false ∧
    (getThr (thread asleep) 0 0).exc.event.getLsbD 0 = true ∧ (getCore (thread asleep) 0).power = .on ∧ (getThr (thread asleep) 0 0).status.df = false ∧
    (getCore (thread asleep) 0).mx.queue = [] ∧ reachable (thread asleep) 0 .machine (vectorOf (getThr (thread asleep) 0 0).exc .machine 0x11) = true ∧
    isCoreSite 0 = true ∧ coreRuns at0 0 = true := by decide

/-- Every thread of core site 0 waits or is parked, and the delay has passed. -/
def stuck : State := modUnit 0 (fun u => { u with pace := 0x1000 })
  (core (fun c => { c with idleSince := some 0, thr0 := { c.thr0 with run := .stalled (.event 1) } }))
theorem witness_AsynchronousCausesAct_idle : idleDue stuck 0 = true ∧ acceptsAsync (getThr stuck 0 0) = true := by decide

/-- Request 7 of thread 0, as a load, as a store and as a fetch, and its answer. -/
def reply7 : Packet := handed 1 0 182 0 (.memReply 7 0 (.data 5))
def loading : State := holding reply7 (thread (fun h => { h with loads := [outstanding load0 7 (some 1) false false] }))
def storing : State := holding reply7 (thread (fun h => { h with stores := [outstanding load0 7 none false false] }))
def fetching : State := holding reply7 (core (fun c => { c with caches := { c.caches with icache := { c.caches.icache with
  misses := [⟨7, 0, .demand 0, [], 0, [], false⟩] } } }))
theorem witness_AnswersEndLoads : arrived loading 0 = some reply7 ∧ isStoreReq loading 0 7 = false ∧ isFetchReq loading 0 7 = false ∧
    (loadOf (acceptReply reply7 loading) 0 7).isSome = true ∧ isStoreReq storing 0 7 = true ∧ isFetchReq fetching 0 7 = true ∧
    (getThr loading 0 0).run = .running ∧ (getThr loading 0 0).imprecise = none ∧
    (outstanding load0 7 (some 1) false false).dst = some 1 := by decide

theorem witness_AnswersEndLoads_unreachable : arrived (holding (handed 1 0 182 0 (.unreachable (.memReq 7 0 (.load 8)))) loading) 0 =
    some (handed 1 0 182 0 (.unreachable (.memReq 7 0 (.load 8)))) := rfl

/-- Packet 0 at the unit of cluster 0, from core site 0; packet 0 at core site 0, from that unit. -/
def toUnit (b : Body) : Packet := handed 2 (anchorOf 0) 0 0 b
def fromUnit (b : Body) : Packet := handed 1 0 (anchorOf 0) 0 b
def unit0 (p : Packet) (f : SyncUnit → SyncUnit) : State := holding p (modUnit 0 f (served at0))
def locked (o : Option Nat) (ws : List Nat) (u : SyncUnit) : SyncUnit := { u with locks := [(3, { Lock.reset with owner := o, waiters := ws })] }

/-- A request for a free lock and for one that thread 9 owns; UNLOCK of the owner without and with a waiter, and of another thread. -/
theorem witness_LocksAct : atUnit (unit0 (toUnit (.lockReq 3 7168 0)) id) 0 = some (toUnit (.lockReq 3 7168 0)) ∧ clusterOf (anchorOf 0) = 0 ∧
    (getUnit (unit0 (toUnit (.lockReq 3 7168 0)) id) 0).watches = [] ∧ (getLock (unit0 (toUnit (.lockReq 3 7168 0)) id) 0 3).owner = none ∧
    siteOfThid at0 7168 = some (182, 0) ∧ waitersUsed (getUnit (unit0 (toUnit (.lockReq 3 7168 0)) (locked (some 9) [])) 0) < 1024 ∧
    (getLock (unit0 (toUnit (.lockReq 3 7168 0)) (locked (some 9) [])) 0 3).owner = some 9 ∧
    atUnit (unit0 (toUnit (.unlock 3 9 0)) (locked (some 9) [])) 0 = some (toUnit (.unlock 3 9 0)) ∧
    (getLock (unit0 (toUnit (.unlock 3 9 0)) (locked (some 9) [])) 0 3).waiters = [] ∧
    (getLock (unit0 (toUnit (.unlock 3 9 0)) (locked (some 9) [1])) 0 3).waiters = 1 :: [] ∧
    (getLock (unit0 (toUnit (.unlock 3 9 0)) id) 0 3).owner ≠ some 9 := by decide

/-- A thread that waits for lock 3, the grant, a retry that is due, and the two notices. -/
def locks (h : Thread) : Thread := { h with run := .stalled (.lock (lockAddr 0 3) 1), comm := { h.comm with lockDue := some 0 } }
def granted : Packet := fromUnit (.grant 3 0 true 0 1 0)
theorem witness_LocksAct_core : arrived (holding granted (thread locks)) 0 = some granted ∧ granted.dsite = 0 ∧
    (getThr (holding granted (thread locks)) 0 0).run = .stalled (.lock (lockAddr 0 3) 1) ∧ (getThr (holding granted (thread locks)) 0 0).halted = false ∧
    (getThr (holding granted (thread locks)) 0 0).comm.held.length < 16 ∧ (getThr (thread locks) 0 0).comm.lockDue = some 0 ∧
    0 ≤ (paceOf (thread locks) 0).toNat ∧ lockOf (lockAddr 0 3) = some (0, 3) ∧
    atUnit (unit0 (toUnit (.ownerReset 5)) id) 0 = some (toUnit (.ownerReset 5)) ∧
    arrived (holding (fromUnit (.unitLost 2)) at0) 0 = some (fromUnit (.unitLost 2)) ∧ (fromUnit (.unitLost 2)).sdev = ownDev at0 ∧ 2 ≠ at0.img.desig := by decide

/-- Barrier 4 with one and with two arrivals expected; a barrier that is idle and one that is not. -/
def barred (f : Barrier → Barrier) (u : SyncUnit) : SyncUnit := { u with bars := [(4, f Barrier.reset)] }
def arrive4 : Packet := toUnit (.arrive 4 0 true true 0)
theorem witness_BarriersAct : atUnit (unit0 arrive4 (barred (fun b => { b with lexp := 1, scope := 1 }))) 0 = some arrive4 ∧ arrive4.ssite < 2048 ∧
    (getUnit (unit0 arrive4 (barred (fun b => { b with lexp := 1, scope := 1 }))) 0).watches = [] ∧
    arrivalCheck (barred (fun b => { b with lexp := 1, scope := 1 }) SyncUnit.reset) { Barrier.reset with lexp := 1, scope := 1 } (barIndex 0 0) 0 true = none ∧
    arrivalCheck (barred (fun b => { b with lexp := 2, scope := 1 }) SyncUnit.reset) { Barrier.reset with lexp := 2, scope := 1 } (barIndex 0 0) 0 true = none ∧
    barIdle Barrier.reset = true ∧ barIdle { Barrier.reset with lexp := 2, lcount := 1, arrived := 1 } = false ∧ bit (0 : Word) 1 = false ∧
    ({ at0 with top := { at0.top with role := 1 } } : State).top.role ≠ 0 := by decide

/-- A combined arrival, a device arrival, a release copy, and the notice for a thread that waits. -/
def bars (h : Thread) : Thread := { h with run := .stalled (.barrier 0 4 1) }
theorem witness_BarriersAct_beyond : atUnit (unit0 (toUnit (.combined 4 0 1)) (barred (fun b => { b with total := 2 }))) 0 = some (toUnit (.combined 4 0 1)) ∧
    (getUnit (unit0 (toUnit (.combined 4 0 1)) id) 0).watches = [] ∧ at0.img.desig = 0 ∧
    (getBar (unit0 (toUnit (.combined 4 0 1)) (barred (fun b => { b with total := 2 }))) 0 4).count + 1 <
      (getBar (unit0 (toUnit (.combined 4 0 1)) (barred (fun b => { b with total := 2 }))) 0 4).total.toNat ∧
    atUnit (unit0 (toUnit (.deviceArrival 4 0)) (barred (fun b => { b with gdev := 2 }))) 0 = some (toUnit (.deviceArrival 4 0)) ∧
    (getBar (unit0 (toUnit (.deviceArrival 4 0)) (barred (fun b => { b with gdev := 2 }))) 0 4).gcount + 1 ≠
      (getBar (unit0 (toUnit (.deviceArrival 4 0)) (barred (fun b => { b with gdev := 2 }))) 0 4).gdev.toNat ∧
    atUnit (unit0 (toUnit (.release 4 1)) id) 0 = some (toUnit (.release 4 1)) ∧
    arrived (holding (fromUnit (.notice 0 4 1 0 1 0)) (thread bars)) 0 = some (fromUnit (.notice 0 4 1 0 (1#4 <<< 0) 0)) ∧
    (getThr (holding (fromUnit (.notice 0 4 1 0 1 0)) (thread bars)) 0 0).run = .stalled (.barrier 0 4 1) := by decide

/-- A registration that is refused and one that is taken, a match, an end of a watch, a limit that has passed, and a message for a slot. -/
def watched (u : SyncUnit) : SyncUnit := { u with watches := [(0, newWatch at0 0 0 1 (lockAddr 0 3) 0 0)] }
def watchedWin (u : SyncUnit) : SyncUnit := { u with watches := [(0, newWatch at0 0 0 1 (windowAddr 0 0x100000) 0 0)] }
theorem witness_WatchesAndPaceAct_match : matchAwaited (unit0 (toUnit (.wordMatch 0 0)) watchedWin) 0 0 0 = true := by decide

theorem witness_WatchesAndPaceAct : atUnit (unit0 (toUnit (.watchReg 1 (lockAddr 0 3) (BitVec.allOnes 64) 0)) id) 0 =
      some (toUnit (.watchReg 1 (lockAddr 0 3) (BitVec.allOnes 64) 0)) ∧ badCond (BitVec.allOnes 64) = true ∧ badCond 0 = false ∧
    (lockOf (lockAddr 0 3)).isSome = true ∧ firstBit 256 (fun i => (mfind (getUnit (unit0 (toUnit (.wordMatch 0 0)) id) 0).watches i).isNone) = some 0 ∧
    firstBit 256 (fun i => (mfind (getUnit (unit0 (toUnit (.wordMatch 0 0)) watched) 0).watches i).isNone) = some 1 ∧
    atUnit (unit0 (toUnit (.wordMatch 0 0)) id) 0 = some (toUnit (.wordMatch 0 0)) ∧
    atUnit (unit0 (toUnit (.unwatch (lockAddr 0 3) 0)) id) 0 = some (toUnit (.unwatch (lockAddr 0 3) 0)) ∧
    mfind (watched SyncUnit.reset).watches 0 = some (newWatch at0 0 0 1 (lockAddr 0 3) 0 0) ∧
    arrived (holding (fromUnit (.watchMsg 0 0 1 0)) (thread (fun h => { h with comm := { h.comm with watches := [(1, .registered 8)] } }))) 0 =
      some (fromUnit (.watchMsg 0 0 1 0)) := by decide

theorem witness_WatchesAndPaceAct_limit :
    let w : Watch := { newWatch at0 0 0 1 (lockAddr 0 3) 0x20000000 0 with due := some 0 }
    mfind (getUnit (modUnit 0 (fun u => { u with watches := [(0, w)] }) at0) 0).watches 0 = some w ∧ 0 ≤ SyncUnit.reset.pace.toNat ∧
    regionOf w.target = .deviceReg (w.target - deviceRegBase) ∧ watchHolds w.cond (watchedWord at0 w.target) = false := by decide

/-- A vector that can be reached, one that cannot, and a fault during entry in both cases. -/
def vectored (m : Word) (exl df : Bool) : State :=
  thread (fun h => { h with exc := { h.exc with mvec := m }, status := { h.status with exl := exl, df := df } })
theorem witness_ExceptionEntrySaves : targetLevel (getThr (vectored pc0 false false) 0 0) (mkCause 1 0 0) = .machine ∧
    reachable (vectored pc0 false false) 0 .machine (pc0 + 64) = true ∧ reachable (vectored pc0 true false) 0 .machine pc0 = true ∧
    reachable (vectored 0x400000180000 true false) 0 .machine 0x400000180000 = false ∧
    reachable (vectored 0x40000017FFC0 false false) 0 .machine 0x40000017FFC0 = true ∧
    reachable (vectored 0x40000017FFC0 false false) 0 .machine (0x40000017FFC0 + 64) = false ∧ ccOf 0 = none := by decide

theorem witness_WordsKeepTheRest : Issues w0 run0 at0 ∧ Undisturbed w0 at0 := ⟨issues0, by unfold Undisturbed NothingHeld; decide⟩

theorem witness_QueueKept : step State.reset = .next { State.reset with aoc := 1 } := by rfl

theorem witness_MemoryOkKept : MemoryOk State.reset ∧ step State.reset = .next { State.reset with aoc := 1 } := ⟨by unfold MemoryOk; decide, by rfl⟩

/-- Packet 0, not yet handed over, at the router of site 0, which is in service; its table entry for site 1 leads down. -/
def underway (cls dst strm : Nat) (b : Body) : Packet :=
  { mkPacket State.reset cls .machine 0 dst 0 b with strm := strm }
def routed (e : BitVec 16) (p : Packet) : State :=
  holding p (modRouter 0 (fun r => { r with inService := true, link := [(2, 1)], siteTable := [(0, 0x8000), (1, e)] }) at0)
def reply1 : Packet := underway 1 1 0xF (.imgPacket 0 [])

/-- Eight replies fill the buffer that the link of port 2 leads to; a SYNC packet goes before a reply. -/
def crowded : State := let s := routed 0xA000 reply1
  { s with packets := reply1 :: List.replicate 8 { reply1 with id := 9, at_ := 1, inPort := 1 } }
def outranked : State := let s := routed 0xA000 reply1
  { s with packets := [reply1, { underway 0 1 0xF (.unlock 0 0 0) with id := 9 }] }
theorem witness_RoutersAct : findPacket (routed 0xA000 reply1) 0 = some reply1 ∧ reply1.delivered = false ∧
    heldAtGate (routed 0xA000 (underway 3 1 0xF (.imgPacket 0 []))) (underway 3 1 0xF (.imgPacket 0 [])) = false ∧
    (getRouter (routed 0xA000 reply1) 0).inService = true ∧ headerBad reply1 = false ∧ headerBad { reply1 with cls := 6 } = true ∧ entryValid 0xA000 = true ∧
    entryValid 0x2000 = false ∧ entryAen 0xA000 = false ∧ entryPri 0xA000 = 2 ∧ linkUp (getRouter (routed 0xA000 reply1) 0) 2 = true ∧
    neighbour 0 2 = some 1 ∧ entryPri 0x8000 = 0 ∧ hasCredit (routed 0xA000 reply1) 0 2 false reply1 = true ∧ winsPort (routed 0xA000 reply1) reply1 2 = true ∧
    hasCredit crowded 0 2 false reply1 = false ∧ hasCredit outranked 0 2 false reply1 = true ∧ winsPort outranked reply1 2 = false ∧
    winsPort (routed 0xA000 (underway 1 0 0xF (.imgPacket 0 []))) (underway 1 0 0xF (.imgPacket 0 [])) 0 = true ∧ syncParty reply1 = none := by decide

/-- A multicast to cluster 0, whose router hands it to its unit. -/
def manyCast : Packet := { underway 5 0 0xF (.imgPacket 0 []) with mc := some 1 }
def castState : State := holding manyCast (modRouter 0 (fun r => { r with inService := true, mcTable := [(0, 0xF000)] }) at0)
theorem witness_RoutersAct_multicast : headerBad manyCast = false ∧ manyCast.mc = some 1 ∧ maskToward (getRouter castState 0) 1 7 = 1 ∧
    ((List.range 7).all fun k => maskToward (getRouter castState 0) 1 k == 0) = true ∧ entryValid (mget (getRouter castState 0).mcTable 0 0) = true ∧
    winsPort castState manyCast 7 = true := by decide

/-- A link that is up and one that has failed seven replays; gates in each state; a site that is quiet and one that is not. -/
theorem witness_RoutersAct_links : linkUp { Router.reset with link := [(2, 1)] } 2 = true ∧ (2 : Fin 8) ≠ 0 ∧ (2 : Fin 8) ≠ 7 ∧
    mget ({ Router.reset with replays := [(2, 7)] } : Router).replays 2 0 = 7 ∧ loaderHolds at0 (.gate 0) = false ∧
    loaderHolds { at0 with img := { at0.img with held := [.gate 0] } } (.gate 0) = true ∧ quiet at0 0 = true ∧
    quiet (thread busyLoad) 0 = false ∧ Router.reset.gate.gate = .on := by decide

/-- A counted packet at its destination, unflagged, flagged and early, with room for its count and without. -/
def counts (ord : Bool) (cnt : Nat) : Packet := { underway 3 0 1 (.imgPacket 0 []) with ord := ord, cnt := cnt }
def taken : List (StreamKey × Nat) := (List.range 32).map (fun i => ((511, i, 0, 0), 1))
theorem witness_StreamsAct : counted (counts false 0) = true ∧ findPacket (routed 0 (counts false 0)) 0 = some (counts false 0) ∧
    (getRouter (routed 0 (counts false 0)) 0).slots.contains 0 = false ∧ (counterInc [] (streamKey (counts false 0))).isSome = true ∧
    counterGet [(streamKey (counts true 2), 2)] (streamKey (counts true 2)) = some 2 ∧
    (counterInc (counterDel [(streamKey (counts true 2), 2)] (streamKey (counts true 2))) (nextKey (streamKey (counts true 2)))).isSome = true ∧
    (counterGet [] (streamKey (counts true 2))).getD 0 ≠ 2 ∧ counterInc taken (streamKey (counts false 0)) = none ∧
    (counts false 0).at_ = (counts false 0).dsite ∧ (counts false 0).sdev = ownDev at0 := by decide

theorem witness_StreamsAct_replies : arrived (holding (handed 1 0 1 0 (.strbusy 5 0)) at0) 0 = some (handed 1 0 1 0 (.strbusy 5 0)) ∧
    (getRouter (modRouter 0 (fun r => { r with resend := [(counts false 0, some 0)] }) at0) 0).resend.find? (fun e => e.1.id == 0) = some (counts false 0, some 0) ∧
    arrived (holding (handed 5 0 1 0 (.streamReset 3)) at0) 0 = some (handed 5 0 1 0 (.streamReset 3)) ∧ (handed 5 0 1 0 (.streamReset 3)).strm = 0xF ∧
    ({ handed 5 0 1 0 (.streamReset 3) with strm := 2 } : Packet).strm ≠ 0xF := by decide

/-- A request at the node of HBM address 0, whose first sector is good or uncorrectable. -/
def atNode (b : Body) : State := holding (handed 3 (nodeSite 0) 0 0 b) hbmAt
def sick (s : State) : State := { s with hbmBad := [0] }
theorem witness_HbmNodesAct : arrived (atNode (.memReq 7 0 (.load 8))) 0 = some (handed 3 (nodeSite 0) 0 0 (.memReq 7 0 (.load 8))) ∧ regionOf 0 = .hbm ∧
    nodeOf (nodeSite 0) = some 0 ∧ nodeServed (atNode (.memReq 7 0 (.load 8))) 0 = true ∧ hbmNodeFor (atNode (.memReq 7 0 (.load 8))) 0 = some 0 ∧
    hbmFirstBad (advanceCopy 0 (atNode (.memReq 7 0 (.load 8)))) 0 8 = none ∧ hbmFirstBad (advanceCopy 0 (sick (atNode (.memReq 7 0 (.load 8))))) 0 8 ≠ none ∧
    hbmFirstLost (advanceCopy 0 (atNode (.memReq 7 0 (.store [1, 2])))) 0 2 = none ∧
    nodeServed (holding (handed 3 (nodeSite 0) 0 0 (.memReq 7 0 (.load 8))) at0) 0 = false := by decide

/-- The upkeep of node 0: spare rows left and none, a reserve that is free and none, and a migration under way. -/
theorem witness_HbmNodesAct_upkeep : nodeServed hbmAt 0 = true ∧ placeOf hbmAt 0 = some (0, 0, 0) ∧ 64 < sparesLeft (getNode hbmAt 0) 0 ∧
    sparesLeft { getNode hbmAt 0 with sparesUsed := [(0, 1024)] } 0 = 0 ∧ freeReserve (getNode hbmAt 0) = some 7 ∧ mget (getNode hbmAt 0).pc 0 7 = 0 ∧
    freeReserve { getNode hbmAt 0 with pc := [(0, 0)] } = none ∧ (getNode hbmAt 0).period ≠ 0 ∧ hbmAt.hbmBad = [] ∧ (getNode hbmAt 0).switched = none ∧
    ({ getNode hbmAt 0 with migrating := some (0, 0) } : HbmNode).migrating = some (0, 0) := by decide

/-- Accesses at a window from its own core and from site 1, at the last word of local memory, past it, below the shared region and at an
uncorrectable word; at a hole, and at register blocks. -/
def atWindow (src off : Nat) (b : Body) : State := holding (handed 3 0 src (0x400000000000 + off) b) at0
theorem witness_AccessesArrive : arrived (atWindow 0 0x17FFF8 (.memReq 7 0 (.load 8))) 0 = some (handed 3 0 0 0x40000017FFF8 (.memReq 7 0 (.load 8))) ∧
    regionOf 0x40000017FFF8 = .window 0 0x17FFF8 ∧ lmFirstBad (atWindow 0 0x17FFF8 (.memReq 7 0 (.load 8))) 0 0x17FFF8 8 = none ∧ ownDev at0 = 0 ∧
    windowServed at0 0 = true ∧ sharedStart 0 (getCore at0 0) = 0x100000 ∧ windowServed at0 1 = false ∧ 0x17FFF8 + 8 ≤ lmBytes ∧ lmBytes < 0x17FFFC + 8 ∧
    lmFirstBad (core (fun c => { c with lmBad := [0x20000] })) 0 0x100000 8 ≠ none ∧ 0xFFFF8 < sharedStart 0 (getCore at0 0) ∧
    lmFirstLost (atWindow 1 0x100000 (.memReq 7 0 (.store [1]))) 0 0x100000 1 = none ∧
    arrived (holding (handed 3 0 1 0x7FFFFFFFFFF8 (.memReq 7 0 (.load 8))) at0) 0 = some (handed 3 0 1 0x7FFFFFFFFFF8 (.memReq 7 0 (.load 8))) ∧
    regionOf 0x7FFFFFFFFFF8 = .hole ∧ regionOf 0x600000003000 = .siteReg 0 0x3000 ∧ coreRuns at0 0 = true := by decide

theorem witness_AccessesArrive_registers : isRegAddr 0x700001000000 = true ∧ unitLost at0 0x700001000000 = true ∧ isRegAddr 0x600000001000 = true ∧
    unitLost at0 0x600000001000 = false ∧ atLeast .user (regLevel 0x600000001000 false) = false ∧ atLeast .machine (regLevel 0x600000001000 false) = true ∧
    regFault at0 0x600000001004 8 false ≠ 0 ∧ regFault at0 0x600000001000 8 false = 0 ∧ regFault at0 0x600000001000 8 true = 0 ∧
    blockOf 0x600000001000 = some (.hod 0, 0) := by decide

/-- A request for pooling of one FP32 element in one bag. -/
def gruBytes (op : Nat) : List Byte :=
  leBytes 8 0 ++ leBytes 4 1 ++ leBytes 4 4 ++ leBytes 2 1 ++ leBytes 1 (0x70 + op) ++ leBytes 1 7 ++ leBytes 2 1 ++ leBytes 2 0 ++ leBytes 4 1 ++ leBytes 4 0x100 ++
  leBytes 4 0x110 ++ leBytes 4 0 ++ leBytes 4 0x120 ++ leBytes 4 0 ++ leBytes 16 0 ++ leBytes 4 0 ++ leBytes 4 1 ++ leBytes 4 0
def gruPart (op : Nat) : Packet := handed 3 (nodeSite 0) 0 0 (.gruReq 0 1 0 (gruBytes op).length (gruBytes op))
theorem witness_GruUnitsAct : gruScatterOp (parseGru (gruBytes 0)).op = false ∧ gruScatterOp (parseGru (gruBytes 8)).op = true ∧
    gruThere hbmAt 0 = true ∧ gruThere at0 0 = false ∧ (getNode hbmAt 0).gru.gate = .on ∧ (getNode hbmAt 0).gruQueue.length < 8 ∧
    gruGood hbmAt (parseGru (gruBytes 0)) (gruBytes 0) = true ∧ gruGood hbmAt (parseGru (gruBytes 8)) (gruBytes 8) = true ∧ gruGood hbmAt (parseGru []) [] = false ∧
    arrived (holding (gruPart 0) hbmAt) 0 = some (gruPart 0) ∧ gruWhole (·.delivered) (holding (gruPart 0) hbmAt) (gruPart 0) = some (gruBytes 0) ∧
    gruWhole (·.delivered) (holding (gruPart 8) hbmAt) (gruPart 8) = some (gruBytes 8) ∧ gruEarlier (holding (gruPart 0) hbmAt) (gruPart 0) = false := by decide

theorem witness_GruUnitsAct_bad : gruBag (gruBytes 0) 0 ≤ 0 ∧ 0 < gruBag (gruBytes 0) 1 ∧
    ({ parseGru (gruBytes 0) with nrows := 0 } : GruHeader).nrows ≤ gruIdx { parseGru (gruBytes 0) with nrows := 0 } (gruBytes 0) 0 ∧
    loaderHolds { at0 with img := { at0.img with held := [.gru 0] } } (.gru 0) = true ∧ loaderHolds hbmAt (.gru 0) = false := by decide

/-- A ring header that is good at offset 0x40, the ring it gives, and a descriptor that fails and one that passes. -/
def header0 : List Host.Cell := Memory.writeN [] 0x40 (leBytes 4 0x100 ++ leBytes 1 1 ++ leBytes 1 8 ++ leBytes 2 0 ++ leBytes 4 0x200)
def headed (c : Core) : Core := { c with lm := header0 }
theorem witness_HodRingsAct : isCoreSite 0 = true ∧ coreRuns (core headed) 0 = true ∧ (getThr (core headed) 0 0).run = .running ∧
    (getRing (core headed) 0 0).ctl.gate = .off ∧ (getRing (core headed) 0 0).ctl.pend = false ∧ bit (0x2000001 : Word) 0 = true ∧
    min (fld (0x2000001 : Word) 39 25) 0x5FFF * 64 = 0x40 ∧
    ringHeaderCheck (getThr (core headed) 0 0) .machine 0x40 (lmReadN (core headed) 0 0x40 64) = 0 ∧
    ringHeaderCheck (getThr at0 0 0) .machine 0x40 (lmReadN at0 0 0x40 64) = 3 ∧ (getRing (core (ringOn 1)) 0 0).ctl.gate = .on ∧
    (getRing (core (ringOn 1)) 0 0).active.length < (getRing (core (ringOn 1)) 0 0).out ∧
    lmFirstBad (core (ringOn 1)) 0 (hodSlotAddr (getRing (core (ringOn 1)) 0 0) 0) 64 = none ∧ hodCheck (core (ringOn 1)) 0 0 (List.replicate 64 0) = some (1, 0) := by
  decide

/-- A fill of 8 B at 0x300, posted and read; the same once begun and waiting for an answer under tag 3; and once done. -/
def fillBytes : List Byte := leBytes 4 0xC0 ++ leBytes 4 8 ++ leBytes 8 0 ++ leBytes 4 0x300 ++ leBytes 4 0 ++ leBytes 4 1 ++ leBytes 36 0
def desc0 : HodDesc := ⟨0, fillBytes, 0, 0, 0, 0, false, none, [], 0, false⟩
def descRing (g : Gate) (l : List HodDesc) (c : Core) : Core := { c with hod := [(0, { HodRing.reset with ctl := ⟨true, false, g⟩, out := 1, active := l })] }
theorem witness_HodTransfersAct : isCoreSite 0 = true ∧ coreRuns (core (descRing .on [desc0])) 0 = true ∧
    (getThr (core (descRing .on [desc0])) 0 0).run = .running ∧ (getRing (core (descRing .on [desc0])) 0 0).active.getLast? = some desc0 ∧
    desc0.begun = false ∧ desc0.done = false ∧ (getRing (core (descRing .on [desc0])) 0 0).ctl.gate = .on ∧ (parseHod fillBytes).crd = false ∧
    (parseHod fillBytes).fen = false ∧ (parseHod fillBytes).kind = 4 ∧ (parseHod fillBytes).rows = 1 ∧ (parseHod fillBytes).wlog = 0 ∧
    (getCore (core (descRing .on [desc0])) 0).lmBad = [] ∧ (parseHod (0xC1 :: fillBytes.drop 1)).crd = true ∧
    (getRing (core (descRing .on [desc0])) 0 0).cred = 0 ∧ (parseHod (0xC4 :: fillBytes.drop 1)).fen = true ∧
    hodCheck (core (descRing .on [])) 0 0 fillBytes = none := by decide

/-- Answers of each kind, and the read-back that is awaited. -/
def pendDesc (rb : Nat) : HodDesc := { desc0 with begun := true, waiting := [(3, 0)], readback := rb }
def answered (b : Body) (rb : Nat) : State := holding (handed 1 0 182 0 b) (core (descRing .on [pendDesc rb]))
theorem witness_HodTransfersAct_answers : arrived (answered (.hodData 0 3 (.bytes [] [])) 0) 0 = some (handed 1 0 182 0 (.hodData 0 3 (.bytes [] []))) ∧
    descOfTag (getRing (answered (.hodData 0 3 (.bytes [] [])) 0) 0 0) 3 = some (pendDesc 0, 0) ∧ (pendDesc 0).readback ≠ 1 ∧ (pendDesc 1).readback = 1 ∧
    arrived (answered (.hodAck 0 3 .done) 0) 0 = some (handed 1 0 182 0 (.hodAck 0 3 .done)) ∧
    arrived (answered (.gruStatus 0 0 0) 0) 0 = some (handed 1 0 182 0 (.gruStatus 0 0 0)) := by decide

theorem witness_HodTransfersAct_ends : (getRing at0 0 0).out = 0 ∧ (parseHod desc0.bytes).ev = false ∧
    (getRing (core (descRing .on [{ desc0 with done := true }])) 0 0).active = { desc0 with done := true } :: [] ∧
    (getRing (core (descRing .draining [desc0])) 0 0).active = desc0 :: [] ∧ (getRing (core (descRing .draining [desc0])) 0 0).ctl.gate = .draining ∧
    (getRing (core (descRing .draining [desc0])) 0 0).out ≠ 0 := by decide

/-- An endpoint header that is good and the code of one that is not; an endpoint that is on, with a token of two units. -/
def endHead : List Host.Cell := Memory.writeN [] 0x40 (leBytes 4 0x1000 ++ leBytes 1 9 ++ leBytes 3 0 ++ leBytes 4 16 ++ leBytes 4 16)
def endOn (c : Core) : Core :=
  { c with lm := endHead, ends := [(0, { Endpoint.reset with ctl := ⟨true, false, .on⟩, hdr := 1, rbase := 0x1000, rlog := 9, prod := 16, cons := 16 }),
      (8, { Endpoint.reset with ctl := ⟨true, false, .on⟩, hdr := 1, rbase := 0x1000, rlog := 9, prod := 16, cons := 16, tokens := [(5, 2)], resv := 2 })] }
theorem witness_EndpointsTakeMessages : hasThreads 0 = true ∧ coreRuns (core endOn) 0 = true ∧ (getEnd at0 0 0).ctl.gate = .off ∧ (getEnd at0 0 0).ctl.pend = false ∧
    bit (0x2000001 : Word) 0 = true ∧ endHeaderCheck 0x40 (lmReadN (core endOn) 0 0x40 64) = 0 ∧ endHeaderCheck 0x40 (lmReadN at0 0 0x40 64) = 3 ∧
    (getEnd (core endOn) 0 0).ctl.gate = .on ∧ bit (0 : Word) 0 = false ∧ Endpoint.reset.writing = 0 := by decide

def message (b : Body) : State := holding (handed 2 0 182 0 b) (core endOn)
theorem witness_EndpointsTakeMessages_arrivals : arrived (message (.chanReq 0 1 0 7 [1] none)) 0 = some (handed 2 0 182 0 (.chanReq 0 1 0 7 [1] none)) ∧
    (getEnd (message (.chanReq 0 1 0 7 [1] none)) 0 0).ctl.gate = .on ∧ (getEnd (core endOn) 0 0).minlvl.toNat ≤ levelCode .machine ∧
    levelCode .user < ({ Endpoint.reset with minlvl := 1 } : Endpoint).minlvl.toNat ∧ coreRuns State.reset 0 = false ∧
    endRoom (getEnd (readCons 0 0 (message (.chanReq 0 1 0 7 [1] none))) 0 0) 0 17 = some 0 ∧
    endRoom { Endpoint.reset with rlog := 9, prod := 512 } 0 17 = none ∧ mfind (getEnd (core endOn) 0 8).tokens 5 = some 2 ∧
    mfind (getEnd (core endOn) 0 8).tokens 6 = none ∧ endRoom (getEnd (readCons 0 8 (message (.chanReply 0 5 1 0 7 [1]))) 0 8) 32 17 = some 0 ∧
    arrived (message (.chanReply 0 5 1 0 7 [1])) 0 = some (handed 2 0 182 0 (.chanReply 0 5 1 0 7 [1])) := by decide

/-- Sends that await their answer, and a blocking send that pauses. -/
def sends (blocking halted : Bool) (h : Thread) : Thread :=
  { h with halted := halted, comm := { h.comm with sends := [⟨1, 2, 0, blocking, none⟩] } }
def pauses (att : Nat) (due : Option Nat) (h : Thread) : Thread :=
  { h with run := .stalled .send, comm := { h.comm with blocking := some ⟨2, 0, [], att, due, none⟩ } }
theorem witness_SendsAreAnswered : findSend (holding (handed 1 0 182 0 (.chanAck 1 0 0)) (thread (sends false false))) 0 0 1 = some ⟨1, 2, 0, false, none⟩ ∧
    arrived (holding (handed 1 0 182 0 (.chanNack 1 0 0 5)) (thread (sends false false))) 0 = some (handed 1 0 182 0 (.chanNack 1 0 0 5)) ∧
    (getThr (thread (sends false false)) 0 0).run = .running ∧ findSend (thread (sends true false)) 0 0 1 = some ⟨1, 2, 0, true, none⟩ ∧
    (getThr (thread (sends true false)) 0 0).halted = false ∧ (getThr (thread (sends true true)) 0 0).halted = true ∧
    (getThr (thread (pauses 0 (some 0))) 0 0).comm.blocking = some ⟨2, 0, [], 0, some 0, none⟩ ∧ 0 ≤ (paceOf (thread (pauses 0 (some 0))) 0).toNat ∧
    (paceOf (thread (pauses 0 (some 9))) 0).toNat < 9 ∧ deliverableBit (getThr (thread (pauses 0 none)) 0 0) = none ∧
    0 < fld (getThr (thread (pauses 0 none)) 0 0).comm.chcfg 39 32 := by decide

theorem witness_SendsAreAnswered_kept : (getThr (thread (fun h => pauses 0 none (sends true true h))) 0 0).halted = true ∧
    (getThr (thread (fun h => { pauses 0 none h with comm := { (pauses 0 none h).comm with blocking := some ⟨2, 0, [], 0, none, some 5⟩ } })) 0 0).comm.blocking =
      some { (⟨2, 0, [], 0, none, none⟩ : BlockingSend) with answer := some 5 } ∧
    arrived (holding (handed 1 0 182 0 (.chanAck 1 0 0)) (thread (sends true false))) 0 = some (handed 1 0 182 0 (.chanAck 1 0 0)) := by decide

/-- A port in each state that a clause names. -/
def port0 (f : Port → Port) : State := { State.reset with ports := [(0, f Port.reset)] }
theorem witness_LinksTrain : portThere (port0 id) 0 = true ∧ loaderHolds (port0 id) (.port 0) = false ∧ (getPort (port0 id) 0).ctl.gate = .off ∧
    (getPort (port0 (fun q => { q with bindEn := true })) 0).bindEn = true ∧ (getPort (port0 id) 0).bindEn = false ∧
    (getPort (port0 (fun q => { q with ctl := ⟨true, false, .on⟩ })) 0).queue = [] ∧
    (getPort (port0 (fun q => { q with ctl := ⟨true, false, .on⟩, queue := [⟨handed 3 0 0 0 (.imgPacket 0 []), 0⟩] })) 0).queue ≠ [] ∧
    (getPort (port0 (fun q => { q with attempts := 7, state := .ctlup })) 0).attempts = 7 ∧
    (mget (getPort (port0 (fun q => { q with samples := [(9, (150, 15))] })) 0).samples 9 (0, 0)).2 = 15 ∧
    (mget (getPort (port0 id) 0).samples 9 (0, 0)).2 < 15 ∧ (getPort (port0 (fun q => { q with lm := [.pwr true] })) 0).lm[0]? = some (.pwr true) := by decide

/-- A CAP that agrees in a device without a structure image, and one that does not. -/
def capBody : BitVec 384 := BitVec.ofNat 384 (1 * 256 + 512 * 256 ^ 4)
theorem witness_LinksTrain_cap : leAt (bytesOf capBody 48) 1 1 = 1 ∧ capAgrees (port0 id) Port.reset (bytesOf capBody 48) = true ∧
    capAgrees (port0 id) Port.reset (bytesOf (BitVec.ofNat 384 256) 48) = false ∧ leAt (bytesOf (0 : BitVec 384) 48) 1 1 ≠ 1 := by decide

/-- Wire orders with eight usable lanes and with seven; a device that holds a structure image. -/
theorem witness_LinksTrain_lanes : usableLanes ((List.range 9).map (fun i => some (Fin.ofNat 9 i))) = 9 ∧
    usableLanes (none :: none :: (List.range 7).map (fun i => some (Fin.ofNat 9 i))) = 7 ∧
    ({ port0 id with img := { (port0 id).img with present := true } } : State).img.present = true ∧
    (getPort (port0 (fun q => { q with state := .recover, recTrained := true })) 0).recTrained = true := by decide

/-- A port that carries packets, one that may sleep, and one whose last replay is due. -/
def active (q : Port) : Port := { q with ctl := ⟨true, false, .on⟩, state := .active, partner := [(0, BitVec.ofNat 64 (2 ^ 57))] }
def sent0 : SentFlit := ⟨0, ⟨0, 0, []⟩, some (handed 3 0 0 0 (.imgPacket 0 []))⟩
theorem witness_LinksCarry : portCarries (getPort (port0 active) 0) = true ∧ portCarries (getPort (port0 id) 0) = false ∧ portCtrlUp (getPort (port0 id) 0) = false ∧
    portCtrlUp (getPort (port0 (fun q => { active q with ctlLock := true })) 0) = true ∧ (getPort (port0 active) 0).data.replays < 7 ∧
    (getPort (port0 (fun q => { active q with sent := [sent0], data := { q.data with replays := 7 } })) 0).data.replays = 7 ∧
    (getPort (port0 (fun q => { active q with sent := [sent0] })) 0).sent ≠ [] ∧ (getPort (port0 active) 0).spRx = 0xF ∧ (getPort (port0 active) 0).spBad = false ∧
    (getPort (port0 active) 0).lm = [] ∧ maySleep (getPort (port0 active) 0) = true ∧ portThere (port0 active) 0 = true ∧
    maySleep { active Port.reset with lm := [.pwr true] } = true ∧ (getPort (port0 active) 0).ctl.gate = .on ∧ Port.reset.ctl.pend = false := by decide

/-- Flits whose CRC is good, whichever order the CRC takes its bits in. -/
theorem witness_LinksCarry_data : ∃ flit : BitVec 2048, crc64 ((bytesOf flit 256).take 248) = (flit >>> 1984).setWidth 64 ∧
    badDataHeader (flit.setWidth 64) ((flit >>> 64).setWidth 64) = false ∧ fld (flit.setWidth 64) 63 62 = 1 ∧
    BitVec.ofNat 16 (fld (flit.setWidth 64) 31 16) = nextSeqOf LinkSeq.reset ∧
    BitVec.ofNat 16 (fld (flit.setWidth 64) 31 16) ≠ nextSeqOf { LinkSeq.reset with accepted := some 0 } := by
  unfold crc64
  cases Config.crcReflected
  · exact ⟨BitVec.ofNat 2048 (2 ^ 62 + 2 ^ 37 + 0x40716fe202add2f1 * 2 ^ 1984), by decide +kernel⟩
  · exact ⟨BitVec.ofNat 2048 (2 ^ 62 + 2 ^ 37 + 0x8d6cb62d17e664e6 * 2 ^ 1984), by decide +kernel⟩

theorem witness_LinksCarry_control : ∃ flit : BitVec 512, crc64 ((bytesOf flit 64).take 56) = (flit >>> 448).setWidth 64 ∧
    badCtrlHeader (flit.setWidth 64) = false ∧ fld (flit.setWidth 64) 63 62 = 1 ∧
    BitVec.ofNat 16 (fld (flit.setWidth 64) 31 16) = nextSeqOf LinkSeq.reset := by
  unfold crc64
  cases Config.crcReflected
  · exact ⟨BitVec.ofNat 512 (2 ^ 62 + 2 ^ 55 + 0x39ba372698073de4 * 2 ^ 448), by decide +kernel⟩
  · exact ⟨BitVec.ofNat 512 (2 ^ 62 + 2 ^ 55 + 0xda6d7c6ba623d600 * 2 ^ 448), by decide +kernel⟩

/-- A packet for which an ACTIVE link has a credit, and one for which it has none. -/
theorem witness_LinksCarry_send : (sendData false ⟨handed 3 0 0 0 (.imgPacket 0 []), 0⟩ { active Port.reset with data := freshData Port.reset }).isSome = true ∧
    (sendData false ⟨handed 3 0 0 0 (.imgPacket 0 []), 0⟩ (active Port.reset)).isSome = false := by
  constructor <;> rfl

/-- A device whose HBM, core site 0 and control core 0 are there, with a collective descriptor at address 0x100: 4 elements of FMT 7 added from 0 to 0x1000. -/
def collBytes : List Byte := leBytes 8 0 ++ leBytes 8 0x1000 ++ leBytes 4 4 ++ leBytes 1 0x70 ++ leBytes 1 8 ++ leBytes 2 1 ++ leBytes 4 7168 ++ leBytes 36 0
def grouped (f : Engine → Engine) : State :=
  let s := withHbm (setCore at0 182 (Core.reset .on 0x400016D00000))
  { s with hbm := Memory.writeN [] 0x100 collBytes, grp := { s.grp with tree := [(0, BitVec.ofNat 64 (2 ^ 63 + 2 ^ 48))], children := [(0, [1])], engines := [(0, f Engine.reset)] } }
def collDesc : CollDesc := parseColl collBytes
def busy (e : Engine) : Engine := { e with state := 1, desc := some collDesc, cseq := 1 }
theorem witness_GroupsAct : engineThere (grouped id) 0 = true ∧ engineThere (grouped (fun e => { e with fenced := true })) 0 = false ∧
    (getEngine (grouped id) 0).state ≠ 1 ∧ (getEngine (grouped busy) 0).state = 1 ∧ devRead (grouped id) 0x100 64 = some collBytes ∧ devRead at0 0x100 64 = none ∧
    collMalformed (grouped id) 0 collBytes = false ∧ collMalformed (grouped id) 0 (List.replicate 64 0) = true ∧ childrenOf (grouped id) 0 ≠ [] ∧
    (getEngine (grouped id) 0).ups = [] ∧ (getEngine (grouped busy) 0).desc = some collDesc := by decide

/-- A chunk of a child and one of the parent at the engine's site, for an engine that is not the root and does not write. -/
def chunk (up : Bool) : Packet := handed 2 (engineSite 0) 0 0 (.coll up false 1 0 [])
def child (e : Engine) : Engine := { e with state := 1, desc := some { collDesc with op := 2 }, cseq := 1, dstWait := [0] }
def reduced (up : Bool) : State := holding (chunk up) (grouped child)
theorem witness_GroupsAct_chunks : arrived (reduced true) 0 = some (chunk true) ∧ engineOf (chunk true).dsite = some 0 ∧ engineThere (reduced true) 0 = true ∧
    (getEngine (grouped id) 0).desc = none ∧ (getEngine (reduced false) 0).desc = some { collDesc with op := 2 } ∧ (1 : BitVec 16) = (getEngine (reduced false) 0).cseq ∧
    (getEngine (reduced false) 0).chunks + 1 = collChunks { collDesc with op := 2 } ∧ (getEngine (reduced false) 0).dstWait.contains 0 = true ∧
    (getEngine (reduced false) 0).state = 1 ∧ writesDst (reduced false) 0 { collDesc with op := 2 } = false := by decide

/-- The bridge in each state of its enable, an offset that it serves and one that it does not, a host at the user level, and a peer. -/
def bridged (g : Grp → Grp) : State := { grouped id with grp := g (grouped id).grp }
theorem witness_GroupsAct_bridge : bridgeThere (bridged id) = true ∧ bridgeThere { bridged id with top := { (bridged id).top with hbridge := false } } = false ∧
    (bridged id).grp.hctl.gate = .off ∧ (bridged (fun g => { g with hctl := ⟨true, false, .on⟩ })).grp.hctl.gate = .on ∧ (bridged id).grp.bridge = [] ∧
    (bridged (fun g => { g with bridge := [(0, 0, 0, 0)] })).grp.bridge ≠ [] ∧ bridgeOffset (bridged id) 0x8000 = true ∧ bridgeOffset (bridged id) 0x7FF8 = false ∧
    (bridged (fun g => { g with hlvl := .user })).grp.hlvl = .user ∧ (bridged id).grp.hlvl ≠ .user ∧ ownDev (bridged id) = 0 ∧ hasThread 0 0 = true ∧
    windowServed (bridged id) 0 = true ∧ windowServed (bridged id) 1 = false ∧ (peerMask (bridged id)).getLsbD 1 = false := by decide

/-- A host on port 0, at the machine level and at the user level; a bridge that drains. -/
def hosted (s : State) : State := { s with top := { s.top with role := 1 }, ports := [(0, { active Port.reset with bindDev := 511, bindEn := true, ctlLock := true })] }
theorem witness_GroupsAct_host : hostLinked (hosted (bridged id)) = true ∧ hostLinked (bridged id) = false ∧ bridgeOffset (hosted (bridged id)) 0x8000 = true ∧
    (hosted (bridged (fun g => { g with hlvl := .user }))).grp.hlvl = .user ∧ windowServed (hosted (bridged id)) 0 = true ∧ ownDev (hosted (bridged id)) = 0 ∧
    (bridged (fun g => { g with hctl := ⟨true, true, .draining⟩ })).grp.hctl = ⟨true, true, .draining⟩ ∧ (bridged id).grp.bridge = [] := by decide

/-- The loader in each state that a clause names, for a device that runs. -/
def loader (f : Img → Img) : State := let s := grouped id; { s with rst := { s.rst with phase := .running }, img := f s.img }
theorem witness_ImagesAct : loaderRuns (loader id) = true ∧ loaderRuns at0 = false ∧ loaderFree (loader id) = true ∧
    loaderFree (loader (fun i => { i with state := .staged })) = false ∧ (loader (fun i => { i with state := .staged, owner := true })).img.owner = true ∧
    (copyImage (loader (fun i => { i with src := 0x700000000000 }))).1 = none ∧ (copyImage (loader id)).1.isSome = true ∧
    (loader (fun i => { i with state := .draining, held := [.gate 5] })).img.held.all (unitDrained (loader id)) = true ∧
    (loader (fun i => { i with state := .draining, held := [.port 0] })).img.held.all
      (unitDrained { loader id with ports := [(0, { Port.reset with ctl := ⟨true, false, .on⟩ })] }) = false ∧
    0 + 1024 * (0 : BitVec 16).toNat ≤ at0.aoc ∧ (0 : BitVec 48).toNat % 256 = 0 ∧ (1 : BitVec 64).toNat ≠ leNat (Memory.readN (loader id).img.staging 24 8) ∧
    ownDev (loader id) = 0 := by decide

/-- An image that came in packets of the manager, in each state, and a device that has an image. -/
theorem witness_ImagesAct_manager : leNat (Memory.readN (loader id).img.staging 24 8) = 0 ∧
    loaderFree (loader (fun i => { i with state := .draining, owner := true })) = false ∧ loaderRuns (loader (fun i => { i with state := .drained, owner := true })) = true ∧
    (loader (fun i => { i with present := true })).img.present = true ∧ (1 : BitVec 9) ≠ 0 ∧ 6 < (7 : BitVec 8).toNat := by decide

/-- Error records: none raised, one and two of one unit; a queue that is full, one in no memory, and one that takes the record. -/
def recording (f : Mgt → Mgt) : State := let s := grouped id; { s with mgt := f { s.mgt with raised := [[1, 2, 0x10, 3, 0, 0, 0, 0], [1, 2, 0x11, 3, 0, 0, 0, 0]] } }
theorem witness_RecordsAct : (recording id).mgt.raised[2]? = none ∧ earlierOfUnit (recording id).mgt.raised 1 = true ∧
    (recording id).mgt.raised[0]? = some [1, 2, 0x10, 3, 0, 0, 0, 0] ∧ earlierOfUnit (recording id).mgt.raised 0 = false ∧
    (recording (fun m => { m with restarting := true })).mgt.restarting = true ∧ (recording (fun m => { m with en := true })).mgt.restarting = false ∧
    (recording (fun m => { m with en := true })).mgt.en = true ∧ queueBad (recording (fun m => { m with en := true })) = false ∧
    queueBad (recording (fun m => { m with en := true, base := 0x700000000000 })) = true ∧
    ((recording (fun m => { m with en := true, prod := 16 })).mgt.prod - (0 : BitVec 32)).toNat = queueSize (recording id).mgt ∧
    ([1, 2, 0x10, 3, 0, 0, 0, 0] : List Nat).getD 2 0 ∉ [0x13, 0x14, 0x15, 0x32] ∧ ownDev (recording id) = 0 ∧
    ({ recording id with img := { (recording id).img with present := true } } : State).img.present = true ∧
    ownDev { recording id with top := { (recording id).top with devid := 1 } } ≠ 0 := by decide

/-- A member that copies records of class 3, and a device that does not. -/
theorem witness_RecordsAct_copies : (recording (fun m => { m with fwd := 8 })).mgt.fwd.getLsbD 3 = true ∧
    ({ recording id with top := { (recording id).top with role := 2 } } : State).top.role = 2 ∧ (recording (fun m => { m with fwd := 0 })).mgt.fwd.getLsbD 3 = false := by decide

theorem witness_FencesAct : hasThreads 0 = true ∧ (getCore at0 0).power ≠ .fenced ∧ (getCore at0 0).power ≠ .absent ∧ at0.mgt.restarting = false ∧
    (getRouter (served at0) 0).inService = true ∧ (getNode hbmAt 0).fenced = false ∧ (getNode hbmAt 0).inService = true ∧ gruThere hbmAt 0 = true ∧
    (getPort (port0 id) 0).present = true ∧ (getPort (port0 id) 0).fenced = false ∧ (getUnit at0 0).inService = true ∧ (getEngine at0 0).fenced = false ∧
    at0.mgt.fenced = [] ∧ at0.mgt.deferred = [] ∧ (recording (fun m => { m with restarting := true, deferred := [.fence 7 0 2] })).mgt.deferred = [.fence 7 0 2] := by decide

theorem witness_FencesAct_view : fencedUnseen at0 = [] ∧ ∀ x : Site, siteState at0 x ≠ 3 := by
  refine ⟨?_, fun _ => by simp [siteState, at0, core, setCore, State.reset, Top.reset, mget]⟩
  unfold fencedUnseen
  rw [List.filter_eq_nil_iff]
  intro x _
  by_cases h : 0 = x <;> simp [at0, core, setCore, getCore, State.reset, mset, mget, h, Core.reset]

theorem witness_FencesAct_gru : (getNode (modNode 3 (fun x => { x with gruFenced := true }) at0) 3).gruFenced = true ∧
    (getNode (modNode 3 (fun x => { x with gruFenced := true }) at0) 3).gru.gate ≠ .off := by decide

/-- A device whose security state is changed; every life-cycle state, a key block at address 0x200 and none, a challenge and a third failure. -/
def secure (f : Sec → Sec) : State := { grouped id with sec := f Sec.reset }
theorem witness_SecurityActs : (secure id).sec.state = 0 ∧ (secure (fun x => { x with state := 1 })).sec.state = 1 ∧ (secure (fun x => { x with state := 2 })).sec.state = 2 ∧
    (secure (fun x => { x with state := 4 })).sec.state = 4 ∧ devRead (secure id) 0x200 64 = some (List.replicate 64 0) ∧ devRead (secure id) 0x700000000000 64 = none ∧
    (secure (fun x => { x with fails := 3 })).sec.fails = 3 ∧ optAlarm (secure id) 0 = 0 ∧
    optAlarm { secure id with rst := { (secure id).rst with opt := [(5, 2)] } } 0 = 2 ∧ (secure id).rst.phase ≠ .reset ∧
    (secure (fun x => { x with idblk := true })).sec.idblk = true := by decide

/-- A device in each phase of its start. -/
def phased (p : StartPhase) (f : Rst → Rst) : State := { grouped id with aoc := 100000000000, rst := f { Rst.reset with phase := p } }
theorem witness_ResetsAct : (phased .off id).rst.phase = .off ∧ (phased .running id).rst.phase = .running ∧ railWatched (phased .running id) 1 = true ∧
    railWatched (phased .running id) 0 = false ∧ pinIgnored (phased .running id) = false ∧ pinIgnored (phased .reset id) = true ∧
    (phased .running id).rst.thermTrip = false ∧ pinIgnored (phased .reset (fun r => { r with thermTrip := true })) = false ∧
    junctionsCool { phased .running id with pwr := { Pwr.reset with rails := [(7, { Rail.reset with tj := 96 })] } } = false ∧
    (phased .reset (fun r => { r with sources := [2] })).rst.sources.contains 2 = true ∧ (phased .reset id).rst.sources.contains 2 = false ∧
    budgetExpired (phased .running id) = false ∧ budgetExpired (phased .running (fun r => { r with budgetSince := some 0 })) = true ∧
    (phased .running (fun r => { r with budgetSince := some 0 })).rst.recoverNext = false ∧
    (phased .running id).mgt.mwdSince + optMwdPer (phased .running id) * 1024 ≤ (phased .running id).aoc ∧
    (grouped id).aoc < (grouped id).mgt.mwdSince + optMwdPer (grouped id) * 1024 ∧ (phased .running (fun r => { r with bootdone := true })).rst.bootdone = true ∧
    (phased .running id).mgt.restarting = false ∧ optClkScope (phased .running id) = false ∧ optClkScope (phased .running (fun r => { r with opt := [(7, 1)] })) = true ∧
    (getNode (phased .running id) 0).inService = true := by decide

/-- Key blocks whose fuses agree with those programmed and do not; an identity key that every fuse word can take. -/
theorem witness_SecurityActs_fuses : (secure id).sec.ownkh &&& ~~~ BitVec.ofNat 256 (leAt (List.replicate 64 (0 : Byte)) 0 32) = 0 ∧
    (secure (fun x => { x with ownkh := 1 })).sec.ownkh &&& ~~~ BitVec.ofNat 256 (leAt (List.replicate 64 (0 : Byte)) 0 32) ≠ 0 ∧
    ((List.replicate 64 (0 : Byte)).drop 33).any (· != 0) = false ∧ (secure (fun x => { x with ownreq := true })).sec.ownreq = true ∧
    (secure (fun x => { x with state := 1, idgen := true })).sec.idgen = true ∧ (secure (fun x => { x with kill := true })).sec.kill = true ∧
    (secure (fun x => { x with svnr := 3 })).sec.svnr.toNat = 3 ∧ ({ phased .running id with sec := { Sec.reset with state := 2 } } : State).rst.phase ≠ .off ∧
    (phased .running id).io.scanSel = none := by decide
theorem witness_SecurityActs_key : (secure id).sec.idpriv &&& ~~~ Config.entropy 0 = 0 ∧
    (secure (fun x => { x with idpriv := ~~~ Config.entropy 0 })).sec.idpriv &&& ~~~ Config.entropy (secure id).freeCtr = ~~~ Config.entropy 0 := by
  refine ⟨?_, ?_⟩
  · show (0 : BitVec 256) &&& _ = 0
    simp
  · show ~~~ Config.entropy 0 &&& ~~~ Config.entropy 0 = _
    simp

/-- A restart whose stretch is over and one whose stretch is not; a firmware that matches its measurement and one that does not. -/
theorem witness_FencesAct_restart : (phased .running id).mgt.restartAt + 25600 ≤ (phased .running id).aoc ∧ at0.aoc < at0.mgt.restartAt + 25600 := by decide
theorem witness_FencesAct_firmware (s : State) :
    firmwareIntact { s with sec := { s.sec with fwmeas := Config.sm3 (Memory.readN s.rst.fw 0 (s.rst.fwLen - 256)) } } = true ∧
    firmwareIntact { s with sec := { s.sec with fwmeas := Config.sm3 (Memory.readN s.rst.fw 0 (s.rst.fwLen - 256)) + 1 } } = false := by
  refine ⟨by simp [firmwareIntact], ?_⟩
  simp only [firmwareIntact, beq_eq_false_iff_ne]
  generalize Config.sm3 _ = x
  intro k
  bv_omega

/-- A control core whose watchdog has run out, and a core whose reset stretch is over. -/
def dogged (f : Core → Core) : State := { setCore State.reset 182 (f (Core.reset .on 0)) with aoc := 100000000 }
theorem witness_ResetsAct_cores : (getCore (dogged (fun c => { c with ccwdEn := true })) (ccSite 0)).power = .on ∧
    (getCore (dogged (fun c => { c with ccwdEn := true })) (ccSite 0)).ccwdEn = true ∧
    (getCore (dogged (fun c => { c with ccwdEn := true })) (ccSite 0)).ccwdSince + (getCore (dogged id) (ccSite 0)).ccwdPeriod.toNat * 1024 ≤ (dogged id).aoc ∧
    (dogged id).top.role ≠ 1 ∧ (getCore (dogged id) 182).resetEnds = none ∧
    (getCore (dogged (fun c => { c with power := .reset, resetEnds := some 5 })) 182).resetEnds = some 5 ∧ 5 ≤ (dogged id).aoc ∧
    (dogged id).mgt.errAfterReset.contains 182 = false := by decide

/-- A start: the stretch that is over, a rail in its turn, and a controller that may start with no firmware in the flash. -/
def startable (rec_ : Bool) : State := phased .waiting (fun r => { r with powerGood := true, cghbm := true, cgsds := true, recovery := rec_ })
theorem witness_StartsProceed : (phased .reset id).rst.stretchEnd = none ∧ (phased .reset (fun r => { r with stretchEnd := some 5 })).rst.stretchEnd = some 5 ∧
    5 ≤ (phased .reset id).aoc ∧ (phased .reset id).rst.railsUp = 0 ∧ (rampOrder (phased .waiting id))[0]? = some 1 ∧ (phased .waiting id).rst.powerGood = false ∧
    (phased .waiting id).rst.railsUp + 1 < (rampOrder (phased .waiting id)).length ∧ (startable false).rst.phase = .waiting ∧ (startable false).rst.powerGood = true ∧
    (startable false).rst.cgmgt = false ∧ (startable false).rst.cghbm = true ∧ (startable false).rst.cgsds = true ∧ (startable true).rst.recovery = true ∧
    (startable false).rst.recovery = false ∧ fwHeaderGood (flashRead (startable false) 0x100000 128) = false ∧ (phased .running id).rst.phase ≠ .waiting ∧
    (secure id).sec.state ≠ 1 ∧ (secure (fun x => { x with state := 1 })).rst.phase ≠ .waiting := by decide

/-- A half-domain that is throttled and one that is not, above and at 0.70 V, and a demand above and below the limit. -/
def heated (v : BitVec 16) : State := { phased .running id with pwr := { Pwr.reset with thr := 1, rails := [(0, { Rail.reset with vset := v })] } }
theorem witness_PowerActs : (heated 750).rst.phase ≠ .off ∧ railWatched (heated 750) 8 = true ∧
    railWatched { heated 750 with pwr := { Pwr.reset with rails := [(0, { Rail.reset with off := true })] } } 8 = false ∧ (heated 750).pwr.thr.getLsbD 0 = true ∧
    (grouped id).pwr.thr.getLsbD 0 = false ∧ 700 < (getRail (heated 750) 0).vset.toNat ∧ (getRail (heated 700) 0).vset.toNat ≤ 700 ∧ 105 < (106 : BitVec 8).toInt ∧
    (95 : BitVec 8).toInt ≤ ((heated 750).pwr.throt.toNat : Int) - 5 ∧ ((heated 750).pwr.throt.toNat : Int) - 5 < (96 : BitVec 8).toInt ∧
    drawLimit (heated 750) < (501 : BitVec 16).toNat ∧ (500 : BitVec 16).toNat ≤ drawLimit (heated 750) ∧ highestRail (heated 750) = some 0 ∧ highestRail (grouped id) = none := by
  decide

/-- A half-domain that may rise, one at its limit, one that is off; a device that is powered and one that is not. -/
theorem witness_PowerActs_rise : (getRail { grouped id with pwr := { Pwr.reset with rails := [(0, { Rail.reset with vset := 750 })] } } 0).duty = 128 ∧
    (getRail { grouped id with pwr := { Pwr.reset with rails := [(0, { Rail.reset with vset := 750 })] } } 0).off = false ∧
    (getRail { grouped id with pwr := { Pwr.reset with rails := [(0, { Rail.reset with vset := 750, duty := 64 })] } } 0).duty ≠ 128 ∧
    900 ≤ (getRail { grouped id with pwr := { Pwr.reset with rails := [(0, { Rail.reset with vset := 900 })] } } 0).vset.toNat ∧
    (phased .reset id).rst.phase = .reset ∧ (phased .off id).rst.phase = .off ∧
    ({ phased .running id with mgt := { (phased .running id).mgt with oe := 1 } } : State).mgt.oe.getLsbD 0 = true := by decide

/-- Kiln idle and at work on core site 0, whose test has run out of its budget. -/
def tested (st : BitVec 2) (p : Power) : State :=
  let s := setCore (phased .running id) 0 (Core.reset p pc0)
  { s with kln := { Kln.reset with state := st, slice := 0x1000 } }
theorem witness_KilnActs : (tested 0 .on).kln.state = 0 ∧ (tested 2 .isolated).kln.state = 2 ∧ sliceThere (tested 0 .on) 1 0 = true ∧ sliceThere (tested 0 .on) 1 1 = false ∧
    sliceBusy (tested 0 .on) 1 0 = false ∧ sliceThere (tested 0 .on) 8 0 = true ∧ sliceBusy { tested 0 .on with grp := (grouped busy).grp } 8 0 = true ∧
    (some (⟨0, by decide⟩ : Site)).map (·.val) = some 0 ∧ (tested 2 .isolated).kln.slice.toNat / 4096 = 1 ∧ hasThreads 0 = true ∧
    (getCore (tested 2 .isolated) 0).power = .isolated ∧ (tested 2 .isolated).kln.since + sliceBudget 1 < (tested 2 .isolated).aoc ∧
    { tested 2 .isolated with aoc := 5 }.aoc ≤ (tested 2 .isolated).kln.since + sliceBudget 1 := by decide

theorem witness_KilnActs_restarting : ({ tested 2 .isolated with mgt := { (tested 2 .isolated).mgt with restarting := true } } : State).mgt.restarting = true ∧
    (tested 2 .isolated).mgt.restarting = false := by decide

/-- A debugger's view of thread 0: a halt asked for, a thread that is halted and one that is not, and a selection of gr31 and of word 5 of its send buffer. -/
def debugged (halted : Bool) (run : Run) (sel : Word) (pend : BitVec 4) : State :=
  core (fun c => { c with dbg := { c.dbg with dbgsel := sel, pendHalt := pend }, thr0 := { c.thr0 with halted := halted, run := run } })
theorem witness_DebuggerActs : hasThread 0 0 = true ∧ (getCore State.reset 0).power ≠ .on ∧ (getCore at0 0).dbg.pendHalt.getLsbD 0 = false ∧
    (getCore (debugged false .running 0 1) 0).dbg.pendHalt.getLsbD 0 = true ∧ mayHalt (debugged false .running 0 1) (getThr (debugged false .running 0 1) 0 0) = true ∧
    (getThr (debugged false .ready 0 0) 0 0).run ≠ .running ∧ mayHalt (debugged false .ready 0 0) (getThr (debugged false .ready 0 0) 0 0) = true ∧
    (getThr (debugged true .ready 0 0) 0 0).halted = true ∧ (getThr (debugged true .parked 0 0) 0 0).run = .parked ∧ (debugged true .ready 0 0).packets = [] ∧
    dbgError (debugged false .running 0 0) 0 ≠ 0 ∧ fld (31 : Word) 61 60 = 0 ∧ fld (31 : Word) 31 0 = (31 : Reg).val ∧ fld (31 : Word) 59 56 = 0 ∧
    fld (0x0500000000000005 : Word) 59 56 = 5 ∧ fld (0x0500000000000005 : Word) 31 0 = (5 : Reg).val ∧ bit (0x8000000000000000 : Word) 63 = true := by decide

/-- A JTAG of a device that is powered, with debug closed and open, before and after life-cycle state 2, and a core at an address that is served. -/
theorem witness_JtagActs : (phased .off id).rst.phase = .off ∧ (phased .running id).rst.phase ≠ .off ∧ (phased .running id).io.scanSel = none ∧
    dbgMode (secure (fun x => { x with state := 2 })) = 0 ∧ dbgMode (secure (fun x => { x with state := 2, dbg := 1 })) = 1 ∧ 2 ≤ dbgMode (secure id) ∧
    (secure id).io.accHeld = none ∧ regionOf 0x600000000000 = .siteReg 0 0 ∧ windowServed (secure id) 0 = true ∧ regionOf 0x600000010000 = .siteReg 1 0 ∧
    windowServed (secure id) 1 = false ∧ (secure id).sec.state.toNat ≤ 1 ∧ 2 ≤ (secure (fun x => { x with state := 2 })).sec.state.toNat ∧
    (tested 2 .isolated).kln.state = 2 := by decide

/-- A word of HBM in an uncorrectable sector, and one in a good one. -/
theorem witness_JtagActs_lost : islandLost 0 (some 5) { hbmAt with hbmBad := [0] } = true ∧ islandLost 0 (some 5) hbmAt = false ∧
    ∃ u, islandAccess 0 (some 5) { hbmAt with hbmBad := [0] } = .ok 0 u := ⟨by decide, by decide, _, by rfl⟩

/-- An access that the island refuses, on each ground, and one that it does not. -/
theorem witness_JtagActs_codes : islandCode hbmAt 4 none = 9 ∧ islandCode hbmAt 0 none = 0 ∧ islandCode { hbmAt with hbmBad := [0] } 0 none = 0xE ∧
    islandCode { hbmAt with hbmBad := [0] } 0 (some 5) = 0 ∧ islandCode at0 0 none = 6 ∧ islandCode at0 0x400000100000 none = 0 ∧
    islandCode at0 0x400000000000 none = 0xA ∧ islandCode at0 deviceRegBase none = 0 ∧ ownAccess at0 0x600000000818 = true ∧
    ownAccess at0 0x600000001000 = false := by decide

/-- An I3C target that is free, in recovery and not, of a device whose loader runs, whose flash is open and closed. -/
theorem witness_I3cActs : (loader id).rst.phase ≠ .off ∧ (loader id).io.response = none ∧ (loader id).io.running = none ∧
    (phased .running (fun r => { r with recovery := true })).rst.recovery = true ∧ (loader id).rst.recovery = false ∧ attestCheck (loader id) ≠ 0 ∧
    attestCheck (secure (fun x => { x with state := 1, idgen := true })) = 0 ∧ (loader id).sec.busy = false ∧ loaderRuns (loader id) = true ∧ loaderFree (loader id) = true ∧
    loaderRuns (phased .off id) = false ∧ (1 : BitVec 64).toNat ≠ leNat (Memory.readN (loader id).img.staging 24 8) ∧ flashOpen (loader id) = true ∧
    flashOpen (secure (fun x => { x with state := 2 })) = false ∧ ({ (loader id).io with resetPending := true, response := some [] } : Io).response ≠ none := by decide

theorem witness_I3cActs_registers : islandAccess 0x700000000004 none (loader id) = .fault 9 ∧
    (∃ w, islandAccess deviceRegBase none (loader id) = .ok w (loader id)) := ⟨by rfl, ⟨_, by rfl⟩⟩

/-- A register at the supervisor level and at the user level, unaligned, and at an address of no block; a powered device and one that is not. -/
theorem witness_RegistersAct : atLeast .user (regLevel 0x600000001000 true) = false ∧ atLeast .machine (regLevel 0x600000001000 true) = true ∧
    regFault at0 0x600000001004 8 true ≠ 0 ∧ blockOf 0x7FFFFFFFFFF8 = none ∧ regFault at0 0x600000001000 8 true = 0 ∧ blockOf 0x600000001000 = some (.hod 0, 0) ∧
    powered State.reset = false ∧ powered (phased .running id) = true ∧ (getRail (heated 750) 0).vset ≠ 0 := by decide

theorem witness_CoreResetClearsLocalMemory : regionOf 0x600000000000 = .siteReg 0 0 ∧ windowServed (phased .running id) 0 = true ∧
    (phased .running id).rst.phase ≠ .off ∧ dbgMode (phased .running id) ≠ 0 ∧ (phased .running id).io.scanSel = none ∧
    (phased .running id).io.accHeld = none := by decide

theorem witness_RingControlFrozen : isCoreSite 0 = true ∧ coreRuns at0 0 = true ∧ (getRing (core (ringOn 1)) 0 0).ctl.gate ≠ .off ∧
    (getRing at0 0 0).ctl.gate = .off ∧ (getRing at0 0 0).ctl.pend = false := by decide

/-! ### Results worked out by hand -/

/-- Register `r` of thread 0 after one command. -/
def result (o : Host.Outcome State Fault Refusal) (r : Reg) : Option Word :=
  match o with
  | .next t => some (readGr (getThr t 0 0) r)
  | _ => none

/-- Thread 0 with values in gr1 and gr2 and its word fetched. -/
def with2 (a b : Word) : State := fetchedBy (regs [(1, a), (2, b)])

theorem test_add_wraps : result (exec (.add w0 3 1 2) (with2 (BitVec.allOnes 64) 2)) 3 = some 1 := by rfl
theorem test_sub_own_source : result (exec (.sub w0 1 2 1) (with2 3 1)) 1 = some (-2) := by rfl
theorem test_gr0_discards : result (exec (.add w0 0 1 2) (with2 3 1)) 0 = some 0 := by rfl
theorem test_sar_negative : result (exec (.sar w0 3 1 2) (with2 (-8) 65)) 3 = some (-4) := by rfl
theorem test_mulhs_negative : result (exec (.mulhs w0 3 1 2) (with2 (-1) 2)) 3 = some (-1) := by rfl
theorem test_mulhu_high : result (exec (.mulhu w0 3 1 2) (with2 (BitVec.allOnes 64) 2)) 3 = some 1 := by rfl
theorem test_lil_extends : result (exec (.lil w0 3 0x80000000) run0) 3 = some 0xFFFFFFFF80000000 := by rfl
theorem test_ldl_little_endian : result (exec (.ldlu w0 1 3 (.base 1 0x100))
    (core (fun c => { fetched c with lm := [(0x100, 0x34), (0x101, 0x12)] }))) 3 = some 0x1234 := by rfl
theorem test_ldl_signs : result (exec (.ldl w0 0 3 (.base 1 0x100)) (core (fun c => { fetched c with lm := [(0x100, 0x80)] }))) 3 = some (-128) := by rfl
theorem test_word_advances : (match exec (.add w0 3 1 2) run0 with | .next t => some (getThr t 0 0).pc | _ => none) = some 0x400000100008 := by rfl
theorem test_fp32_sum : (shortLanes .vadd f32 FpRegs.reset 0x3F800000 0x40000000).2.vals.head? = some 0x40400000 := by rfl
theorem test_fp32_product : (shortLanes .vmul f32 FpRegs.reset 0x3FC00000 0xC0000000).2.vals.head? = some 0xC0400000 := by rfl
theorem test_int8_saturates : (shortLanes .vadd ⟨1, 0, true, true, true, 0⟩ FpRegs.reset 0x7F 0x01).2.vals.head? = some 0x7F := by rfl
theorem test_trap_codes : (match exec (.brk w0 7) run0 with | .next t => some (fld (getThr t 0 0).exc.ecause 7 0, (getThr t 0 0).exc.epc) | _ => none) =
    some (0xD, pc0) := by rfl
/-- 04 Examples 4.1 and 4.2, and the words of R123: a pair and its bytes in memory, a pair of two BIT slots, a load, the same with a MODE that R113 refuses, the
all-zeros word and the all-ones word. -/
theorem test_example_4_1 : decodeForm 0x800842201000C000 = .pair 0 (.alu .add 16 16 17) 0 (.bld 1 16 0) ∧
    pairFault (specShort (atOf w0) (.alu .add 16 16 17)) (specShort (atOf w0) (.bld 1 16 0)) = none ∧
    leBytes 8 0x800842201000C000 = [0x00, 0xC0, 0x00, 0x10, 0x20, 0x42, 0x08, 0x80] := ⟨by rfl, by rfl, by decide⟩
theorem test_example_4_1_one_class : decodeForm 0x9000000010000000 = .pair 0 (.bld 0 0 0) 0 (.bld 0 0 0) ∧
    (pairFault (specShort (atOf w0) (.bld 0 0 0)) (specShort (atOf w0) (.bld 0 0 0))).isSome = true := ⟨by rfl, by rfl⟩
theorem test_example_4_2 : decodeForm 0x103BA54000000040 = .long true 3 ∧ decodeLong w0 0x103BA54000000040 = some (.ld w0 3 20 (.base 21 0x40)) :=
  ⟨by rfl, by rfl⟩
theorem test_example_4_2_refused : decodeLong w0 0x103BAD4002000040 = some (.ld w0 3 21 (.post 21 0x40)) ∧
    modeLegal false (some 21) (.post 21 0x40) = false := ⟨by rfl, by decide⟩
theorem test_R123_words : decodeLong w0 0 = some (.add w0 0 0 0) ∧ decodeForm (BitVec.allOnes 64) = .badPair := ⟨by rfl, by rfl⟩
theorem test_memory_write_removes : Memory.write [(4, 7)] 4 0 = [] ∧ Memory.write [(4, 7)] 2 1 = [(2, 1), (4, 7)] := by decide
theorem test_levels : levelOf 0 = .user ∧ levelOf 1 = .supervisor ∧ levelOf 2 = .machine := by decide

end Sys2Proof.Tests
end

/-! # A debugger's core reset (05 R139; 23 R568)

The core's record is replaced by `coreAfter`; the notices that follow are packets alone, so they leave every core as it is. -/

namespace Sys2Proof.Proofs

open Sys2Proof Sys2Proof.Machine Sys2Proof.Laws

/-! ### What the notices of a reset leave alone -/

/-- What each pass of a loop leaves alone, the loop does. -/
theorem foldN_keeps {α β : Type} (g : α → β) (f : Nat → α → α) (h : ∀ i a, g (f i a) = g a) (n : Nat) (a : α) : g (foldN n f a) = g a :=
  List.foldlRecOn (motive := fun b => g b = g a) (List.range n) _ rfl fun b hb i _ => (h i b).trans hb

@[simp] theorem multicast_cores (src : Nat) (mask : BitVec 128) (body : Body) (s : State) : (multicast src mask body s).cores = s.cores := rfl

@[simp] theorem deviceMulticast_cores (src : Nat) (mask : BitVec 512) (inner : Body) (s : State) :
    (deviceMulticast src mask inner s).cores = s.cores := by
  unfold deviceMulticast deviceMulticastFrom
  refine foldN_keeps State.cores _ (fun port st => ?_) 16 s
  dsimp only
  split <;> rfl

@[simp] theorem sendResetNotices_cores (site src : Nat) (s : State) : (sendResetNotices site src s).cores = s.cores := by
  simp [sendResetNotices]

/-! ### Core reset -/

theorem coreReset_cores (site : Nat) (s : State) :
    (coreReset site s).cores = (setCore s site (coreAfter (getCore s site) .reset s.rst.entry (some (s.aoc + stretchCounts)))).cores := by
  rw [coreReset, sendResetNotices_cores]
  rfl

/-- A core reset puts the core into the record that `coreAfter` names, and every other core stays. -/
theorem getCore_coreReset (site j : Nat) (s : State) :
    getCore (coreReset site s) j =
      if j = site then coreAfter (getCore s site) .reset s.rst.entry (some (s.aoc + stretchCounts)) else getCore s j := by
  rw [getCore, coreReset_cores]
  exact getCore_setCore ..

@[simp] theorem coreAfter_lm (c : Core) (p : Power) (entry : Word) (ends : Option Nat) : (coreAfter c p entry ends).lm = [] := rfl
@[simp] theorem coreAfter_lmslice (c : Core) (p : Power) (entry : Word) (ends : Option Nat) : (coreAfter c p entry ends).lmslice = 8 := rfl

@[simp] theorem read_nil (a : Nat) : Memory.read [] a = 0 := rfl

/-! ### JTAG's way to it (23 R567, R568) -/

@[simp] theorem getCore_modIo (f : Io → Io) (s : State) (site : Nat) : getCore (modIo f s) site = getCore s site := rfl
@[simp] theorem getCore_accDone (status : BitVec 4) (v : Word) (s : State) (site : Nat) : getCore (accDone status v s) site = getCore s site := rfl

theorem leaveScan_of_none (s : State) (h : s.io.scanSel = none) : leaveScan s = s := by simp [leaveScan, h]

/-- A permitted instruction is loaded and acts. -/
theorem loadIr_permitted (code : BitVec 8) (go : State → State) (s : State) (hon : s.rst.phase ≠ .off) (hscan : s.io.scanSel = none) :
    loadIr code true go s = go (modIo (fun i => { i with ir := code }) s) := by
  simp [loadIr, powered, hon, leaveScan_of_none s hscan]

/-- A debugger that may, with no operation held, performs its operation. -/
theorem dbgacc_permitted (go : State → State) (s : State) (hon : s.rst.phase ≠ .off) (hdbg : dbgMode s ≠ 0) (hscan : s.io.scanSel = none)
    (hfree : s.io.accHeld = none) : dbgacc go s = go (modIo (fun i => { i with ir := 0x11 }) s) := by
  have hmay : (dbgMode s != 0) = true := bne_iff_ne.mpr hdbg
  simp [dbgacc, hmay, loadIr_permitted _ _ s hon hscan, modIo, hfree]

/-- A core whose window is served is in service. -/
theorem coreInService_of_windowServed {s : State} {site : Nat} (h : windowServed s site = true) :
    hasThreads site = true ∧ coreInService s site = true := by
  obtain ⟨hthreads, hpower⟩ : hasThreads site = true ∧ (getCore s site).power = .on := by simpa [windowServed] using h
  exact ⟨hthreads, by simp [coreInService, hpower]⟩

theorem accCoreReset_eq {a site : Nat} {s : State} (ha : regionOf a = .siteReg site 0) (hthreads : hasThreads site = true)
    (hserves : coreInService s site = true) : accCoreReset a s = accDone 0 0 (coreReset site s) := by
  simp [accCoreReset, ha, hthreads, hserves]

/-- Settles O59: the reset replaces the core's record by `coreAfter`, whose local memory has no cell and whose slice size is 8. -/
theorem coreResetClearsLocalMemory : Obligations.CoreResetClearsLocalMemory := by
  unfold Obligations.CoreResetClearsLocalMemory
  intro addr site s haddr hserved hon hdbg hscan hfree
  obtain ⟨hthreads, hserves⟩ := coreInService_of_windowServed hserved
  refine ⟨dbgacc (accCoreReset addr.toNat) s, rfl, ?_⟩
  rw [dbgacc_permitted _ s hon hdbg hscan hfree, accCoreReset_eq (s := modIo _ s) haddr hthreads hserves, getCore_accDone, getCore_coreReset, if_pos rfl]
  exact ⟨read_nil, rfl⟩

end Sys2Proof.Proofs

/-! # Vector words whose lanes are not rounded (06 R163, R168, R179)

Such a word sets no flag and draws nothing, so all that it leaves is its destination, made of the lanes that the operation gives. -/

namespace Sys2Proof.Proofs

open Sys2Proof Sys2Proof.Machine Sys2Proof.Safety Sys2Proof.Laws

/-! ### Lanes that are exact -/

@[simp] theorem joinFlags_zero (flags : Nat) : joinFlags flags 0 = flags := by simp [joinFlags]

/-- `roundEach` collects its elements with the last one first. -/
theorem foldl_exact_lanes (lane : Nat → Nat) (l : List Nat) (z : Rounded) :
    l.foldl (fun (z : Rounded) i => (⟨lane i :: z.vals, z.flags, z.seed⟩ : Rounded)) z =
      ⟨(l.map lane).reverse ++ z.vals, z.flags, z.seed⟩ := by
  induction l generalizing z with
  | nil => rfl
  | cons i l ih => simp [ih]

/-- Lanes that are not rounded meet no flag and draw nothing. -/
theorem eachLane_exact (n : Nat) (lane : Nat → Nat) : eachLane n (fun i => (lane i, 0)) = ⟨(List.range n).map lane, 0, 0⟩ := by
  simp [eachLane, roundEach, foldl_exact_lanes]

@[simp] theorem vecFree_of_unread {α : Type} {x : At} {s : State} {d : Reg} (k : Except Trap α)
    (hd : readByMatrix (getCore s x.1) x.2 d.val = false) : vecFree x s [d] k = k := by
  simp [vecFree, hd]

/-- Exact lanes leave their register and nothing else. -/
theorem vecResult_exact {x : At} {s : State} {d : Reg} (w n : Nat) (lane : Nat → Nat)
    (hd : readByMatrix (getCore s x.1) x.2 d.val = false) :
    vecResult x d w 0 (eachLane n (fun i => (lane i, 0))) s = .ok ⟨setV x d (packLanes w ((List.range n).map lane)), .seq⟩ := by
  rw [eachLane_exact, vecResult, vecFree_of_unread _ hd]
  rfl

/-- A legal long word of the vector unit with exact lanes writes them to `d` and ends. -/
theorem doesVec_of_exact_lanes {c : Ctx} {s f : State} {i : Instr} {d : Reg} {w n : Nat} {lane : Nat → Nat} (sp : OpSpec)
    (h : Issues c s f) (hl : LongOn c f) (hd : readByMatrix (getCore f c.site.val) c.thr d.val = false)
    (hrun : exec i s = runWord c i sp s) (hcls : sp.cls = 3) (legal : sp.legal = true)
    (hprep : sp.prep f = vecResult (atOf c) d w 0 (eachLane n (fun i => (lane i, 0))) f) :
    DoesVec i c s f sp.useG sp.setG sp.useV (setV (atOf c) d (packLanes w ((List.range n).map lane))) := by
  intro usable
  rw [hrun]
  exact run_vec sp h hl legal usable (hprep.trans (vecResult_exact w n lane hd)) hcls

/-! ### Which words are legal -/

theorem specVshift_legal {x : At} {right : Bool} {g : VFields} {d a : Reg} {imm : BitVec 15}
    (hg : fieldsLegal fmtShift false false (if right then .shift else .none) g = true) (himm : imm.toNat < 32) :
    (specVshift x right g d a imm).legal = true := by
  simp [specVshift, specLongVec, hg, himm]

theorem specVcmp_legal {x : At} {g : VFields} {d a b : Reg} {imm : BitVec 15} (hg : fieldsLegal fmtArith false false .arith g = true)
    (himm : imm.toNat < 8) (hint : isIntFmt g.fmt.toNat = true → imm.toNat < 6) : (specVcmp x g d a b imm).legal = true := by
  have hcode : isIntFmt g.fmt.toNat = false ∨ imm.toNat < 6 := (Bool.eq_false_or_eq_true _).symm.imp_right hint
  simpa [specVcmp, specLongVec, hg, himm] using hcode

/-! ### Lanes in the words of the manual -/

/-- A logical shift to the right (06 R163). -/
theorem shiftLane_logical (w n a : Nat) : shiftLane true false w n a = a / 2 ^ n := rfl

/-- What VCMASK and VPMASK write for a key that is visible where `p` holds (06 R179). -/
theorem maskLane_of_iff {v : Bool} {p : Prop} [Decidable p] (h : v = true ↔ p) : maskLane v = (if p then 0 else 0xFF800000, 0) := by
  simp [maskLane, h]

theorem causalKey_visible_iff (key q : Int) (imm : BitVec 15) :
    (decide (key ≤ q) && (imm.toNat == 0 || decide (q - imm.toNat < key))) = true ↔ key ≤ q ∧ (imm = 0 ∨ q - imm.toNat < key) := by
  simp [BitVec.toNat_eq]

/-- Settles O12: each word's lanes are exact, and they are the lanes of the statement. -/
theorem vecMoveWordsAct : Obligations.VecMoveWordsAct := by
  unfold Obligations.VecMoveWordsAct
  intro c s f h hl g d a b r imm hd
  refine ⟨fun hg himm => ?vshl, fun hg himm hsa => ?vshr, fun hg => ?vsel, fun hg => ⟨?vperm, ?vbcast⟩, fun hg himm hint => ?vcmp,
    fun hg => ⟨?vcmask, ?vpmask⟩⟩
  case vshl => exact doesVec_of_exact_lanes (specVshift (atOf c) false g d a imm) h hl hd rfl rfl (specVshift_legal hg himm) rfl
  case vshr =>
    refine doesVec_of_exact_lanes (specVshift (atOf c) true g d a imm) h hl hd rfl rfl (specVshift_legal hg himm) ?_
    simp only [specVshift, specLongVec, OpSpec.base, hsa, shiftLane_logical]
    rfl
  case vsel => exact doesVec_of_exact_lanes (specVsel (atOf c) g d a b r) h hl hd rfl rfl hg rfl
  case vperm => exact doesVec_of_exact_lanes (specVperm (atOf c) g d a b) h hl hd rfl rfl hg rfl
  case vbcast => exact doesVec_of_exact_lanes (specVbcast (atOf c) g d a) h hl hd rfl rfl hg rfl
  case vcmp => exact doesVec_of_exact_lanes (specVcmp (atOf c) g d a b imm) h hl hd rfl rfl (specVcmp_legal hg himm hint) rfl
  case vcmask =>
    refine doesVec_of_exact_lanes (specVcmask (atOf c) g d a b imm) h hl hd rfl rfl hg ?_
    simp only [specVcmask, specLongVec, OpSpec.base, maskLane_of_iff (causalKey_visible_iff _ _ _)]
  case vpmask =>
    refine doesVec_of_exact_lanes (specVpmask (atOf c) g d a b) h hl hd rfl rfl hg ?_
    simp only [specVpmask, specLongVec, OpSpec.base, maskLane_of_iff decide_eq_true_iff]

end Sys2Proof.Proofs

/-! # A write of HOD_RCTLt (13 R339)

HDR and LVL of a ring change in one place, the write of `writeRctl`. What may follow it in the same command (the header check and its record,
the thread that leaves its hod stall, a debugger's halt with its trace) leaves the rings of every core alone, or changes other fields of a ring. -/

namespace Sys2Proof.Proofs

open Sys2Proof Sys2Proof.Machine Sys2Proof.Laws

/-! ### What leaves the rings of every core as they are -/

theorem hod_modCore {f : Core → Core} (hf : ∀ c, (f c).hod = c.hod) (i j : Nat) (s : State) :
    (getCore (modCore i f s) j).hod = (getCore s j).hod := by
  rw [getCore_modCore]
  split
  case isTrue h => rw [hf, h]
  case isFalse => rfl

@[simp] theorem hod_modThr (i j : Nat) (t : Fin 4) (f : Thread → Thread) (s : State) :
    (getCore (modThr i t f s) j).hod = (getCore s j).hod :=
  hod_modCore (fun _ => coreSetThr_hod ..) i j s

@[simp] theorem fillSlot_hod (c : Core) : (fillSlot c).hod = c.hod := by
  unfold fillSlot
  split
  · rfl
  · split
    · exact coreSetThr_hod ..
    · rfl

@[simp] theorem coreLmWrite_hod (off : Nat) (bs : List Byte) (c : Core) : (coreLmWrite off bs c).hod = c.hod := by
  unfold coreLmWrite
  split <;> rfl

@[simp] theorem getCore_postRecord (cls : Nat) (k : SrcKind) (code site unit addr detail : Nat) (s : State) (j : Nat) :
    getCore (postRecord cls k code site unit addr detail s) j = getCore s j := by
  obtain ⟨m, h⟩ := postRecord_frame cls k code site unit addr detail s
  rw [h]
  rfl

@[simp] theorem getCore_sendSync (src dst addr : Nat) (lvl : Level) (body : Body) (s : State) (j : Nat) :
    getCore (sendSync src dst addr lvl body s) j = getCore s j := rfl

@[simp] theorem hod_fireComparators (site off n : Nat) (s : State) (j : Nat) :
    (getCore (fireComparators site off n s) j).hod = (getCore s j).hod := by
  refine List.foldlRecOn (motive := fun u => (getCore u j).hod = (getCore s j).hod) _ _ rfl fun u hu k _ => ?_
  dsimp only
  split
  · split
    · rw [getCore_sendSync]
      exact (hod_modCore (fun _ => by rfl) ..).trans hu
    · exact hu
  · exact hu

@[simp] theorem hod_lmWriteN (site off : Nat) (bs : List Byte) (s : State) (j : Nat) :
    (getCore (lmWriteN site off bs s) j).hod = (getCore s j).hod := by
  refine List.foldlRecOn (motive := fun u => (getCore u j).hod = (getCore s j).hod) _ _ ?_ fun u hu k _ => ?_
  · rw [hod_fireComparators, hod_modCore (coreLmWrite_hod off bs)]
  · rw [getCore_postRecord, hu]

@[simp] theorem hod_traceRec (site kind t data : Nat) (s : State) (j : Nat) :
    (getCore (traceRec site kind t data s) j).hod = (getCore s j).hod := by
  unfold traceRec
  dsimp only
  split
  · refine (hod_modCore (fun _ => by rfl) ..).trans ?_
    split
    · exact hod_lmWriteN ..
    · rfl
  · rfl

@[simp] theorem hod_countPerf (site ev : Nat) (t : Fin 4) (n : Nat) (s : State) (j : Nat) :
    (getCore (countPerf site ev t n s) j).hod = (getCore s j).hod := by
  unfold countPerf
  dsimp only
  split
  · rfl
  · exact hod_modCore (fun _ => by rfl) ..

@[simp] theorem hod_giveUpSlot (site : Nat) (t : Fin 4) (r : Run) (code : Nat) (s : State) (j : Nat) :
    (getCore (giveUpSlot site t r code s) j).hod = (getCore s j).hod := by
  unfold giveUpSlot
  rw [hod_countPerf, hod_traceRec, hod_modCore (by simp)]

@[simp] theorem hod_wakeThread (site : Nat) (t : Fin 4) (s : State) (j : Nat) :
    (getCore (wakeThread site t s) j).hod = (getCore s j).hod :=
  hod_modCore (by simp) site j s

@[simp] theorem hod_haltThread (site : Nat) (t : Fin 4) (s : State) (j : Nat) :
    (getCore (haltThread site t s) j).hod = (getCore s j).hod := by
  unfold haltThread leaveUnits
  dsimp only
  split <;> simp [hod_modCore]

@[simp] theorem hod_completeWait (site : Nat) (t : Fin 4) (s : State) (j : Nat) :
    (getCore (completeWait site t s) j).hod = (getCore s j).hod := by
  unfold completeWait stepDone
  split <;> simp

/-! ### HDR and LVL of a ring -/

/-- HDR and LVL, the fields that R339 freezes. -/
def ringFrozen (s : State) (site : Nat) (t : Fin 4) : BitVec 15 × Level := ((getRing s site t).hdr, (getRing s site t).lvl)

theorem ringFrozen_of_hod {s u : State} {j : Nat} (h : (getCore u j).hod = (getCore s j).hod) (t : Fin 4) :
    ringFrozen u j t = ringFrozen s j t := by
  simp only [ringFrozen, getRing, h]

theorem ringFrozen_modRing {f : HodRing → HodRing} (hhdr : ∀ r, (f r).hdr = r.hdr) (hlvl : ∀ r, (f r).lvl = r.lvl) (i : Nat) (q : Fin 4)
    (s : State) (j : Nat) (t : Fin 4) : ringFrozen (modRing i q f s) j t = ringFrozen s j t := by
  unfold ringFrozen
  rw [getRing_modRing]
  split
  case isTrue h => rw [hhdr, hlvl, h.1, h.2]
  case isFalse => rfl

/-- An enable latches the header in other fields (13 R340, R341). -/
theorem ringFrozen_ringEnable (i : Nat) (q : Fin 4) (s : State) (j : Nat) (t : Fin 4) :
    ringFrozen (ringEnable i q s) j t = ringFrozen s j t := by
  unfold ringEnable
  dsimp only
  split
  · exact ringFrozen_modRing (fun _ => by rfl) (fun _ => by rfl) ..
  · split
    · exact (ringFrozen_of_hod (hod_lmWriteN ..) t).trans (ringFrozen_modRing (fun _ => by rfl) (fun _ => by rfl) ..)
    · exact ringFrozen_modRing (fun _ => by rfl) (fun _ => by rfl) ..

/-- A wait in the hod stall ends: the ring has taken or discarded the credits, and the thread goes on. -/
theorem ringFrozen_finishHodWait {f : HodRing → HodRing} (hhdr : ∀ r, (f r).hdr = r.hdr) (hlvl : ∀ r, (f r).lvl = r.lvl) (i : Nat) (q : Fin 4)
    (g : Thread → Thread) (s : State) (j : Nat) (t : Fin 4) :
    ringFrozen (completeWait i q (modThr i q g (modRing i q f s))) j t = ringFrozen s j t :=
  (ringFrozen_of_hod (s := modRing i q f s) (by simp) t).trans (ringFrozen_modRing hhdr hlvl ..)

theorem ringFrozen_serveHodWait (i : Nat) (q : Fin 4) (s : State) (j : Nat) (t : Fin 4) :
    ringFrozen (serveHodWait i q s) j t = ringFrozen s j t := by
  unfold serveHodWait
  split
  case isTrue => rfl
  case isFalse =>
    split
    case h_2 => rfl
    case h_1 =>
      dsimp only
      split
      case isTrue => exact ringFrozen_finishHodWait (fun _ => by rfl) (fun _ => by rfl) ..
      case isFalse =>
        split <;> split
        · exact ringFrozen_finishHodWait (fun _ => by rfl) (fun _ => by rfl) ..
        · rfl
        · exact ringFrozen_finishHodWait (fun _ => by rfl) (fun _ => by rfl) ..
        · rfl

/-- The write: a ring that is OFF with no enable pending takes HDR and LVL, clamped; any other keeps them. -/
theorem ringFrozen_writeRctl (site : Nat) (t : Fin 4) (lvl : Level) (v : Word) (s : State) :
    ringFrozen (writeRctl site t lvl v s) site t =
      if (getRing s site t).ctl.gate = .off ∧ (getRing s site t).ctl.pend = false then
        (BitVec.ofNat 15 (min (fld v 39 25) 0x5FFF), levelOf (min (fld v 17 16) (levelCode lvl)))
      else ringFrozen s site t := by
  have henable (s1 : State) :
      ringFrozen (if bit v 0 && (getRing s site t).ctl.gate = .off then ringEnable site t s1
        else modRing site t (fun r => { r with ctl := enableWrite (bit v 0) false r.ctl }) s1) site t = ringFrozen s1 site t := by
    split
    · exact ringFrozen_ringEnable ..
    · exact ringFrozen_modRing (fun _ => by rfl) (fun _ => by rfl) ..
  refine (henable _).trans ?_
  unfold ringFrozen
  rw [getRing_modRing, if_pos ⟨rfl, rfl⟩]
  by_cases hfree : (getRing s site t).ctl.gate = .off ∧ (getRing s site t).ctl.pend = false
  · simp [hfree]
  · simp [hfree]

theorem levelCode_le (l : Level) : levelCode l ≤ 2 := by cases l <;> decide

theorem levelCode_levelOf : ∀ {n : Nat}, n ≤ 2 → levelCode (levelOf n) = n
  | 0, _ => rfl
  | 1, _ => rfl
  | 2, _ => rfl

/-- Settles O60: the command is the write of `writeRctl`, and what follows it leaves HDR and LVL alone. -/
theorem ringControlFrozen : Obligations.RingControlFrozen := by
  unfold Obligations.RingControlFrozen
  intro site t lvl v s hsite hruns
  have hfields : ringFrozen (hodRctl site t lvl v s) site t = ringFrozen (writeRctl site t lvl v s) site t := by
    rw [hodRctl, if_pos hruns]
    exact ringFrozen_serveHodWait ..
  rw [ringFrozen_writeRctl] at hfields
  refine ⟨hodRctl site t lvl v s, by rw [exec_hodRctlEn, execHodRctlEn, if_pos hsite], fun hheld => ?_, fun hoff hpend => ?_⟩
  · have hfrozen : ¬((getRing s site.val t).ctl.gate = .off ∧ (getRing s site.val t).ctl.pend = false) :=
      fun ⟨hoff, hpend⟩ => hheld.elim (fun hgate => hgate hoff) (fun hset => Bool.false_ne_true (hpend.symm.trans hset))
    rw [if_neg hfrozen] at hfields
    exact Prod.mk.inj hfields
  · rw [if_pos ⟨hoff, hpend⟩] at hfields
    obtain ⟨hhdr, hlvl⟩ := Prod.mk.inj hfields
    have hcode := levelCode_le lvl
    rw [hhdr, hlvl, levelCode_levelOf (by omega), BitVec.toNat_ofNat]
    constructor <;> omega

end Sys2Proof.Proofs


/-! # Security commands, debug unlock and alarms (20 R507, R508, R514 to R521; 23 R567)

A command programs its fuse words through `programFuses`, whose course is said here once for each way in which it can end. What each word does
to the fuses is an equation for each kind of word; a 256-bit field takes four of them, and takes its new value exactly where no fuse of it
holds a bit that the value lacks. -/

namespace Sys2Proof.Proofs

open Sys2Proof Sys2Proof.Machine Sys2Proof.Laws

/-! ### What leaves the fuses and the SEC_ block alone -/

@[simp] theorem modSec_sec (f : Sec → Sec) (s : State) : (modSec f s).sec = f s.sec := rfl
@[simp] theorem modSec_rst (f : Sec → Sec) (s : State) : (modSec f s).rst = s.rst := rfl

@[simp] theorem secResult_sec (cmd res : Nat) (s : State) :
    (secResult cmd res s).sec = { s.sec with cmd := BitVec.ofNat 4 cmd, result := BitVec.ofNat 8 res } := rfl

@[simp] theorem postRecord_sec (cls : Nat) (k : SrcKind) (code site unit addr detail : Nat) (s : State) :
    (postRecord cls k code site unit addr detail s).sec = s.sec := by
  obtain ⟨m, h⟩ := postRecord_frame cls k code site unit addr detail s
  rw [h]

theorem foldl_sec {α : Type} {f : State → α → State} (h : ∀ s x, (f s x).sec = s.sec) (l : List α) (s : State) :
    (l.foldl f s).sec = s.sec :=
  List.foldlRecOn (motive := fun u => u.sec = s.sec) l f rfl fun u hu x _ => (h u x).trans hu

@[simp] theorem startMigration_sec (k p : Nat) (s : State) : (startMigration k p s).sec = s.sec := by
  unfold startMigration
  dsimp only
  split
  · split <;> rfl
  · exact postRecord_sec ..

@[simp] theorem retirePage_sec (k p row : Nat) (s : State) : (retirePage k p row s).sec = s.sec := by
  unfold retirePage
  dsimp only
  split
  · exact postRecord_sec ..
  · split <;> simp

@[simp] theorem hbmUeCount_sec (u : Nat) (s : State) : (hbmUeCount u s).sec = s.sec := by
  unfold hbmUeCount
  split
  · rfl
  · dsimp only
    split <;> simp

@[simp] theorem countKnownBad_sec (a n : Nat) (s : State) : (countKnownBad a n s).sec = s.sec := by
  refine foldl_sec (fun u x => ?_) _ s
  split
  · exact hbmUeCount_sec x u
  · rfl

@[simp] theorem hbmWriteN_sec (a : Nat) (bs : List Byte) (s : State) : (hbmWriteN a bs s).sec = s.sec := by
  refine (foldl_sec (fun u x => hbmUeCount_sec x u) _ _).trans ?_
  split <;> rfl

@[simp] theorem noteLm_sec (site off n : Nat) (s : State) : (noteLm site off n s).sec = s.sec := by
  unfold noteLm
  split
  · rfl
  · exact foldl_sec (fun u x => postRecord_sec ..) _ s

@[simp] theorem fireComparators_sec (site off n : Nat) (s : State) : (fireComparators site off n s).sec = s.sec := by
  refine foldl_sec (fun u x => ?_) _ s
  dsimp only
  split
  · split <;> rfl
  · rfl

@[simp] theorem lmWriteN_sec (site off : Nat) (bs : List Byte) (s : State) : (lmWriteN site off bs s).sec = s.sec :=
  (foldl_sec (fun _ _ => postRecord_sec ..) _ _).trans (fireComparators_sec ..)

@[simp] theorem devReadNotes_sec (a n : Nat) (s : State) : (devReadNotes a n s).sec = s.sec := by
  unfold devReadNotes
  split
  · exact countKnownBad_sec ..
  · split
    · exact noteLm_sec ..
    · rfl
  · rfl

@[simp] theorem devWrite_sec (a : Nat) (bs : List Byte) (s : State) : (devWrite a bs s).sec = s.sec := by
  unfold devWrite
  split
  · exact hbmWriteN_sec ..
  · split
    · exact lmWriteN_sec ..
    · rfl
  · rfl

/-! ### The course of a command's fuse words (20 R515, R521) -/

/-- A fuse word of which every bit takes. -/
def programWhole (w : FuseStep) (x : Sec) : Sec := w.put (BitVec.allOnes 256) x

/-- A command ends with its number and its result, and the fuses and the SEC_ block are otherwise as `f` makes them. -/
def Ends (s : State) (i : Instr) (cmd : BitVec 4) (res : BitVec 8) (f : Sec → Sec) : Prop :=
  ∃ t, exec i s = .next t ∧ t.sec = { f s.sec with cmd := cmd, result := res }

theorem ends_of_secResult {s t : State} {i : Instr} {cmd res : Nat} {f : Sec → Sec} (hexec : exec i s = .next (secResult cmd res t))
    (hsec : t.sec = f s.sec) : Ends s i (BitVec.ofNat 4 cmd) (BitVec.ofNat 8 res) f :=
  ⟨_, hexec, by rw [secResult_sec, hsec]⟩

theorem ends_of_program {s t u : State} {i : Instr} {cmd res : Nat} {e : FuseEnd} {steps : List FuseStep} {f : Sec → Sec}
    (hexec : exec i s = .next (secProgram cmd e steps t)) (hrun : programFuses e 0 steps t = (res, u)) (hsec : u.sec = f s.sec) :
    Ends s i (BitVec.ofNat 4 cmd) (BitVec.ofNat 8 res) f := by
  rw [secProgram, hrun] at hexec
  exact ends_of_secResult hexec hsec

theorem programFuses_done_nil (i : Nat) (s : State) : programFuses .done i [] s = (0, s) := rfl

/-- An alarm when `i` words are programmed. -/
theorem programFuses_alarm (i : Nat) (steps : List FuseStep) (s : State) : programFuses (.alarm i) i steps s = (8, s) := by
  cases steps <;> simp [programFuses]

/-- The word that is to read back wrong takes the bits of a free mask. -/
theorem programFuses_mismatch (i : Nat) (w : FuseStep) (r : List FuseStep) (s : State) :
    programFuses (.mismatch i) i (w :: r) s = (7, modSec (w.put (Config.freeBits 256 s.freeCtr)) (drawFree 256 s).2) := by
  simp [programFuses, drawFree]

/-- Any other word is programmed whole, and the next one follows where it reads back right. -/
theorem programFuses_word {e : FuseEnd} {i : Nat} (halarm : e ≠ .alarm i) (hmismatch : e ≠ .mismatch i) (w : FuseStep) (r : List FuseStep)
    (s : State) : programFuses e i (w :: r) s =
      if w.good (programWhole w s.sec) then programFuses e (i + 1) r (modSec (programWhole w) s) else (7, modSec (programWhole w) s) := by
  rw [programFuses, if_neg halarm, if_neg hmismatch]
  rfl

theorem programFuses_done_good {i : Nat} {w : FuseStep} {s : State} (hgood : w.good (programWhole w s.sec) = true) (r : List FuseStep) :
    programFuses .done i (w :: r) s = programFuses .done (i + 1) r (modSec (programWhole w) s) := by
  rw [programFuses_word (by simp) (by simp), if_pos hgood]

theorem programFuses_done_bad {i : Nat} {w : FuseStep} {s : State} (hbad : ¬w.good (programWhole w s.sec) = true) (r : List FuseStep) :
    programFuses .done i (w :: r) s = (7, modSec (programWhole w) s) := by
  rw [programFuses_word (by simp) (by simp), if_neg hbad]

/-- A first word that takes, before an alarm. -/
theorem programFuses_alarm_one {w : FuseStep} {s : State} (hgood : w.good (programWhole w s.sec) = true) (r : List FuseStep) :
    programFuses (.alarm 1) 0 (w :: r) s = (8, modSec (programWhole w) s) := by
  rw [programFuses_word (by simp) (by simp), if_pos hgood, programFuses_alarm]

/-! ### What each word does -/

@[simp] theorem programWhole_lcStep (b : Nat) (x : Sec) : programWhole (lcStep b) x = { x with lc := x.lc ||| BitVec.ofNat 4 (2 ^ b) } := by
  simp [programWhole, lcStep]
@[simp] theorem programWhole_killStep (x : Sec) : programWhole killStep x = { x with kill := true } := by simp [programWhole, killStep]
@[simp] theorem programWhole_revokeStep (x : Sec) : programWhole revokeStep x = { x with revoke := true } := by
  simp [programWhole, revokeStep]
@[simp] theorem programWhole_idgenStep (x : Sec) : programWhole idgenStep x = { x with idgen := true } := by simp [programWhole, idgenStep]
@[simp] theorem programWhole_svnStep (v : BitVec 64) (x : Sec) : programWhole (svnStep v) x = { x with svn := x.svn ||| v } := by
  have hmask : (BitVec.allOnes 256).setWidth 64 = BitVec.allOnes 64 := by decide
  simp [programWhole, svnStep, hmask, -BitVec.reduceAllOnes]
@[simp] theorem programWhole_ownerFlagsStep (req dbg : Bool) (x : Sec) :
    programWhole (ownerFlagsStep req dbg) x = { x with ownreq := x.ownreq || req, dbgen := x.dbgen || dbg } := by
  simp [programWhole, ownerFlagsStep]

@[simp] theorem killStep_good (x : Sec) : killStep.good x = x.kill := rfl
@[simp] theorem revokeStep_good (x : Sec) : revokeStep.good x = x.revoke := rfl
@[simp] theorem idgenStep_good (x : Sec) : idgenStep.good x = x.idgen := rfl

theorem getLsbD_or_twoPow {w b : Nat} (hb : b < w) (v : BitVec w) : (v ||| BitVec.ofNat w (2 ^ b)).getLsbD b = true := by
  rw [BitVec.getLsbD_or, BitVec.getLsbD_ofNat, Nat.testBit_two_pow_self, decide_eq_true hb, Bool.and_self, Bool.or_true]

theorem lcStep_takes {b : Nat} (hb : b < 4) (x : Sec) : (lcStep b).good (programWhole (lcStep b) x) = true := by
  rw [programWhole_lcStep]
  exact getLsbD_or_twoPow hb x.lc

theorem or_and_self_right {w : Nat} (u v : BitVec w) : (u ||| v) &&& v = v := by
  ext n hn
  rw [BitVec.getElem_and, BitVec.getElem_or]
  cases u[n] <;> cases v[n] <;> rfl

theorem svnStep_takes (v : BitVec 64) (x : Sec) : (svnStep v).good (programWhole (svnStep v) x) = true := by
  rw [programWhole_svnStep]
  exact beq_iff_eq.mpr (or_and_self_right x.svn v)

/-- The two flags verify where no flag that is fused is to be 0. -/
theorem ownerFlagsStep_good_iff (req dbg : Bool) (x : Sec) :
    (ownerFlagsStep req dbg).good (programWhole (ownerFlagsStep req dbg) x) = true ↔
      (x.ownreq = true → req = true) ∧ (x.dbgen = true → dbg = true) := by
  rw [programWhole_ownerFlagsStep]
  simp [ownerFlagsStep]

/-! ### A field of 256 bits is four words (log 30) -/

/-- Words of a field that programs the value `v` word by word. -/
structure ProgramsLanes (get : Sec → BitVec 256) (set : BitVec 256 → Sec → Sec) (v : BitVec 256) (w : Nat → FuseStep) : Prop where
  whole : ∀ j x, programWhole (w j) x = set (get x ||| (v &&& fuseLane j)) x
  good : ∀ j x, (w j).good x = (get x &&& fuseLane j == v &&& fuseLane j)
  get_set : ∀ u x, get (set u x) = u
  set_set : ∀ t u x, set t (set u x) = set t x
  set_get : ∀ x, set (get x) x = x

theorem programsLanes_ownkh (v : BitVec 256) : ProgramsLanes Sec.ownkh (fun u x => { x with ownkh := u }) v (ownkhStep v) where
  whole j x := by simp only [programWhole, ownkhStep, BitVec.and_allOnes]
  good _ _ := rfl
  get_set _ _ := rfl
  set_set _ _ _ := rfl
  set_get _ := rfl

theorem programsLanes_idpriv (v : BitVec 256) : ProgramsLanes Sec.idpriv (fun u x => { x with idpriv := u }) v (idprivStep v) where
  whole j x := by simp only [programWhole, idprivStep, BitVec.and_allOnes]
  good _ _ := rfl
  get_set _ _ := rfl
  set_set _ _ _ := rfl
  set_get _ := rfl

/-- Word `j` of the fuses `u` has no bit that `v` lacks. -/
def laneFits (u v : BitVec 256) (j : Nat) : Prop := u &&& fuseLane j &&& ~~~v = 0#256

theorem laneFits_iff_reads_back (u v : BitVec 256) (j : Nat) :
    (u ||| (v &&& fuseLane j)) &&& fuseLane j = v &&& fuseLane j ↔ laneFits u v j := by
  unfold laneFits
  simp only [BitVec.eq_of_getElem_eq_iff, BitVec.getElem_and, BitVec.getElem_or, BitVec.getElem_not, BitVec.getElem_zero]
  refine forall₂_congr fun n hn => ?_
  cases u[n] <;> cases v[n] <;> cases (fuseLane j)[n] <;> decide

/-- Programming one word leaves the question open for the others. -/
theorem laneFits_or (u v m : BitVec 256) (j : Nat) : laneFits (u ||| (v &&& m)) v j ↔ laneFits u v j := by
  unfold laneFits
  have hsame : (u ||| (v &&& m)) &&& fuseLane j &&& ~~~v = u &&& fuseLane j &&& ~~~v := by
    ext n hn
    simp only [BitVec.getElem_and, BitVec.getElem_or, BitVec.getElem_not]
    cases u[n] <;> cases v[n] <;> cases (fuseLane j)[n] <;> cases m[n] <;> rfl
  rw [hsame]

theorem fuseLanes_cover : fuseLane 0 ||| (fuseLane 1 ||| (fuseLane 2 ||| fuseLane 3)) = BitVec.allOnes 256 := by decide

/-- The four words make up the field. -/
theorem laneFits_all_iff (u v : BitVec 256) : (∀ j ∈ [0, 1, 2, 3], laneFits u v j) ↔ u &&& ~~~v = 0 := by
  have hcover : u &&& ~~~v = u &&& (fuseLane 0 ||| (fuseLane 1 ||| (fuseLane 2 ||| fuseLane 3))) &&& ~~~v := by
    rw [fuseLanes_cover, BitVec.and_allOnes]
  rw [hcover]
  simp [laneFits, BitVec.and_or_distrib_left, BitVec.and_or_distrib_right]

theorem getElem_of_and_not {n : Nat} {a b : BitVec n} (hfits : a &&& ~~~b = 0) (k : Nat) (hk : k < n) (ha : a[k] = true) : b[k] = true := by
  have hbit : (a &&& ~~~b)[k] = false := by simp [hfits]
  simpa [ha] using hbit

/-- The fuses of a field once the words of some lanes have taken. -/
def fuseLanes (v : BitVec 256) (js : List Nat) (u : BitVec 256) : BitVec 256 := js.foldl (fun u j => u ||| (v &&& fuseLane j)) u

theorem fuseLanes_all {u v : BitVec 256} (hfits : u &&& ~~~v = 0) : fuseLanes v [0, 1, 2, 3] u = v := by
  have hor : fuseLanes v [0, 1, 2, 3] u = u ||| v &&& (fuseLane 0 ||| (fuseLane 1 ||| (fuseLane 2 ||| fuseLane 3))) := by
    simp only [fuseLanes, List.foldl_cons, List.foldl_nil, BitVec.and_or_distrib_left, BitVec.or_assoc]
  rw [hor, fuseLanes_cover, BitVec.and_allOnes]
  ext n hn
  simpa using getElem_of_and_not hfits n hn

section
variable {get : Sec → BitVec 256} {set : BitVec 256 → Sec → Sec} {v : BitVec 256} {w : Nat → FuseStep} (L : ProgramsLanes get set v w)
include L

theorem ProgramsLanes.good_whole_iff (j : Nat) (x : Sec) : (w j).good (programWhole (w j) x) = true ↔ laneFits (get x) v j := by
  rw [L.whole, L.good, L.get_set, beq_iff_eq, laneFits_iff_reads_back]

theorem ProgramsLanes.fits_whole_iff (i j : Nat) (x : Sec) : laneFits (get (programWhole (w i) x)) v j ↔ laneFits (get x) v j := by
  rw [L.whole, L.get_set, laneFits_or]

/-- Words that lose no bit take one after another. -/
theorem programFuses_lanes_fit (r : List FuseStep) (js : List Nat) (i : Nat) (s : State) (hfits : ∀ j ∈ js, laneFits (get s.sec) v j) :
    programFuses .done i (js.map w ++ r) s =
      programFuses .done (i + js.length) r (modSec (fun x => set (fuseLanes v js (get x)) x) s) := by
  induction js generalizing i s with
  | nil => simp [fuseLanes, modSec, L.set_get]
  | cons j js ih =>
    obtain ⟨hj, hjs⟩ := List.forall_mem_cons.mp hfits
    rw [List.map_cons, List.cons_append, programFuses_done_good ((L.good_whole_iff j s.sec).mpr hj),
      ih _ _ fun k hk => (L.fits_whole_iff j k s.sec).mpr (hjs k hk)]
    simp [modSec, L.whole, L.get_set, L.set_set, fuseLanes, Nat.add_comm, Nat.add_left_comm]

/-- A word that loses a bit ends the command with 7, and only this field has changed. -/
theorem programFuses_lanes_lost (r : List FuseStep) (js : List Nat) (i : Nat) (s : State) (hlost : ¬∀ j ∈ js, laneFits (get s.sec) v j) :
    ∃ u, programFuses .done i (js.map w ++ r) s = (7, modSec (set u) s) := by
  induction js generalizing i s with
  | nil => simp at hlost
  | cons j js ih =>
    rw [List.map_cons, List.cons_append]
    by_cases hj : laneFits (get s.sec) v j
    · rw [programFuses_done_good ((L.good_whole_iff j s.sec).mpr hj)]
      obtain ⟨u, hu⟩ := ih (i + 1) (modSec (programWhole (w j)) s) fun h =>
        hlost (List.forall_mem_cons.mpr ⟨hj, fun k hk => (L.fits_whole_iff j k s.sec).mp (h k hk)⟩)
      exact ⟨u, by rw [hu]; simp [modSec, L.whole, L.set_set]⟩
    · rw [programFuses_done_bad (mt (L.good_whole_iff j s.sec).mp hj)]
      exact ⟨get s.sec ||| (v &&& fuseLane j), by simp only [modSec, L.whole]⟩

theorem programFuses_field_fits {s : State} (hfits : get s.sec &&& ~~~v = 0) (r : List FuseStep) :
    programFuses .done 0 (w 0 :: w 1 :: w 2 :: w 3 :: r) s = programFuses .done 4 r (modSec (set v) s) := by
  refine (programFuses_lanes_fit L r [0, 1, 2, 3] 0 s ((laneFits_all_iff ..).mpr hfits)).trans ?_
  simp only [modSec, fuseLanes_all hfits]
  rfl

theorem programFuses_field_lost {s : State} (hlost : get s.sec &&& ~~~v ≠ 0) (r : List FuseStep) :
    ∃ u, programFuses .done 0 (w 0 :: w 1 :: w 2 :: w 3 :: r) s = (7, modSec (set u) s) :=
  programFuses_lanes_lost L r [0, 1, 2, 3] 0 s (mt (laneFits_all_iff ..).mp hlost)

end

/-! ### No command clears a fuse bit (20 R507) -/

/-- Every fuse bit of `x` is set in `y`. -/
def FusesRise (x y : Sec) : Prop :=
  x.lc &&& ~~~ y.lc = 0 ∧ x.svn &&& ~~~ y.svn = 0 ∧ x.ownkh &&& ~~~ y.ownkh = 0 ∧ x.idpriv &&& ~~~ y.idpriv = 0 ∧
  (x.ownreq = true → y.ownreq = true) ∧ (x.dbgen = true → y.dbgen = true) ∧ (x.idgen = true → y.idgen = true) ∧
  (x.revoke = true → y.revoke = true) ∧ (x.kill = true → y.kill = true)

theorem FusesRise.refl (x : Sec) : FusesRise x x := by simp [FusesRise]

theorem and_not_trans {n : Nat} {a b c : BitVec n} (hab : a &&& ~~~b = 0) (hbc : b &&& ~~~c = 0) : a &&& ~~~c = 0 := by
  ext k hk
  simpa using fun ha => getElem_of_and_not hbc k hk (getElem_of_and_not hab k hk ha)

theorem and_not_or_self {n : Nat} (a b : BitVec n) : a &&& ~~~(a ||| b) = 0 := by
  rw [BitVec.not_or, ← BitVec.and_assoc, BitVec.and_not_self]
  exact BitVec.zero_and

theorem FusesRise.trans {x y z : Sec} (hxy : FusesRise x y) (hyz : FusesRise y z) : FusesRise x z := by
  obtain ⟨a1, a2, a3, a4, a5, a6, a7, a8, a9⟩ := hxy
  obtain ⟨b1, b2, b3, b4, b5, b6, b7, b8, b9⟩ := hyz
  exact ⟨and_not_trans a1 b1, and_not_trans a2 b2, and_not_trans a3 b3, and_not_trans a4 b4, b5 ∘ a5, b6 ∘ a6, b7 ∘ a7, b8 ∘ a8, b9 ∘ a9⟩

/-- A word of fuses sets bits and clears none, whichever of its bits take. -/
def WordRises (w : FuseStep) : Prop := ∀ m x, FusesRise x (w.put m x)

theorem lcStep_rises (b : Nat) : WordRises (lcStep b) := by
  intro m x
  unfold lcStep
  dsimp only
  split
  · simp [FusesRise, and_not_or_self]
  · exact .refl x

theorem killStep_rises : WordRises killStep := fun m x => by simp +contextual [FusesRise, killStep]
theorem revokeStep_rises : WordRises revokeStep := fun m x => by simp +contextual [FusesRise, revokeStep]
theorem idgenStep_rises : WordRises idgenStep := fun m x => by simp +contextual [FusesRise, idgenStep]
theorem ownerFlagsStep_rises (req dbg : Bool) : WordRises (ownerFlagsStep req dbg) := fun m x => by
  simp +contextual [FusesRise, ownerFlagsStep]
theorem ownkhStep_rises (h : BitVec 256) (i : Nat) : WordRises (ownkhStep h i) := fun m x => by
  simp [FusesRise, ownkhStep, and_not_or_self]
theorem idprivStep_rises (k : BitVec 256) (i : Nat) : WordRises (idprivStep k i) := fun m x => by
  simp [FusesRise, idprivStep, and_not_or_self]
theorem svnStep_rises (v : BitVec 64) : WordRises (svnStep v) := fun m x => by
  simp [FusesRise, svnStep, and_not_or_self]

theorem programFuses_rises (e : FuseEnd) (steps : List FuseStep) (hsteps : ∀ w ∈ steps, WordRises w) (i : Nat) (s : State) :
    FusesRise s.sec (programFuses e i steps s).2.sec := by
  induction steps generalizing i s with
  | nil => exact .refl _
  | cons w r ih =>
    obtain ⟨hw, hr⟩ := List.forall_mem_cons.mp hsteps
    unfold programFuses
    split
    · exact .refl _
    · split
      · exact hw ..
      · dsimp only
        split
        · exact (hw (BitVec.allOnes 256) s.sec).trans (ih hr (i + 1) (modSec (w.put (BitVec.allOnes 256)) s))
        · exact hw ..

theorem secProgram_rises {steps : List FuseStep} (hsteps : ∀ w ∈ steps, WordRises w) (cmd : Nat) (e : FuseEnd) (s : State) :
    FusesRise s.sec (secProgram cmd e steps s).sec :=
  programFuses_rises e steps hsteps 0 s

theorem secResult_rises {s t : State} {cmd res : Nat} (hsame : t.sec = s.sec) : FusesRise s.sec (secResult cmd res t).sec := by
  rw [secResult_sec, hsame]
  exact .refl _

theorem lcadvEffect_rises (e : FuseEnd) (s : State) : FusesRise s.sec (lcadvEffect e s).sec := by
  unfold lcadvEffect
  split
  · exact .refl _
  · exact secProgram_rises (by simp [lcStep_rises]) ..

theorem genidEffect_rises (e : FuseEnd) (s : State) : FusesRise s.sec (genidEffect e s).sec := by
  unfold genidEffect
  dsimp only
  split
  · exact .refl _
  · have hfuses := programFuses_rises e [idprivStep (Config.entropy s.freeCtr) 0, idprivStep (Config.entropy s.freeCtr) 1,
      idprivStep (Config.entropy s.freeCtr) 2, idprivStep (Config.entropy s.freeCtr) 3, idgenStep]
      (by simp [idprivStep_rises, idgenStep_rises]) 0 { s with freeCtr := s.freeCtr + 1 }
    rw [secResult_sec, modSec_sec]
    split <;> exact hfuses

theorem provisionEffect_rises (a : BitVec 48) (e : FuseEnd) (s : State) : FusesRise s.sec (provisionEffect a e s).sec := by
  unfold provisionEffect
  split
  · exact .refl _
  · split
    · exact secResult_rises (by rw [devReadNotes_sec])
    · dsimp only
      split
      · exact .refl _
      · split
        · exact .refl _
        · exact secProgram_rises (by simp [ownkhStep_rises, ownerFlagsStep_rises, lcStep_rises]) ..

theorem returnEffect_rises (a : BitVec 48) (e : FuseEnd) (s : State) : FusesRise s.sec (returnEffect a e s).sec := by
  unfold returnEffect
  split
  · exact .refl _
  · split
    · exact secResult_rises (by rw [devReadNotes_sec])
    · dsimp only
      split
      · exact .refl _
      · have herased : FusesRise s.sec (modSec (fun x => { x with ownerKeys := [] }) s).sec := .refl _
        exact herased.trans (secProgram_rises (by simp [revokeStep_rises, lcStep_rises]) ..)

theorem eolEffect_rises (e : FuseEnd) (s : State) : FusesRise s.sec (eolEffect e s).sec := by
  unfold eolEffect
  split
  · exact .refl _
  · exact secProgram_rises (by simp [killStep_rises, lcStep_rises]) ..

theorem advsvnEffect_rises (e : FuseEnd) (s : State) : FusesRise s.sec (advsvnEffect e s).sec := by
  unfold advsvnEffect
  split
  · exact .refl _
  · refine secProgram_rises ?_ ..
    split
    · simp [svnStep_rises]
    · simp

theorem killEffect_rises (e : FuseEnd) (s : State) : FusesRise s.sec (killEffect e s).sec :=
  secProgram_rises (by simp [killStep_rises]) ..

/-! ### LCADV, KILL, EOL and ADVSVN (20 Table 20.4, R508) -/

theorem ends_lcadv_refused {s : State} (hstate : s.sec.state ≠ 0) (e : FuseEnd) : Ends s (.lcadv e) 1 1 id :=
  ends_of_secResult (t := s) (cmd := 1) (res := 1) (by rw [exec_lcadv, execLcadv, lcadvEffect, if_pos hstate]) rfl

section
variable {s : State} (hstate : s.sec.state = 0)
include hstate

theorem exec_lcadv_accepted (e : FuseEnd) : exec (.lcadv e) s = .next (secProgram 1 e [lcStep 0] s) := by
  rw [exec_lcadv, execLcadv, lcadvEffect, if_neg (not_not_intro hstate)]

theorem ends_lcadv_done : Ends s (.lcadv .done) 1 0 (fun y => { y with lc := y.lc ||| 1 }) := by
  refine ends_of_program (exec_lcadv_accepted hstate .done) (programFuses_done_good (lcStep_takes (by decide) _) _) ?_
  rw [modSec_sec, programWhole_lcStep]
  rfl

theorem ends_lcadv_alarm_zero : Ends s (.lcadv (.alarm 0)) 1 8 id :=
  ends_of_program (exec_lcadv_accepted hstate _) (programFuses_alarm ..) rfl

theorem ends_lcadv_alarm_one : Ends s (.lcadv (.alarm 1)) 1 8 (fun y => { y with lc := y.lc ||| 1 }) := by
  refine ends_of_program (exec_lcadv_accepted hstate _) (programFuses_alarm_one (lcStep_takes (by decide) _) _) ?_
  rw [modSec_sec, programWhole_lcStep]
  rfl

theorem ends_lcadv_mismatch : Ends s (.lcadv (.mismatch 0)) 1 7
    (fun y => { y with lc := if (Config.freeBits 256 s.freeCtr).getLsbD 0 then y.lc ||| 1 else y.lc }) := by
  refine ends_of_program (exec_lcadv_accepted hstate _) (programFuses_mismatch ..) ?_
  rw [modSec_sec, drawFree_sec, lcStep]
  dsimp only
  split <;> rfl

end

theorem ends_kill_done (s : State) : Ends s (.kill .done) 8 0 (fun y => { y with kill := true }) :=
  ends_of_program (steps := [killStep]) (t := s) rfl (programFuses_done_good (by simp) _) (by simp)

theorem ends_kill_alarm (s : State) : Ends s (.kill (.alarm 0)) 8 8 id :=
  ends_of_program (steps := [killStep]) (t := s) rfl (programFuses_alarm ..) rfl

theorem ends_kill_mismatch (s : State) :
    Ends s (.kill (.mismatch 0)) 8 7 (fun y => { y with kill := y.kill || (Config.freeBits 256 s.freeCtr).getLsbD 0 }) :=
  ends_of_program (steps := [killStep]) (t := s) rfl (programFuses_mismatch ..) rfl

theorem ends_eol_refused {s : State} (hstate : s.sec.state = 4) (e : FuseEnd) : Ends s (.eol e) 5 1 id :=
  ends_of_secResult (t := s) (cmd := 5) (res := 1) (by rw [exec_eol, execEol, eolEffect, if_pos hstate]) rfl

section
variable {s : State} (hstate : s.sec.state ≠ 4)
include hstate

theorem exec_eol_accepted (e : FuseEnd) :
    exec (.eol e) s = .next (secProgram 5 e [killStep, lcStep 3, lcStep 2, lcStep 1, lcStep 0] s) := by
  rw [exec_eol, execEol, eolEffect, if_neg hstate]

/-- The four bits of the LC code make it 15, whatever it was. -/
theorem ends_eol_done : Ends s (.eol .done) 5 0 (fun y => { y with kill := true, lc := 15 }) := by
  have hrun : programFuses .done 0 [killStep, lcStep 3, lcStep 2, lcStep 1, lcStep 0] s = (0, modSec (programWhole (lcStep 0))
      (modSec (programWhole (lcStep 1)) (modSec (programWhole (lcStep 2)) (modSec (programWhole (lcStep 3))
        (modSec (programWhole killStep) s))))) := by
    rw [programFuses_done_good (by simp), programFuses_done_good (lcStep_takes (by decide) _),
      programFuses_done_good (lcStep_takes (by decide) _), programFuses_done_good (lcStep_takes (by decide) _),
      programFuses_done_good (lcStep_takes (by decide) _), programFuses_done_nil]
  have hlc : ∀ lc : BitVec 4, lc ||| 8#4 ||| 4#4 ||| 2#4 ||| 1#4 = 15#4 := by decide
  refine ends_of_program (exec_eol_accepted hstate _) hrun ?_
  simp [hlc]

theorem ends_eol_alarm : Ends s (.eol (.alarm 1)) 5 8 (fun y => { y with kill := true }) :=
  ends_of_program (exec_eol_accepted hstate _) (programFuses_alarm_one (by simp) _) (by simp)

end

theorem ends_advsvn_refused {s : State} (h1 : s.sec.state ≠ 1) (h2 : s.sec.state ≠ 2) (e : FuseEnd) : Ends s (.advsvn e) 6 1 id :=
  ends_of_secResult (t := s) (cmd := 6) (res := 1) (by rw [exec_advsvn, execAdvsvn, advsvnEffect, if_pos (by simpa using ⟨h1, h2⟩)]) rfl

/-- The security version is programmed only where the running image's is the higher one. -/
theorem ends_advsvn_done {s : State} (hstate : s.sec.state = 1 ∨ s.sec.state = 2) : Ends s (.advsvn .done) 6 0 (fun y => { y with
    svn := if svnFused s < y.svnr.toNat then y.svn ||| BitVec.ofNat 64 (2 ^ y.svnr.toNat - 1) else y.svn }) := by
  have hexec : exec (.advsvn .done) s = .next (secProgram 6 .done
      (if svnFused s < s.sec.svnr.toNat then [svnStep (BitVec.ofNat 64 (2 ^ s.sec.svnr.toNat - 1))] else []) s) := by
    rw [exec_advsvn, execAdvsvn, advsvnEffect, if_neg (by rcases hstate with h | h <;> simp [h])]
  by_cases hlower : svnFused s < s.sec.svnr.toNat
  · rw [if_pos hlower] at hexec
    refine ends_of_program hexec (programFuses_done_good (svnStep_takes _ s.sec) _) ?_
    simp only [modSec_sec, programWhole_svnStep, if_pos hlower]
  · rw [if_neg hlower] at hexec
    refine ends_of_program hexec (programFuses_done_nil 0 s) ?_
    simp only [if_neg hlower]

/-! ### GENID (20 R507, Table 20.4) -/

theorem ends_genid_refused {s : State} (hstate : s.sec.state ≠ 1 ∨ s.sec.idgen = true) (e : FuseEnd) : Ends s (.genid e) 2 1 id :=
  ends_of_secResult (t := s) (cmd := 2) (res := 1) (by rw [exec_genid, execGenid, genidEffect, if_pos (by simpa using hstate)]) rfl

/-- The words of the secret key `k`, and IDGEN. -/
def genidSteps (k : BitVec 256) : List FuseStep := [idprivStep k 0, idprivStep k 1, idprivStep k 2, idprivStep k 3, idgenStep]

/-- The public key is shown once there is a key. -/
def showPublic (x : Sec) : Sec := if x.idgen then { x with idpub := Config.sm2Public x.idpriv } else x

section
variable {s : State} (hstate : s.sec.state = 1) (hidgen : s.sec.idgen = false)
include hstate hidgen

theorem exec_genid_accepted {e : FuseEnd} {res : Nat} {u : State}
    (hrun : programFuses e 0 (genidSteps (Config.entropy s.freeCtr)) { s with freeCtr := s.freeCtr + 1 } = (res, u)) :
    exec (.genid e) s = .next (secResult 2 res (modSec showPublic u)) := by
  rw [exec_genid, execGenid, genidEffect, if_neg (by simp [hstate, hidgen])]
  unfold genidSteps at hrun
  dsimp only
  rw [hrun]
  rfl

theorem ends_genid_done (hfits : s.sec.idpriv &&& ~~~Config.entropy s.freeCtr = 0) : Ends s (.genid .done) 2 0
    (fun y => { y with idpriv := Config.entropy s.freeCtr, idgen := true, idpub := Config.sm2Public (Config.entropy s.freeCtr) }) := by
  have hkey := programFuses_field_fits (programsLanes_idpriv (Config.entropy s.freeCtr)) (s := { s with freeCtr := s.freeCtr + 1 }) hfits
    [idgenStep]
  have hrun := hkey.trans (programFuses_done_good (by simp) [])
  refine ends_of_secResult (exec_genid_accepted hstate hidgen (hrun.trans (programFuses_done_nil ..))) ?_
  simp [showPublic]

/-- Where a fused bit is to be 0, no word of IDGEN is programmed. -/
theorem genid_lost (hlost : s.sec.idpriv &&& ~~~Config.entropy s.freeCtr ≠ 0) :
    ∃ t, exec (.genid .done) s = .next t ∧ t.sec.result = 7 ∧ t.sec.idgen = false := by
  obtain ⟨u, hrun⟩ := programFuses_field_lost (programsLanes_idpriv (Config.entropy s.freeCtr)) (s := { s with freeCtr := s.freeCtr + 1 })
    hlost [idgenStep]
  refine ⟨_, exec_genid_accepted hstate hidgen hrun, rfl, ?_⟩
  simp [showPublic, hidgen]

theorem ends_genid_alarm : Ends s (.genid (.alarm 0)) 2 8 id := by
  refine ends_of_secResult (exec_genid_accepted hstate hidgen (programFuses_alarm ..)) ?_
  simp [showPublic, hidgen]

end

/-! ### PROVISION (20 R508, R515) -/

theorem ends_provision_refused {s : State} (hstate : s.sec.state ≠ 1 ∨ s.sec.idgen = false) (a : BitVec 48) (e : FuseEnd) :
    Ends s (.provision a e) 3 1 id :=
  ends_of_secResult (t := s) (cmd := 3) (res := 1)
    (by rw [exec_provision, execProvision, provisionEffect, if_pos (by simpa using hstate)]) rfl

/-- The words that PROVISION programs from its block. -/
def provisionSteps (b : List Byte) : List FuseStep :=
  [ownkhStep (BitVec.ofNat 256 (leAt b 0 32)) 0, ownkhStep (BitVec.ofNat 256 (leAt b 0 32)) 1, ownkhStep (BitVec.ofNat 256 (leAt b 0 32)) 2,
    ownkhStep (BitVec.ofNat 256 (leAt b 0 32)) 3, ownerFlagsStep ((leAt b 32 1).testBit 0) ((leAt b 32 1).testBit 1), lcStep 1]

/-- The owner's key hash is programmed. -/
def withHash (b : List Byte) (x : Sec) : Sec := { x with ownkh := BitVec.ofNat 256 (leAt b 0 32) }

/-- Where the hash takes, the flags and the LC code are left to program. -/
theorem programFuses_provision_hash {s : State} {b : List Byte} (hfits : s.sec.ownkh &&& ~~~BitVec.ofNat 256 (leAt b 0 32) = 0) :
    programFuses .done 0 (provisionSteps b) s =
      programFuses .done 4 [ownerFlagsStep ((leAt b 32 1).testBit 0) ((leAt b 32 1).testBit 1), lcStep 1] (modSec (withHash b) s) :=
  programFuses_field_fits (programsLanes_ownkh (BitVec.ofNat 256 (leAt b 0 32))) hfits _

section
variable {s : State} {a : BitVec 48} (hstate : s.sec.state = 1) (hidgen : s.sec.idgen = true)
include hstate hidgen

theorem ends_provision_unread (hread : devRead s (a.toNat / 64 * 64) 64 = none) (e : FuseEnd) : Ends s (.provision a e) 3 9 id := by
  refine ends_of_secResult (t := devReadNotes (secAddr a) 64 s) (cmd := 3) (res := 9) ?_ (devReadNotes_sec ..)
  rw [exec_provision, execProvision, provisionEffect, if_neg (by simp [hstate, hidgen]), secAddr, hread]

variable {b : List Byte} (hread : devRead s (a.toNat / 64 * 64) 64 = some b)
include hread

theorem provisionEffect_of_read (e : FuseEnd) : provisionEffect a e s =
    if 4 ≤ leAt b 32 1 ∨ (b.drop 33).any (· != 0) = true then secResult 3 2 s
    else if s.sec.ownkh &&& ~~~BitVec.ofNat 256 (leAt b 0 32) ≠ 0 then secResult 3 3 s
    else secProgram 3 e (provisionSteps b) s := by
  rw [provisionEffect, if_neg (by simp [hstate, hidgen]), secAddr, hread]
  simp only [Bool.or_eq_true, decide_eq_true_eq]
  rfl

theorem ends_provision_malformed (hform : 4 ≤ leAt b 32 1 ∨ (b.drop 33).any (· != 0) = true) (e : FuseEnd) :
    Ends s (.provision a e) 3 2 id :=
  ends_of_secResult (t := s) (cmd := 3) (res := 2)
    (by rw [exec_provision, execProvision, provisionEffect_of_read hstate hidgen hread, if_pos hform]) rfl

variable (hform : ¬(4 ≤ leAt b 32 1 ∨ (b.drop 33).any (· != 0) = true))
include hform

theorem ends_provision_otherHash (hlost : s.sec.ownkh &&& ~~~BitVec.ofNat 256 (leAt b 0 32) ≠ 0) (e : FuseEnd) :
    Ends s (.provision a e) 3 3 id :=
  ends_of_secResult (t := s) (cmd := 3) (res := 3)
    (by rw [exec_provision, execProvision, provisionEffect_of_read hstate hidgen hread, if_neg hform, if_pos hlost]) rfl

variable (hfits : s.sec.ownkh &&& ~~~BitVec.ofNat 256 (leAt b 0 32) = 0)
include hfits

theorem exec_provision_accepted (e : FuseEnd) : exec (.provision a e) s = .next (secProgram 3 e (provisionSteps b) s) := by
  rw [exec_provision, execProvision, provisionEffect_of_read hstate hidgen hread, if_neg hform, if_neg (not_not_intro hfits)]

theorem ends_provision_done (hreq : s.sec.ownreq = true → (leAt b 32 1).testBit 0 = true)
    (hdbg : s.sec.dbgen = true → (leAt b 32 1).testBit 1 = true) : Ends s (.provision a .done) 3 0 (fun y => { y with
      ownkh := BitVec.ofNat 256 (leAt b 0 32), ownreq := (leAt b 32 1).testBit 0, dbgen := (leAt b 32 1).testBit 1, lc := y.lc ||| 2 }) := by
  have hflags := (ownerFlagsStep_good_iff _ _ (withHash b s.sec)).mpr ⟨hreq, hdbg⟩
  have hlc := (programFuses_provision_hash hfits).trans (programFuses_done_good (s := modSec (withHash b) s) hflags _)
  have hrun := hlc.trans (programFuses_done_good (lcStep_takes (by decide) _) [])
  refine ends_of_program (exec_provision_accepted hstate hidgen hread hform hfits _) hrun ?_
  simp [withHash, Bool.or_eq_right_iff_imp.mpr hreq, Bool.or_eq_right_iff_imp.mpr hdbg, -Nat.testBit_zero]

theorem ends_provision_flagLost (hlost : (s.sec.ownreq = true ∧ (leAt b 32 1).testBit 0 = false) ∨
    (s.sec.dbgen = true ∧ (leAt b 32 1).testBit 1 = false)) : Ends s (.provision a .done) 3 7 (fun y => { y with
      ownkh := BitVec.ofNat 256 (leAt b 0 32), ownreq := y.ownreq || (leAt b 32 1).testBit 0,
      dbgen := y.dbgen || (leAt b 32 1).testBit 1 }) := by
  have hbad : ¬((s.sec.ownreq = true → (leAt b 32 1).testBit 0 = true) ∧ (s.sec.dbgen = true → (leAt b 32 1).testBit 1 = true)) := by
    rintro ⟨hreq, hdbg⟩
    rcases hlost with ⟨hset, hclear⟩ | ⟨hset, hclear⟩
    · exact Bool.false_ne_true (hclear.symm.trans (hreq hset))
    · exact Bool.false_ne_true (hclear.symm.trans (hdbg hset))
  have hflags := mt (ownerFlagsStep_good_iff _ _ (withHash b s.sec)).mp hbad
  have hrun := (programFuses_provision_hash hfits).trans (programFuses_done_bad (s := modSec (withHash b) s) hflags _)
  exact ends_of_program (exec_provision_accepted hstate hidgen hread hform hfits _) hrun (by simp [withHash])

theorem ends_provision_alarm : Ends s (.provision a (.alarm 0)) 3 8 id :=
  ends_of_program (exec_provision_accepted hstate hidgen hread hform hfits _) (programFuses_alarm ..) rfl

end

/-! ### RETURN (20 Table 20.4) -/

theorem ends_return_refused {s : State} (hstate : s.sec.state ≠ 2) (a : BitVec 48) (e : FuseEnd) : Ends s (.returnDev a e) 4 1 id :=
  ends_of_secResult (t := s) (cmd := 4) (res := 1) (by rw [exec_returnDev, execReturnDev, returnEffect, if_pos hstate]) rfl

/-- The block holds the owner's key and its signature on the identity. -/
def ReturnSigned (s : State) (b : List Byte) : Prop :=
  Config.sm3 (b.take 64) = s.sec.ownkh ∧ Config.sm2Verify (BitVec.ofNat 512 (leNat (b.take 64))) idReturn
    (bytesOf (idPublic s) 64 ++ txtReturn) (BitVec.ofNat 512 (leAt b 64 64)) = true

/-- The owner's key store is erased. -/
def eraseOwnerKeys (x : Sec) : Sec := { x with ownerKeys := [] }

section
variable {s : State} {a : BitVec 48} (hstate : s.sec.state = 2)
include hstate

theorem ends_return_unread (hread : devRead s (a.toNat / 64 * 64) 128 = none) (e : FuseEnd) : Ends s (.returnDev a e) 4 9 id := by
  refine ends_of_secResult (t := devReadNotes (secAddr a) 128 s) (cmd := 4) (res := 9) ?_ (devReadNotes_sec ..)
  rw [exec_returnDev, execReturnDev, returnEffect, if_neg (not_not_intro hstate), secAddr, hread]

variable {b : List Byte} (hread : devRead s (a.toNat / 64 * 64) 128 = some b)
include hread

theorem ends_return_unsigned (hsigned : ¬ReturnSigned s b) (e : FuseEnd) : Ends s (.returnDev a e) 4 4 id := by
  refine ends_of_secResult (t := s) (cmd := 4) (res := 4) ?_ rfl
  rw [exec_returnDev, execReturnDev, returnEffect, if_neg (not_not_intro hstate), secAddr, hread]
  dsimp only
  rw [if_pos]
  rw [Bool.or_eq_true, decide_eq_true_eq, Bool.not_eq_true', ← Bool.not_eq_true]
  exact Decidable.not_and_iff_not_or_not.mp hsigned

variable (hsigned : ReturnSigned s b)
include hsigned

theorem exec_return_accepted (e : FuseEnd) :
    exec (.returnDev a e) s = .next (secProgram 4 e [revokeStep, lcStep 2] (modSec eraseOwnerKeys s)) := by
  obtain ⟨hkey, hverify⟩ := hsigned
  rw [exec_returnDev, execReturnDev, returnEffect, if_neg (not_not_intro hstate), secAddr, hread]
  dsimp only
  rw [if_neg (by simp [hkey, hverify])]
  rfl

theorem ends_return_done :
    Ends s (.returnDev a .done) 4 0 (fun y => { y with ownerKeys := [], revoke := true, lc := y.lc ||| 4 }) := by
  have hrun := (programFuses_done_good (i := 0) (w := revokeStep) (s := modSec eraseOwnerKeys s) (by simp) [lcStep 2]).trans
    (programFuses_done_good (lcStep_takes (by decide) _) [])
  exact ends_of_program (exec_return_accepted hstate hread hsigned _) hrun (by simp [eraseOwnerKeys])

theorem ends_return_alarm : Ends s (.returnDev a (.alarm 1)) 4 8 (fun y => { y with ownerKeys := [], revoke := true }) :=
  ends_of_program (exec_return_accepted hstate hread hsigned _) (programFuses_alarm_one (by simp) _) (by simp [eraseOwnerKeys])

theorem ends_return_mismatch : Ends s (.returnDev a (.mismatch 0)) 4 7
    (fun y => { y with ownerKeys := [], revoke := y.revoke || (Config.freeBits 256 s.freeCtr).getLsbD 0 }) :=
  ends_of_program (exec_return_accepted hstate hread hsigned _) (programFuses_mismatch ..) rfl

end

/-! ### ATTEST (20 R518, R519, Table 20.5) -/

@[simp] theorem leBytes_length (n v : Nat) : (leBytes n v).length = n := by
  induction n generalizing v with
  | zero => rfl
  | succ n ih => simp [leBytes, ih]

@[simp] theorem bytesOf_length {w : Nat} (v : BitVec w) (n : Nat) : (bytesOf v n).length = n := leBytes_length ..

theorem devRead_length {s : State} {a n : Nat} {b : List Byte} (hread : devRead s a n = some b) : b.length = n := by
  unfold devRead at hread
  split at hread
  · split at hread
    · cases hread
      exact readN_length ..
    · cases hread
  · split at hread
    · cases hread
      exact readN_length ..
    · cases hread
  · cases hread

theorem reportBody_length (s : State) {nonce : List Byte} (hnonce : nonce.length = 32) : (reportBody s nonce).length = 256 := by
  simp [reportBody, asciiBytes, hnonce]

theorem signReport_fst (nonce : List Byte) (s : State) : (signReport nonce s).1 = reportBody s nonce ++
    bytesOf (Config.sm2Sign s.sec.idpriv idAttest (reportBody s nonce) (Config.entropy s.freeCtr)) 64 := rfl

theorem signReport_length (s : State) {nonce : List Byte} (hnonce : nonce.length = 32) : (signReport nonce s).1.length = 320 := by
  rw [signReport_fst, List.length_append, reportBody_length s hnonce, bytesOf_length]

theorem signReport_body (s : State) {nonce : List Byte} (hnonce : nonce.length = 32) :
    (signReport nonce s).1.take 256 = reportBody s nonce := by
  rw [signReport_fst, List.take_left' (reportBody_length s hnonce)]

theorem attestCheck_state {s : State} (hstate : s.sec.state = 0 ∨ s.sec.state = 4) : attestCheck s = 1 := by
  rw [attestCheck, if_pos (by simpa using hstate)]

/-- After the life cycle the three conditions of R518 in their order. -/
theorem attestCheck_accepted {s : State} (hstate : ¬(s.sec.state = 0 ∨ s.sec.state = 4)) :
    attestCheck s = if s.sec.kill then 6 else if s.sec.idgen = false then 0xA else if s.sec.idblk then 5 else 0 := by
  rw [attestCheck, if_neg (by simpa using hstate)]
  simp

theorem ends_attest_refused {s : State} {code : Nat} (hcheck : attestCheck s = code) (hcode : code ≠ 0) (a : BitVec 48) (alarmed : Bool) :
    Ends s (.secAttest ⟨a, alarmed⟩) 7 (BitVec.ofNat 8 code) id :=
  ends_of_secResult (t := s) (cmd := 7) (by rw [exec_secAttest, execSecAttest, attestEffect, if_pos (by rwa [hcheck]), hcheck]) rfl

section
variable {s : State} {a : BitVec 48} (hcheck : attestCheck s = 0)
include hcheck

theorem ends_attest_unread (hread : devRead s (a.toNat / 64 * 64) 32 = none) (alarmed : Bool) : Ends s (.secAttest ⟨a, alarmed⟩) 7 9 id := by
  refine ends_of_secResult (t := devReadNotes (secAddr a) 32 s) (cmd := 7) (res := 9) ?_ (devReadNotes_sec ..)
  rw [exec_secAttest, execSecAttest, attestEffect, if_neg (not_not_intro hcheck), secAddr, hread]

variable {nonce : List Byte} (hread : devRead s (a.toNat / 64 * 64) 32 = some nonce)
include hread

theorem exec_attest_alarmed : exec (.secAttest ⟨a, true⟩) s = .next (secResult 7 8 (signReport nonce s).2) := by
  rw [exec_secAttest, execSecAttest, attestEffect, if_neg (not_not_intro hcheck), secAddr, hread]
  rfl

theorem exec_attest_signs : exec (.secAttest ⟨a, false⟩) s =
    .next (secResult 7 0 (devWrite (a.toNat / 64 * 64 + 64) (signReport nonce s).1 (signReport nonce s).2)) := by
  rw [exec_secAttest, execSecAttest, attestEffect, if_neg (not_not_intro hcheck), secAddr, hread]
  rfl

theorem ends_attest_alarmed : Ends s (.secAttest ⟨a, true⟩) 7 8 id := ends_of_secResult (exec_attest_alarmed hcheck hread) rfl

/-- An alarm ends the command before it has written anything. -/
theorem attest_alarmed_writes_nothing {t : State} (hexec : exec (.secAttest ⟨a, true⟩) s = .next t) : t.hbm = s.hbm ∧ t.cores = s.cores := by
  rw [exec_attest_alarmed hcheck hread] at hexec
  cases hexec
  exact ⟨rfl, rfl⟩

theorem ends_attest_signs : Ends s (.secAttest ⟨a, false⟩) 7 0 id :=
  ends_of_secResult (exec_attest_signs hcheck hread) (devWrite_sec ..)

end

/-! ### Alarms (20 R520, R521, Table 20.6) -/

/-- What every alarm of source `b` leaves in SEC_ALM and the report's flags. -/
def alarmNoted (b : Nat) (x : Sec) : Sec :=
  { x with src := x.src ||| BitVec.ofNat 5 (2 ^ b), count := satInc x.count, alarmSeen := true }

/-- What ERASE does. -/
def alarmErased (x : Sec) : Sec := { x with ownerKeys := [], idblk := true }

theorem satInc_byte (c : BitVec 8) : satInc c = if c = 255 then 255 else c + 1 := by
  by_cases hfull : c = 255
  · subst hfull
    rfl
  · rw [if_neg hfull]
    exact if_neg hfull

theorem alarm_eq (b : Nat) (s : State) : alarm b s =
    if optAlarm s b = 0 then modSec (alarmNoted b) s
    else if optAlarm s b = 1 ∨ s.sec.state.toNat < 2 then deviceReset 9 0 (modSec (alarmNoted b) s)
    else deviceReset 9 0 (modSec alarmErased (modSec (alarmNoted b) s)) := by
  have hnoted : alarmNoted b = fun x => { x with
      src := x.src ||| BitVec.ofNat 5 (2 ^ b), count := if x.count = 255 then 255 else x.count + 1, alarmSeen := true } := by
    funext x
    rw [alarmNoted, satInc_byte]
  rw [alarm, hnoted]
  exact ite_congr rfl (fun _ => rfl) fun _ =>
    ite_congr (by simp only [Bool.or_eq_true, decide_eq_true_eq]) (fun _ => rfl) fun _ => rfl

theorem readOptions_sec (s : State) : (readOptions s).sec = s.sec := rfl

/-- A device reset where none is under way holds the device and names its cause. -/
theorem deviceReset_holds {s : State} (hphase : s.rst.phase ≠ .reset) (code detail : Nat) :
    (deviceReset code detail s).rst.phase = .reset ∧ (deviceReset code detail s).rst.src = BitVec.ofNat 8 code := by
  rw [deviceReset, if_neg hphase]
  exact ⟨rfl, rfl⟩

/-- What a device reset leaves of the fuses and the SEC_ block (21 R522). -/
def secAtReset (x : Sec) : Sec :=
  { x with state := BitVec.ofNat 4 (lcState x.lc), svnr := 0, owncs := false, dbg := 0, busy := false, result := 0, cmd := 0, fwmeas := 0,
           fuseMeas := 0, challenge := none, ownerKeys := [] }

theorem deviceReset_sec (code detail : Nat) (s : State) :
    (deviceReset code detail s).sec = if s.rst.phase = .reset then s.sec else secAtReset s.sec := by
  unfold deviceReset
  split
  · dsimp only
    split <;> split <;> rfl
  · dsimp only
    rw [readOptions_sec]
    split <;> rfl

/-- An alarm that only logs, one that resets the device, and one that erases the secrets first. -/
theorem alarm_of_log {b : Nat} {s : State} (hact : optAlarm s b = 0) : alarm b s = modSec (alarmNoted b) s := by
  rw [alarm_eq, if_pos hact]

theorem alarm_of_reset {b : Nat} {s : State} (hact : optAlarm s b ≠ 0) (hspared : optAlarm s b < 2 ∨ s.sec.state.toNat < 2) :
    alarm b s = deviceReset 9 0 (modSec (alarmNoted b) s) := by
  rw [alarm_eq, if_neg hact, if_pos (by omega)]

theorem alarm_of_erase {b : Nat} {s : State} (hact : 2 ≤ optAlarm s b) (hstate : 2 ≤ s.sec.state.toNat) :
    alarm b s = deviceReset 9 0 (modSec alarmErased (modSec (alarmNoted b) s)) := by
  rw [alarm_eq, if_neg (by omega), if_neg (by omega)]

/-- What the record of an alarm shows stays, where erasing and a device reset keep it. -/
theorem alarm_keeps {b : Nat} {s : State} {P : Sec → Prop} (hnoted : P (alarmNoted b s.sec)) (herased : ∀ x, P x → P (alarmErased x))
    (hreset : ∀ x, P x → P (secAtReset x)) : P (alarm b s).sec := by
  have hheld : ∀ u : State, P u.sec → P (deviceReset 9 0 u).sec := by
    intro u hu
    rw [deviceReset_sec]
    split
    · exact hu
    · exact hreset _ hu
  rw [alarm_eq]
  split
  · exact hnoted
  · split
    · exact hheld _ hnoted
    · exact hheld _ (herased _ hnoted)

theorem alarm_recorded {b : Nat} (hb : b < 5) (s : State) :
    (alarm b s).sec.src.getLsbD b = true ∧ (alarm b s).sec.alarmSeen = true ∧ (alarm b s).sec.count = satInc s.sec.count :=
  alarm_keeps (P := fun x => x.src.getLsbD b = true ∧ x.alarmSeen = true ∧ x.count = satInc s.sec.count)
    ⟨getLsbD_or_twoPow hb _, rfl, rfl⟩ (fun _ h => h) (fun _ h => h)

/-- An alarm counts no unlock and brings no challenge. -/
theorem alarm_fails_challenge (b : Nat) {s : State} (hchallenge : s.sec.challenge = none) :
    (alarm b s).sec.fails = s.sec.fails ∧ (alarm b s).sec.challenge = none :=
  alarm_keeps (P := fun x => x.fails = s.sec.fails ∧ x.challenge = none) ⟨rfl, hchallenge⟩ (fun _ h => h) (fun _ ⟨hfails, _⟩ => ⟨hfails, rfl⟩)

theorem alarm_log_keeps_rst {b : Nat} {s : State} (hact : optAlarm s b = 0) : (alarm b s).rst = s.rst := by
  rw [alarm_of_log hact, modSec_rst]

theorem alarm_resets {b : Nat} {s : State} (hact : optAlarm s b ≠ 0) (hphase : s.rst.phase ≠ .reset) :
    (alarm b s).rst.phase = .reset ∧ (alarm b s).rst.src = 9 := by
  by_cases hspared : optAlarm s b < 2 ∨ s.sec.state.toNat < 2
  · rw [alarm_of_reset hact hspared]
    exact deviceReset_holds (s := modSec (alarmNoted b) s) hphase 9 0
  · rw [alarm_of_erase (by omega) (by omega)]
    exact deviceReset_holds (s := modSec alarmErased (modSec (alarmNoted b) s)) hphase 9 0

theorem alarm_erases {b : Nat} {s : State} (hact : 2 ≤ optAlarm s b) (hstate : 2 ≤ s.sec.state.toNat) :
    (alarm b s).sec.idblk = true ∧ (alarm b s).sec.ownerKeys = [] := by
  rw [alarm_of_erase hact hstate, deviceReset_sec]
  split <;> exact ⟨rfl, rfl⟩

theorem alarm_spares {b : Nat} {s : State} (hspared : optAlarm s b < 2 ∨ s.sec.state.toNat < 2) : (alarm b s).sec.idblk = s.sec.idblk := by
  by_cases hlog : optAlarm s b = 0
  · rw [alarm_of_log hlog]
    rfl
  · rw [alarm_of_reset hlog hspared, deviceReset_sec]
    split <;> rfl

/-- A source's alarm, recorded and acting as the option block says. -/
def AlarmActs (b : Nat) (s t : State) : Prop :=
  t.sec.src.getLsbD b = true ∧ t.sec.alarmSeen = true ∧ t.sec.count = satInc s.sec.count ∧ (optAlarm s b = 0 → t.rst = s.rst) ∧
  (optAlarm s b ≠ 0 → s.rst.phase ≠ .reset → t.rst.phase = .reset ∧ t.rst.src = 9) ∧
  (2 ≤ optAlarm s b → 2 ≤ s.sec.state.toNat → t.sec.idblk = true ∧ t.sec.ownerKeys = []) ∧
  (optAlarm s b < 2 ∨ s.sec.state.toNat < 2 → t.sec.idblk = s.sec.idblk)

theorem alarm_acts {b : Nat} (hb : b < 5) (s : State) : AlarmActs b s (alarm b s) := by
  obtain ⟨hsrc, hseen, hcount⟩ := alarm_recorded hb s
  exact ⟨hsrc, hseen, hcount, alarm_log_keeps_rst, alarm_resets, alarm_erases, alarm_spares⟩

/-! ### Debug unlock (20 R516, R517; 23 R567) -/

/-- A slice left by scan is a matter of its core alone. -/
theorem leaveScan_keeps (s : State) : (leaveScan s).sec = s.sec ∧ (leaveScan s).freeCtr = s.freeCtr := by
  unfold leaveScan
  split
  · exact ⟨rfl, rfl⟩
  · dsimp only
    split <;> exact ⟨rfl, rfl⟩

theorem loadIr_off {s : State} (hoff : s.rst.phase = .off) (code : BitVec 8) (permitted : Bool) (go : State → State) :
    loadIr code permitted go s = s := by
  simp [loadIr, powered, hoff]

/-- DBGUNLOCK outside DEPLOYED acts as BYPASS. -/
theorem dbgUnlockIr_bypass {s : State} (hstate : s.sec.state ≠ 2) (hon : s.rst.phase ≠ .off) (hscan : s.io.scanSel = none)
    (go : State → State) : dbgUnlockIr go s = { s with io := { s.io with ir := 0xFF } } := by
  rw [dbgUnlockIr, beq_eq_false_iff_ne.mpr hstate, loadIr]
  simp [powered, hon, leaveScan_of_none s hscan, modIo]

/-- The state in which DBGUNLOCK acts. -/
def unlockLoaded (s : State) : State := modIo (fun i => { i with ir := 0x10 }) (leaveScan s)

theorem dbgUnlockIr_deployed {s : State} (hstate : s.sec.state = 2) (hon : s.rst.phase ≠ .off) (go : State → State) :
    dbgUnlockIr go s = go (unlockLoaded s) := by
  rw [dbgUnlockIr, hstate, loadIr]
  simp [powered, hon, unlockLoaded]

@[simp] theorem unlockLoaded_sec (s : State) : (unlockLoaded s).sec = s.sec := (leaveScan_keeps s).1
@[simp] theorem unlockLoaded_freeCtr (s : State) : (unlockLoaded s).freeCtr = s.freeCtr := (leaveScan_keeps s).2

/-- A challenge is drawn. -/
theorem challenge_drawn {s : State} (hstate : s.sec.state = 2) (hon : s.rst.phase ≠ .off) : ∃ t, exec .dbgChallenge s = .next t ∧
    t.io.ir = 0x10 ∧ t.sec = { s.sec with challenge := some (Config.entropy s.freeCtr) } ∧ t.freeCtr = s.freeCtr + 1 := by
  refine ⟨drawChallenge (unlockLoaded s), ?_, rfl, ?_, ?_⟩
  · rw [exec_dbgChallenge, execDbgChallenge, dbgUnlockIr_deployed hstate hon]
  · rw [drawChallenge, unlockLoaded_sec, unlockLoaded_freeCtr]
  · rw [drawChallenge, unlockLoaded_freeCtr]

/-- The message of an attempt is right for the challenge that is out, if one is. -/
def unlockPasses (m : BitVec 1032) (s : State) : Bool :=
  match s.sec.challenge with
  | some ch => unlockGood s (bytesOf m 129) ch
  | none => false

theorem unlockGood_blocked {s : State} (hblocked : s.sec.idblk = true) (msg : List Byte) (ch : BitVec 256) : unlockGood s msg ch = false := by
  simp [unlockGood, hblocked]

theorem unlockPasses_blocked {s : State} (hblocked : s.sec.idblk = true) (m : BitVec 1032) : unlockPasses m s = false := by
  unfold unlockPasses
  split
  · exact unlockGood_blocked hblocked ..
  · rfl

/-- Whether an attempt passes is a matter of the SEC_ block and the fuses alone. -/
theorem unlockPasses_congr {s u : State} (hsec : u.sec = s.sec) (m : BitVec 1032) : unlockPasses m u = unlockPasses m s := by
  simp only [unlockPasses, unlockGood, idPublic, hsec]

/-- The challenge is used up. -/
def challengeUsed (x : Sec) : Sec := { x with challenge := none }

/-- An unlock of the scope that the message names. -/
def unlocked (m : BitVec 1032) (x : Sec) : Sec :=
  { x with dbg := BitVec.ofNat 2 (leAt (bytesOf m 129) 64 1), fails := 0, unlockSeen := true }

theorem unlockEffect_eq (m : BitVec 1032) (s : State) : unlockEffect m s =
    if unlockPasses m s then modSec (unlocked m) (modSec challengeUsed s) else unlockFail (modSec challengeUsed s) := by
  unfold unlockEffect unlockPasses
  cases s.sec.challenge <;> rfl

/-- What an attempt leaves in the SEC_ block, by its outcome. -/
def UnlockActs (m : BitVec 1032) (s t : State) : Prop :=
  t.sec.challenge = none ∧
    if unlockPasses m s then t.sec.dbg = BitVec.ofNat 2 (leAt (bytesOf m 129) 64 1) ∧ t.sec.fails = 0 ∧ t.sec.unlockSeen = true
    else if s.sec.fails = 3 then t.sec.fails = 0 ∧ t.sec.alarmSeen = true ∧ t.sec.src.getLsbD 4 = true
    else t.sec.fails = s.sec.fails + 1 ∧ t.sec.dbg = s.sec.dbg

theorem unlockEffect_acts (m : BitVec 1032) (s : State) : UnlockActs m s (unlockEffect m s) := by
  rw [unlockEffect_eq, UnlockActs]
  split
  · exact ⟨rfl, rfl, rfl, rfl⟩
  · unfold unlockFail
    by_cases hfourth : s.sec.fails = 3
    · rw [if_pos hfourth, if_pos (show (modSec challengeUsed s).sec.fails = 3 from hfourth)]
      obtain ⟨hsrc, hseen, -⟩ := alarm_recorded (b := 4) (by decide) (modSec (fun x => { x with fails := 0 }) (modSec challengeUsed s))
      obtain ⟨hfails, hchallenge⟩ := alarm_fails_challenge 4 (s := modSec (fun x => { x with fails := 0 }) (modSec challengeUsed s)) rfl
      exact ⟨hchallenge, hfails, hseen, hsrc⟩
    · rw [if_neg hfourth, if_neg (show ¬(modSec challengeUsed s).sec.fails = 3 from hfourth)]
      exact ⟨rfl, rfl, rfl⟩

theorem unlock_acts {s : State} (hstate : s.sec.state = 2) (hon : s.rst.phase ≠ .off) (m : BitVec 1032) :
    ∃ t, exec (.dbgUnlock m) s = .next t ∧ UnlockActs m s t := by
  refine ⟨unlockEffect m (unlockLoaded s), ?_, ?_⟩
  · rw [exec_dbgUnlock, execDbgUnlock, dbgUnlockIr_deployed hstate hon]
  · have hacts := unlockEffect_acts m (unlockLoaded s)
    rw [UnlockActs, unlockPasses_congr (unlockLoaded_sec s), unlockLoaded_sec] at hacts
    exact hacts

/-! ### The statement -/

/-- No command that programs fuses clears one, however its programming ends. -/
theorem programming_rises (e : FuseEnd) (a : BitVec 48) (s : State) :
    ∀ i ∈ [Instr.lcadv e, .genid e, .provision a e, .returnDev a e, .eol e, .advsvn e, .kill e],
      ∃ t, exec i s = .next t ∧ FusesRise s.sec t.sec := by
  simp only [List.forall_mem_cons]
  exact ⟨⟨_, rfl, lcadvEffect_rises e s⟩, ⟨_, rfl, genidEffect_rises e s⟩, ⟨_, rfl, provisionEffect_rises a e s⟩,
    ⟨_, rfl, returnEffect_rises a e s⟩, ⟨_, rfl, eolEffect_rises e s⟩, ⟨_, rfl, advsvnEffect_rises e s⟩, ⟨_, rfl, killEffect_rises e s⟩,
    by simp⟩

/-- Settles O50: each command's clauses are its `ends_` lemmas; the fuses rise, the unlock and the alarms act as said above. -/
theorem securityActs : Obligations.SecurityActs := by
  unfold Obligations.SecurityActs
  intro e a s x ends lost
  refine ⟨programming_rises e a s, fun h => ends_lcadv_refused h e,
    fun h => ⟨ends_lcadv_done h, ends_lcadv_alarm_zero h, ends_lcadv_alarm_one h, ends_lcadv_mismatch h⟩,
    fun h => ends_genid_refused h e, fun h hidgen => ⟨ends_genid_done h hidgen, genid_lost h hidgen, ends_genid_alarm h hidgen⟩,
    fun h => ends_provision_refused h a e, ?provision, fun h => ends_return_refused h a e, ?returnDev,
    fun h => ends_eol_refused h e, fun h => ⟨ends_eol_done h, ends_eol_alarm h⟩,
    fun h1 h2 => ends_advsvn_refused h1 h2 e, ends_advsvn_done, ends_kill_done s, ends_kill_alarm s, ends_kill_mismatch s,
    ?attest, ?bypass, ?off, ?deployed, ?alarms⟩
  case provision =>
    intro hstate hidgen
    split
    case h_1 hread => exact ends_provision_unread hstate hidgen hread e
    case h_2 b hread =>
      intro req dbg
      split
      case isTrue hform => exact ends_provision_malformed hstate hidgen hread hform e
      case isFalse hform =>
        split
        case isTrue hlost => exact ends_provision_otherHash hstate hidgen hread hform hlost e
        case isFalse hfits =>
          have hfits := Decidable.not_not.mp hfits
          exact ⟨ends_provision_done hstate hidgen hread hform hfits, ends_provision_flagLost hstate hidgen hread hform hfits,
            ends_provision_alarm hstate hidgen hread hform hfits⟩
  case returnDev =>
    intro hstate
    split
    case h_1 hread => exact ends_return_unread hstate hread e
    case h_2 b hread =>
      split
      case isTrue hsigned =>
        exact ⟨ends_return_done hstate hread hsigned, ends_return_alarm hstate hread hsigned, ends_return_mismatch hstate hread hsigned⟩
      case isFalse hsigned => exact ends_return_unsigned hstate hread hsigned e
  case attest =>
    intro alarmed cmd
    split
    case isTrue hstate => exact ends_attest_refused (attestCheck_state hstate) (by decide) a alarmed
    case isFalse hstate =>
      have hcheck := attestCheck_accepted hstate
      split
      case isTrue hkill => exact ends_attest_refused (hcheck.trans (if_pos hkill)) (by decide) a alarmed
      case isFalse hkill =>
        rw [if_neg hkill] at hcheck
        split
        case isTrue hidgen => exact ends_attest_refused (hcheck.trans (if_pos hidgen)) (by decide) a alarmed
        case isFalse hidgen =>
          rw [if_neg hidgen] at hcheck
          split
          case isTrue hidblk => exact ends_attest_refused (hcheck.trans (if_pos hidblk)) (by decide) a alarmed
          case isFalse hidblk =>
            rw [if_neg hidblk] at hcheck
            split
            case h_1 hread => exact ends_attest_unread hcheck hread alarmed
            case h_2 nonce hread =>
              have hnonce := devRead_length hread
              refine ⟨reportBody_length s hnonce, signReport_length s hnonce, signReport_body s hnonce, ?alarmed, ?signs⟩
              case alarmed =>
                rintro rfl
                exact ⟨ends_attest_alarmed hcheck hread, fun t hexec => attest_alarmed_writes_nothing hcheck hread hexec⟩
              case signs =>
                rintro rfl
                exact ⟨ends_attest_signs hcheck hread, exec_attest_signs hcheck hread⟩
  case bypass =>
    intro hstate hon hscan
    exact ⟨congrArg _ (dbgUnlockIr_bypass hstate hon hscan _), fun m => congrArg _ (dbgUnlockIr_bypass hstate hon hscan _)⟩
  case off =>
    intro hoff
    exact ⟨congrArg _ (loadIr_off hoff ..), fun m => congrArg _ (loadIr_off hoff ..)⟩
  case deployed =>
    intro hstate hon
    exact ⟨challenge_drawn hstate hon, fun m => ⟨fun hblocked => unlockPasses_blocked hblocked m, unlock_acts hstate hon m⟩⟩
  case alarms =>
    simp only [List.forall_mem_cons]
    exact ⟨⟨_, rfl, alarm_acts (by decide) s⟩, ⟨_, rfl, alarm_acts (by decide) s⟩, ⟨_, rfl, alarm_acts (by decide) _⟩, by simp⟩

end Sys2Proof.Proofs


/-! # The I3C target (23 R562 to R566)

A frame is left alone, answered at once, or handed to its command (`takeFrame`), and every answer is made by `respond`, so what an answer holds is
said once. What remains of each command is the state that it leaves: the accesses of the management island, the image loader and the flash. -/

namespace Sys2Proof.Proofs

open Sys2Proof Sys2Proof.Machine Sys2Proof.Safety Sys2Proof.Laws

/-! ### Frames and their answers (23 R562, R563) -/

/-- A command is answered under an in-band interrupt with a status, the frame's tag and a payload, and leaves a state of which `g` holds. -/
def Answers (tag : BitVec 8) (s : State) (i : Instr) (st : BitVec 8) (pay : List Byte → Prop) (g : State → Prop) : Prop :=
  ∃ t p, exec i s = .next t ∧ pay p ∧ g t ∧ t.io.ibi = some tag ∧
    t.io.response = some ([st, tag] ++ leBytes 2 p.length ++ p ++ bytesOf (crc32 ([st, tag] ++ leBytes 2 p.length ++ p)) 4)

theorem answers_of_respond {tag st : BitVec 8} {s u : State} {i : Instr} {p : List Byte} {pay : List Byte → Prop} {g : State → Prop}
    (hexec : exec i s = .next (respond st tag p u)) (hpay : pay p) (hg : g (respond st tag p u)) : Answers tag s i st pay g :=
  ⟨_, p, hexec, hpay, hg, rfl, rfl⟩

/-- The target is powered, and no frame is held or unread. -/
structure TargetFree (s : State) : Prop where
  on : s.rst.phase ≠ .off
  unread : s.io.response = none
  held : s.io.running = none

theorem takeFrame_nacked {s : State} (h : s.rst.phase = .off ∨ s.io.response ≠ none ∨ s.io.running ≠ none) (f : Frame)
    (go : State → State) : takeFrame f go s = s :=
  if_pos (by simpa [powered, Option.isSome_iff_ne_none, or_assoc] using h)

/-- A frame that is taken is answered with 1 or 2 where its CRC or its length is wrong, and goes to its command otherwise. -/
theorem takeFrame_free {s : State} (hfree : TargetFree s) (f : Frame) (go : State → State) :
    takeFrame f go s = if f.crcOk then (if f.lenOk then go s else respond 2 f.tag [] s) else respond 1 f.tag [] s := by
  obtain ⟨hon, hunread, hheld⟩ := hfree
  rw [takeFrame, if_neg (by simp [powered, hon, hunread, hheld])]
  cases f.crcOk <;> cases f.lenOk <;> rfl

/-- A command of the target takes the frame `f`, of which it may check the length further. -/
def TakesFrame (f : Frame) (s : State) (i : Instr) : Prop :=
  ∃ h go, exec i s = .next (takeFrame h go s) ∧ h.tag = f.tag ∧ h.crcOk = f.crcOk ∧ (f.lenOk = false → h.lenOk = false)

theorem takesFrame_whole {f : Frame} {s : State} {i : Instr} {go : State → State} (hexec : exec i s = .next (takeFrame f go s)) :
    TakesFrame f s i := ⟨f, go, hexec, rfl, rfl, id⟩

theorem takesFrame_stage (f : Frame) (off : BitVec 64) (data : List Byte) (s : State) : TakesFrame f s (.i3cStage f off data) :=
  ⟨_, _, rfl, rfl, rfl, fun h => by simp [h]⟩

theorem takesFrame_flashwr (f : Frame) (a : BitVec 32) (data : List Byte) (s : State) : TakesFrame f s (.i3cFlashwr f a data) :=
  ⟨_, _, rfl, rfl, rfl, fun h => by simp [h]⟩

theorem TakesFrame.nacked {f : Frame} {s : State} {i : Instr} (htakes : TakesFrame f s i)
    (h : s.rst.phase = .off ∨ s.io.response ≠ none ∨ s.io.running ≠ none) : exec i s = .next s := by
  obtain ⟨g, go, hexec, -, -, -⟩ := htakes
  rw [hexec, takeFrame_nacked h]

section
variable {f : Frame} {s : State} (hfree : TargetFree s)
include hfree

theorem TakesFrame.badCrc {i : Instr} (htakes : TakesFrame f s i) (hcrc : f.crcOk = false) : Answers f.tag s i 1 (· = []) fun _ => True := by
  obtain ⟨g, go, hexec, htag, hsame, -⟩ := htakes
  rw [takeFrame_free hfree, hsame, hcrc, htag] at hexec
  exact answers_of_respond hexec rfl trivial

theorem TakesFrame.badLen {i : Instr} (htakes : TakesFrame f s i) (hcrc : f.crcOk = true) (hlen : f.lenOk = false) :
    Answers f.tag s i 2 (· = []) fun _ => True := by
  obtain ⟨g, go, hexec, htag, hsame, hshort⟩ := htakes
  rw [takeFrame_free hfree, hsame, hcrc, hshort hlen, htag] at hexec
  exact answers_of_respond hexec rfl trivial

/-- A good frame is handed to its command. -/
theorem exec_of_taken {i : Instr} {go : State → State} (hexec : exec i s = .next (takeFrame f go s)) (hcrc : f.crcOk = true)
    (hlen : f.lenOk = true) : exec i s = .next (go s) := by
  rw [hexec, takeFrame_free hfree, hcrc, hlen]
  rfl

end

/-! ### What the notes of an uncorrectable byte leave alone (11 R293; 19 R484) -/

/-- `t` differs from `s` in the records and the memory nodes alone. -/
def OnlyNotes (s t : State) : Prop := ∃ m ns, t = { s with mgt := m, nodes := ns }

theorem OnlyNotes.refl (s : State) : OnlyNotes s s := ⟨_, _, rfl⟩

theorem OnlyNotes.trans {s t u : State} : OnlyNotes s t → OnlyNotes t u → OnlyNotes s u := by
  rintro ⟨_, _, rfl⟩ ⟨m, ns, rfl⟩
  exact ⟨m, ns, rfl⟩

theorem OnlyNotes.foldl {α : Type} {f : State → α → State} (h : ∀ s x, OnlyNotes s (f s x)) (l : List α) (s : State) :
    OnlyNotes s (l.foldl f s) :=
  List.foldlRecOn (motive := OnlyNotes s) l f (.refl s) fun u hu x _ => hu.trans (h u x)

theorem OnlyNotes.hbm {s t : State} : OnlyNotes s t → t.hbm = s.hbm := by
  rintro ⟨_, _, rfl⟩
  rfl

theorem OnlyNotes.cores {s t : State} : OnlyNotes s t → t.cores = s.cores := by
  rintro ⟨_, _, rfl⟩
  rfl

theorem onlyNotes_modNode (k : Nat) (f : HbmNode → HbmNode) (s : State) : OnlyNotes s (modNode k f s) := ⟨_, _, rfl⟩

theorem onlyNotes_postRecord (cls : Nat) (k : SrcKind) (code site unit addr detail : Nat) (s : State) :
    OnlyNotes s (postRecord cls k code site unit addr detail s) := by
  obtain ⟨m, h⟩ := postRecord_frame cls k code site unit addr detail s
  exact ⟨m, _, h⟩

theorem onlyNotes_startMigration (k p : Nat) (s : State) : OnlyNotes s (startMigration k p s) := by
  unfold startMigration
  dsimp only
  split
  · split
    · exact onlyNotes_modNode ..
    · exact .refl _
  · exact onlyNotes_postRecord ..

theorem onlyNotes_retirePage (k p row : Nat) (s : State) : OnlyNotes s (retirePage k p row s) := by
  unfold retirePage
  dsimp only
  split
  · exact onlyNotes_postRecord ..
  · split
    · exact ((onlyNotes_modNode ..).trans (onlyNotes_postRecord ..)).trans (onlyNotes_startMigration ..)
    · exact (onlyNotes_modNode ..).trans (onlyNotes_postRecord ..)

theorem onlyNotes_hbmUeCount (u : Nat) (s : State) : OnlyNotes s (hbmUeCount u s) := by
  unfold hbmUeCount
  split
  · exact .refl _
  · dsimp only
    split
    · exact (onlyNotes_modNode ..).trans (onlyNotes_postRecord ..)
    · exact ((onlyNotes_modNode ..).trans (onlyNotes_postRecord ..)).trans (onlyNotes_retirePage ..)

theorem onlyNotes_countKnownBad (a n : Nat) (s : State) : OnlyNotes s (countKnownBad a n s) := by
  refine .foldl (fun u x => ?_) _ s
  split
  · exact onlyNotes_hbmUeCount x u
  · exact .refl _

theorem onlyNotes_noteLm (site off n : Nat) (s : State) : OnlyNotes s (noteLm site off n s) := by
  unfold noteLm
  split
  · exact .refl _
  · exact .foldl (fun u x => onlyNotes_postRecord ..) _ s

theorem onlyNotes_devReadNotes (a n : Nat) (s : State) : OnlyNotes s (devReadNotes a n s) := by
  unfold devReadNotes
  split
  · exact onlyNotes_countKnownBad ..
  · split
    · exact onlyNotes_noteLm ..
    · exact .refl _
  · exact .refl _

theorem onlyNotes_islandNotes (a : Nat) (w : Option Word) (s : State) : OnlyNotes s (islandNotes a w s) := by
  unfold islandNotes
  split
  · exact onlyNotes_devReadNotes ..
  · exact .refl _

/-! ### A write that loses no byte reads back -/

theorem leNat_leBytes (n v : Nat) : leNat (leBytes n v) = v % 256 ^ n := by
  induction n generalizing v with
  | zero => simp [leBytes, leNat, Nat.mod_one]
  | succ n ih => rw [leBytes, leNat, ih, BitVec.toNat_ofNat, Nat.pow_succ' (m := 256) (n := n), Nat.mod_mul (a := 256) (b := 256 ^ n)]

theorem ofNat_leBytes_word (v : Word) : BitVec.ofNat 64 (leNat (leBytes 8 v.toNat)) = v := by
  rw [leNat_leBytes, show 256 ^ 8 = 2 ^ 64 by decide, Nat.mod_eq_of_lt v.isLt, BitVec.ofNat_toNat, BitVec.setWidth_eq]

theorem readN_writeN (m : List Host.Cell) (a : Nat) (bs : List Byte) : Memory.readN (Memory.writeN m a bs) a bs.length = bs := by
  refine List.ext_getElem (readN_length ..) fun i h hi => ?_
  rw [List.getElem_eq_getD 0, List.getElem_eq_getD (h := hi) 0, readN_getD _ _ _ _ hi, read_writeN, if_pos (by omega), Nat.add_sub_cancel_left]

theorem writeSkip_of_none_skipped {skip : Nat → Bool} (bs : List Byte) (m : List Host.Cell) (a : Nat)
    (hskip : ∀ i < bs.length, skip (a + i) = false) : writeSkip skip m a bs = Memory.writeN m a bs := by
  induction bs generalizing m a with
  | nil => rfl
  | cons b r ih =>
    have hfirst : skip a = false := hskip 0 (by simp)
    rw [writeSkip, Memory.writeN, hfirst, if_neg Bool.false_ne_true]
    exact ih _ _ fun i hi => by simpa [Nat.add_assoc, Nat.add_comm 1] using hskip (i + 1) (by simpa using hi)

theorem lostByte_of_firstLost_none {w a n : Nat} {bad : Nat → Bool} (hlost : firstLost w bad a n = none) :
    ∀ i < n, lostByte w bad a n (a + i) = false := by
  simpa [firstLost] using hlost

theorem hbmWriteN_hbm (a : Nat) (bs : List Byte) (s : State) :
    (hbmWriteN a bs s).hbm = writeSkip (lostByte 32 (hbmBadAt s) a bs.length) s.hbm a bs := by
  refine (OnlyNotes.foldl (fun u x => onlyNotes_hbmUeCount x u) _ _).hbm.trans ?_
  split <;> rfl

theorem hbmReadN_hbmWriteN {a : Nat} {bs : List Byte} {s : State} (hlost : hbmFirstLost s a bs.length = none) :
    hbmReadN (hbmWriteN a bs s) a bs.length = bs := by
  rw [hbmReadN, hbmWriteN_hbm, writeSkip_of_none_skipped _ _ _ (lostByte_of_firstLost_none hlost), readN_writeN]

theorem coreLmWrite_lm {off : Nat} {bs : List Byte} {c : Core} (hlost : firstLost 8 (lmBadAt c) off bs.length = none) :
    (coreLmWrite off bs c).lm = Memory.writeN c.lm off bs := by
  unfold coreLmWrite
  split
  · rfl
  · exact writeSkip_of_none_skipped _ _ _ (lostByte_of_firstLost_none hlost)

/-- A watch that matches ends, and its report is a packet; local memory stays. -/
theorem fireComparators_lm (site off n : Nat) (s : State) (j : Nat) : (getCore (fireComparators site off n s) j).lm = (getCore s j).lm := by
  refine List.foldlRecOn (motive := fun u => (getCore u j).lm = (getCore s j).lm) _ _ rfl fun u hu k _ => ?_
  dsimp only
  split
  · split
    · rw [getCore_sendSync, getCore_modCore]
      split
      case isTrue h => exact h ▸ hu
      case isFalse => exact hu
    · exact hu
  · exact hu

theorem lmWriteN_lm (site off : Nat) (bs : List Byte) (s : State) :
    (getCore (lmWriteN site off bs s) site).lm = (coreLmWrite off bs (getCore s site)).lm := by
  have hrecords : OnlyNotes (fireComparators site off bs.length (modCore site (coreLmWrite off bs) s)) (lmWriteN site off bs s) :=
    .foldl (fun u x => onlyNotes_postRecord ..) _ _
  rw [getCore, hrecords.cores, ← getCore, fireComparators_lm, getCore_modCore, if_pos rfl]

theorem lmReadN_lmWriteN {site off : Nat} {bs : List Byte} {s : State} (hlost : lmFirstLost s site off bs.length = none) :
    lmReadN (lmWriteN site off bs s) site off bs.length = bs := by
  rw [lmReadN, lmWriteN_lm, coreLmWrite_lm hlost, readN_writeN]

/-! ### Accesses of the management island (05 R137; 10 R271 to R276; 23 R564) -/

/-- A register access is refused for its level first. -/
theorem regAccess_refused {s : State} {a : Nat} {w : Option Word} {lvl : Level} (who : Option Nat)
    (hcode : (if atLeast lvl (regLevel a w.isSome) then regFault s a 8 w.isSome else 2) ≠ 0) :
    regAccess who lvl a 8 w s = .fault (if atLeast lvl (regLevel a w.isSome) then regFault s a 8 w.isSome else 2) := by
  unfold regAccess
  cases hlvl : atLeast lvl (regLevel a w.isSome)
  · rfl
  · rw [hlvl, if_pos rfl] at hcode
    exact if_pos hcode

/-- An access that something stands in the way of faults with its code. -/
theorem islandAccess_refused {s : State} {a : Nat} {w : Option Word} (hcode : islandCode s a w ≠ 0) :
    islandAccess a w s = .fault (islandCode s a w) := by
  unfold islandCode at hcode ⊢
  unfold islandAccess
  cases hreg : isRegAddr a
  case true =>
    rw [hreg] at hcode
    exact regAccess_refused none hcode
  case false =>
    rw [hreg, if_neg Bool.false_ne_true] at hcode
    rw [if_neg Bool.false_ne_true, if_neg Bool.false_ne_true]
    by_cases halign : a % 8 ≠ 0
    · rw [if_pos halign, if_pos halign]
    · rw [if_neg halign] at hcode
      rw [if_neg halign, if_neg halign]
      unfold islandMemory
      cases hregion : regionOf a with
      | hbm =>
        cases hnode : hbmNodeFor s a with
        | none => simp
        | some k =>
          cases w with
          | some v => simp [hregion, hnode] at hcode
          | none =>
            have hbad : (hbmFirstBad s a 8).isSome = true := by simpa [hregion, hnode, Option.isSome_iff_ne_none] using hcode
            simp [hbad]
      | window site off =>
        by_cases hwin : windowRefusal s site off 8 ≠ 0
        · simp [hwin]
        · cases w with
          | some v => simp [hregion, hwin] at hcode
          | none =>
            have hbad : (lmFirstBad s site off 8).isSome = true := by simpa [hregion, hwin, Option.isSome_iff_ne_none] using hcode
            simp [hwin, hbad]
      | siteReg => rfl
      | deviceReg => rfl
      | hole => rfl

/-- An access of memory that nothing stands in the way of is to a node that serves or to a window that it may reach. -/
theorem memory_of_islandCode {s : State} {a : Nat} {w : Option Word} (hmem : isRegAddr a = false) (hcode : islandCode s a w = 0) :
    a % 8 = 0 ∧ ((regionOf a = .hbm ∧ (hbmNodeFor s a).isSome = true ∧ (w = none → hbmFirstBad s a 8 = none)) ∨
      ∃ site off, regionOf a = .window site off ∧ windowRefusal s site off 8 = 0 ∧ (w = none → lmFirstBad s site off 8 = none)) := by
  rw [islandCode, hmem, if_neg Bool.false_ne_true] at hcode
  by_cases halign : a % 8 ≠ 0
  · simp [halign] at hcode
  · rw [if_neg halign] at hcode
    refine ⟨Decidable.not_not.mp halign, ?_⟩
    cases hregion : regionOf a with
    | hbm =>
      refine .inl ⟨rfl, ?_⟩
      cases hnode : hbmNodeFor s a with
      | none => simp [hregion, hnode] at hcode
      | some k => exact ⟨rfl, fun hread => by simpa [hregion, hnode, hread] using hcode⟩
    | window site off =>
      refine .inr ⟨site, off, rfl, ?_⟩
      by_cases hwin : windowRefusal s site off 8 = 0
      · exact ⟨hwin, fun hread => by simpa [hregion, hwin, hread] using hcode⟩
      · simp [hregion, hwin] at hcode
    | siteReg | deviceReg | hole => simp [hregion] at hcode

theorem islandAccess_memory {s : State} {a : Nat} (hmem : isRegAddr a = false) (halign : a % 8 = 0) (w : Option Word) :
    islandAccess a w s = islandMemory a w s := by
  rw [islandAccess, hmem, if_neg Bool.false_ne_true, if_neg (not_not_intro halign)]

/-- A read that nothing stands in the way of gives the word that memory holds and leaves no trace. -/
theorem islandAccess_read {s : State} {a : Nat} (hmem : isRegAddr a = false) (hcode : islandCode s a none = 0) :
    islandAccess a none s = .ok (islandWord s a) s := by
  obtain ⟨halign, ⟨hregion, hnode, hgood⟩ | ⟨site, off, hregion, hwin, hgood⟩⟩ := memory_of_islandCode hmem hcode
  all_goals rw [islandAccess_memory hmem halign]
  · simp [islandMemory, islandWord, hregion, hnode, hgood rfl]
  · simp [islandMemory, islandWord, hregion, hwin, hgood rfl]

/-- A write that nothing stands in the way of is made, and reads back unless it is lost. -/
theorem islandAccess_write {s : State} {a : Nat} (v : Word) (hmem : isRegAddr a = false) (hcode : islandCode s a (some v) = 0) :
    ∃ u, islandAccess a (some v) s = .ok 0 u ∧ (islandLost a (some v) s = false → islandWord u a = v) := by
  obtain ⟨halign, ⟨hregion, hnode, -⟩ | ⟨site, off, hregion, hwin, -⟩⟩ := memory_of_islandCode hmem hcode
  all_goals rw [islandAccess_memory hmem halign]
  · refine ⟨hbmWriteN a (leBytes 8 v.toNat) s, by simp [islandMemory, hregion, hnode], fun hlost => ?_⟩
    have hnone : hbmFirstLost s a (leBytes 8 v.toNat).length = none := by simpa [islandLost, hregion] using hlost
    have hread := hbmReadN_hbmWriteN hnone
    rw [leBytes_length] at hread
    simp only [islandWord, hregion, hread, ofNat_leBytes_word]
  · refine ⟨lmWriteN site off (leBytes 8 v.toNat) s, by simp [islandMemory, hregion, hwin], fun hlost => ?_⟩
    have hnone : lmFirstLost s site off (leBytes 8 v.toNat).length = none := by simpa [islandLost, hregion] using hlost
    have hread := lmReadN_lmWriteN hnone
    rw [leBytes_length] at hread
    simp only [islandWord, hregion, hread, ofNat_leBytes_word]

/-- An access of 8 B that is no fault is aligned to 8 B. -/
theorem offset_aligned_of_regFault {s : State} {a off : Nat} {b : Block} {store : Bool} (hblock : blockOf a = some (b, off))
    (hfault : regFault s a 8 store = 0) : off % 8 = 0 := by
  simp only [regFault, hblock] at hfault
  split at hfault
  · contradiction
  · split at hfault
    · contradiction
    · split at hfault
      · contradiction
      · split at hfault
        · contradiction
        · next halign => exact Decidable.not_not.mp halign

/-- A core's register with an access of its own is CORE_DBGDATA or a counter. -/
theorem plain_of_ownAccess {s : State} {a off site : Nat} (hown : ownAccess s a = false) (hblock : blockOf a = some (.core site, off)) :
    off ≠ 0x818 ∧ inArray off 0x908 8 4 = none := by
  simpa [ownAccess, hblock] using hown

section
variable {s : State} {a off : Nat} {b : Block} {lvl : Level} (hblock : blockOf a = some (b, off)) (hown : ownAccess s a = false)
include hblock hown

/-- A load of a plain register gives what its block reads. -/
theorem regAccess_load {r : Word} (who : Option Nat) (hlvl : atLeast lvl (regLevel a false) = true) (hfault : regFault s a 8 false = 0)
    (hread : blockRead s b off = some r) : regAccess who lvl a 8 none s = .ok r s := by
  have halign := offset_aligned_of_regFault hblock hfault
  have hoff : off / 8 * 8 = off := by omega
  have hword : r.toNat % 18446744073709551616 = r.toNat := Nat.mod_eq_of_lt r.isLt
  cases b
  case core site =>
    obtain ⟨hdata, hcount⟩ := plain_of_ownAccess hown hblock
    simp [regAccess, hlvl, hfault, hblock, hdata, hcount, hread, halign, hoff, hword]
  all_goals simp [regAccess, hlvl, hfault, hblock, hread, halign, hoff, hword]

/-- A store to a plain register is what its block does with it. -/
theorem regAccess_store {v : Word} (who : Option Nat) (hlvl : atLeast lvl (regLevel a true) = true) (hfault : regFault s a 8 true = 0) :
    regAccess who lvl a 8 (some v) s = .ok 0 (blockWrite who lvl v s b off) := by
  cases b
  case core site =>
    obtain ⟨hdata, -⟩ := plain_of_ownAccess hown hblock
    simp [regAccess, hlvl, hfault, hblock, hdata]
  all_goals simp [regAccess, hlvl, hfault, hblock]

end

/-- What a register access that nothing stands in the way of passes. -/
theorem islandAccess_register {s : State} {a : Nat} {w : Option Word} (hreg : isRegAddr a = true) (hcode : islandCode s a w = 0) :
    islandAccess a w s = regAccess none (islandLevel s) a 8 w s ∧ atLeast (islandLevel s) (regLevel a w.isSome) = true ∧
      regFault s a 8 w.isSome = 0 := by
  rw [islandCode, if_pos hreg] at hcode
  rw [islandAccess, if_pos hreg]
  cases hlvl : atLeast (islandLevel s) (regLevel a w.isSome)
  · simp [hlvl] at hcode
  · rw [hlvl, if_pos rfl] at hcode
    exact ⟨rfl, rfl, hcode⟩

/-- Registers are no memory, so no write to one is lost. -/
theorem islandLost_register {s : State} {a : Nat} (hreg : isRegAddr a = true) (w : Option Word) : islandLost a w s = false := by
  cases hregion : regionOf a <;> simp_all [islandLost, isRegAddr]

theorem islandLost_read (a : Nat) (s : State) : islandLost a none s = false := rfl

/-! ### IDENT, SENSOR, REGRD and REGWR (23 Table 23.1, R564, R566) -/

section
variable {f : Frame} {s : State} (hfree : TargetFree s) (hcrc : f.crcOk = true) (hlen : f.lenOk = true)
include hfree hcrc hlen

/-- A good frame whose command ends in a response. -/
theorem answers_of_taken {i : Instr} {go : State → State} {st : BitVec 8} {p : List Byte} {u : State} {pay : List Byte → Prop}
    {g : State → Prop} (hexec : exec i s = .next (takeFrame f go s)) (hgo : go s = respond st f.tag p u) (hpay : pay p)
    (hg : g (respond st f.tag p u)) : Answers f.tag s i st pay g :=
  answers_of_respond ((exec_of_taken hfree hexec hcrc hlen).trans (congrArg _ hgo)) hpay hg

theorem answers_ident : Answers f.tag s (.i3cIdent f) 0 (· = featureBytes s) fun _ => True :=
  answers_of_taken hfree hcrc hlen rfl rfl rfl trivial

/-! #### Sensors (23 R566) -/

theorem answers_sensor {first count : BitVec 8} (hmin : 1 ≤ count.toNat) (hmax : count.toNat ≤ 32) : Answers f.tag s (.i3cSensor f first count) 0
    (· = (List.range count.toNat).flatMap fun i => sensorBytes s (first.toNat + i)) fun _ => True := by
  have hcount : ¬(count = 0 || decide (32 < count.toNat)) = true := by
    have hzero : ¬count = 0#8 := by rintro rfl; simp at hmin
    simp [hzero, hmax]
  exact answers_of_taken hfree hcrc hlen rfl (if_neg hcount) rfl trivial

theorem answers_sensor_open {first count : BitVec 8} (hcount : count = 0 ∨ 32 < count.toNat) :
    ∃ st, Answers f.tag s (.i3cSensor f first count) st (· = []) fun _ => True :=
  ⟨_, answers_of_taken hfree hcrc hlen rfl (if_pos (by simpa using hcount)) rfl trivial⟩

/-! #### Registers and memory -/

theorem answers_access_recovery (hrec : s.rst.recovery = true) (addr : BitVec 64) (v : Word) :
    Answers f.tag s (.i3cRegrd f addr) 4 (· = []) (fun _ => True) ∧ Answers f.tag s (.i3cRegwr f addr v) 4 (· = []) (fun _ => True) :=
  ⟨answers_of_taken hfree hcrc hlen rfl (if_pos hrec) rfl trivial, answers_of_taken hfree hcrc hlen rfl (if_pos hrec) rfl trivial⟩

end

section
variable {tag : BitVec 8} {s : State} {a : Nat} {w : Option Word}

theorem respondAccess_refused (hcode : islandCode s a w ≠ 0) :
    respondAccess tag a w s = respond (if islandCode s a w = 2 then 6 else 5) tag [] (islandNotes a w s) := by
  rw [respondAccess, islandAccess_refused hcode]

theorem respondAccess_done {v : Word} {u : State} (haccess : islandAccess a w s = .ok v u) (hlost : islandLost a w s = false) :
    respondAccess tag a w s = respond 0 tag (if w.isSome then [] else bytesOf v 8) u := by
  rw [respondAccess, haccess, hlost]
  rfl

theorem respondAccess_lost {v : Word} {u : State} (haccess : islandAccess a w s = .ok v u) (hlost : islandLost a w s = true) :
    respondAccess tag a w s = respond 5 tag [] u := by
  rw [respondAccess, haccess, hlost]
  rfl

end

section
variable {f : Frame} {s : State} {addr : BitVec 64} {v : Word} (hfree : TargetFree s) (hcrc : f.crcOk = true) (hlen : f.lenOk = true)
  (hrec : s.rst.recovery = false)
include hfree hcrc hlen hrec

theorem answers_regrd {st : BitVec 8} {p : List Byte} {u : State} {pay : List Byte → Prop} {g : State → Prop}
    (hends : respondAccess f.tag addr.toNat none s = respond st f.tag p u) (hpay : pay p) (hg : g (respond st f.tag p u)) :
    Answers f.tag s (.i3cRegrd f addr) st pay g :=
  answers_of_taken hfree hcrc hlen rfl ((if_neg (by simp [hrec])).trans hends) hpay hg

theorem answers_regwr {st : BitVec 8} {p : List Byte} {u : State} {pay : List Byte → Prop} {g : State → Prop}
    (hends : respondAccess f.tag addr.toNat (some v) s = respond st f.tag p u) (hpay : pay p) (hg : g (respond st f.tag p u)) :
    Answers f.tag s (.i3cRegwr f addr v) st pay g :=
  answers_of_taken hfree hcrc hlen rfl ((if_neg (by simp [hrec])).trans hends) hpay hg

theorem answers_regrd_refused (hcode : islandCode s addr.toNat none ≠ 0) :
    Answers f.tag s (.i3cRegrd f addr) (if islandCode s addr.toNat none = 2 then 6 else 5) (· = []) fun t => t.hbm = s.hbm :=
  answers_regrd hfree hcrc hlen hrec (respondAccess_refused hcode) rfl (onlyNotes_islandNotes ..).hbm

theorem answers_regwr_refused (hcode : islandCode s addr.toNat (some v) ≠ 0) :
    Answers f.tag s (.i3cRegwr f addr v) (if islandCode s addr.toNat (some v) = 2 then 6 else 5) (· = []) fun t => t.hbm = s.hbm :=
  answers_regwr hfree hcrc hlen hrec (respondAccess_refused hcode) rfl (onlyNotes_islandNotes ..).hbm

theorem answers_regrd_memory (hmem : isRegAddr addr.toNat = false) (hcode : islandCode s addr.toNat none = 0) :
    Answers f.tag s (.i3cRegrd f addr) 0 (· = bytesOf (islandWord s addr.toNat) 8) fun t => t.hbm = s.hbm :=
  answers_regrd hfree hcrc hlen hrec (respondAccess_done (islandAccess_read hmem hcode) (islandLost_read ..)) rfl rfl

theorem answers_regwr_memory (hmem : isRegAddr addr.toNat = false) (hcode : islandCode s addr.toNat (some v) = 0)
    (hlost : islandLost addr.toNat (some v) s = false) : Answers f.tag s (.i3cRegwr f addr v) 0 (· = []) fun t => islandWord t addr.toNat = v := by
  obtain ⟨u, haccess, hback⟩ := islandAccess_write v hmem hcode
  exact answers_regwr hfree hcrc hlen hrec (respondAccess_done haccess hlost) rfl (hback hlost)

theorem answers_regwr_lost (hmem : isRegAddr addr.toNat = false) (hcode : islandCode s addr.toNat (some v) = 0)
    (hlost : islandLost addr.toNat (some v) s = true) : Answers f.tag s (.i3cRegwr f addr v) 5 (· = []) fun _ => True := by
  obtain ⟨u, haccess, -⟩ := islandAccess_write v hmem hcode
  exact answers_regwr hfree hcrc hlen hrec (respondAccess_lost haccess hlost) rfl trivial

section
variable {b : Block} {off : Nat} (hblock : blockOf addr.toNat = some (b, off)) (hreg : isRegAddr addr.toNat = true)
  (hown : ownAccess s addr.toNat = false)
include hblock hreg hown

theorem answers_regrd_register {r : Word} (hcode : islandCode s addr.toNat none = 0) (hread : blockRead s b off = some r) :
    Answers f.tag s (.i3cRegrd f addr) 0 (· = bytesOf r 8) fun t => t.cores = s.cores := by
  obtain ⟨haccess, hlvl, hfault⟩ := islandAccess_register hreg hcode
  have hload := haccess.trans (regAccess_load hblock hown none hlvl hfault hread)
  exact answers_regrd hfree hcrc hlen hrec (respondAccess_done hload (islandLost_read ..)) rfl rfl

theorem answers_regwr_register {g : State → Prop} (hcode : islandCode s addr.toNat (some v) = 0)
    (hg : g (respond 0 f.tag [] (blockWrite none (islandLevel s) v s b off))) : Answers f.tag s (.i3cRegwr f addr v) 0 (· = []) g := by
  obtain ⟨haccess, hlvl, hfault⟩ := islandAccess_register hreg hcode
  have hstore := haccess.trans (regAccess_store hblock hown none hlvl hfault)
  exact answers_regwr hfree hcrc hlen hrec (respondAccess_done hstore (islandLost_register hreg _)) rfl hg

end

end

/-! ### Fields of a word -/

theorem testBit_fld (w : Word) (hi lo j : Nat) : (fld w hi lo).testBit j = (decide (j < hi - lo + 1) && w.getLsbD (lo + j)) := by
  rw [fld, Nat.testBit_mod_two_pow, Nat.testBit_div_two_pow, BitVec.getLsbD, Nat.add_comm j lo]

theorem getLsbD_mk (hi lo v j : Nat) :
    (mk hi lo v).getLsbD j = (decide (j < 64) && (decide (lo ≤ j) && (decide (j - lo < hi - lo + 1) && v.testBit (j - lo)))) := by
  rw [mk, BitVec.getLsbD_ofNat, Nat.testBit_mul_two_pow, Nat.testBit_mod_two_pow]

theorem fld_or (a b : Word) (hi lo : Nat) : fld (a ||| b) hi lo = fld a hi lo ||| fld b hi lo := by
  refine Nat.eq_of_testBit_eq fun j => ?_
  simp only [Nat.testBit_or, testBit_fld, BitVec.getLsbD_or, Bool.and_or_distrib_left]

theorem fld_mk_same {hi lo : Nat} (hhi : hi < 64) (hlo : lo ≤ hi) (v : Nat) : fld (mk hi lo v) hi lo = v % 2 ^ (hi - lo + 1) := by
  refine Nat.eq_of_testBit_eq fun j => ?_
  rw [testBit_fld, getLsbD_mk, Nat.testBit_mod_two_pow, Nat.add_sub_cancel_left]
  by_cases hj : j < hi - lo + 1
  · have hbit : lo + j < 64 := by omega
    simp [hj, hbit]
  · simp [hj]

/-- A field below another one leaves it 0. -/
theorem fld_mk_below {hi lo h l : Nat} (hlo : lo ≤ hi) (hbelow : hi < l) (v : Nat) : fld (mk hi lo v) h l = 0 := by
  refine Nat.eq_of_testBit_eq fun j => ?_
  have hout : ¬ l + j - lo < hi - lo + 1 := by omega
  simp [testBit_fld, getLsbD_mk, hout]

theorem fld_bitAt_below {n h l : Nat} (hbelow : n < l) (b : Bool) : fld (bitAt n b) h l = 0 := by
  cases b
  · simp [bitAt, fld]
  · refine Nat.eq_of_testBit_eq fun j => ?_
    have hout : n ≠ l + j := by omega
    rw [testBit_fld, bitAt, if_pos rfl, BitVec.getLsbD_ofNat, Nat.testBit_two_pow, decide_eq_false hout, Bool.and_false, Bool.and_false,
      Nat.zero_testBit]

/-- A field that is replaced holds the new value. -/
theorem fld_setFld {hi lo : Nat} (hhi : hi < 64) (hlo : lo ≤ hi) (w : Word) (v : Nat) : fld (setFld w hi lo v) hi lo = v % 2 ^ (hi - lo + 1) := by
  have hcleared : fld (w &&& ~~~maskOf hi lo) hi lo = 0 := by
    refine Nat.eq_of_testBit_eq fun j => ?_
    rw [testBit_fld, BitVec.getLsbD_and, BitVec.getLsbD_not, maskOf, getLsbD_mk, Nat.add_sub_cancel_left, Nat.testBit_two_pow_sub_one]
    by_cases hj : j < hi - lo + 1
    · have hbit : lo + j < 64 := by omega
      simp [hj, hbit]
    · simp [hj]
  rw [setFld, fld_or, hcleared, fld_mk_same hhi hlo, Nat.zero_or]

/-- IMG_STAT shows the code of the last command in its own field (18 Table 18.6). -/
theorem last_of_imgRead (s : State) : fld ((imgRead s 8).getD 0) 39 32 = s.img.last.toNat := by
  have hstat : (imgRead s 8).getD 0 = mk 39 32 s.img.last.toNat ||| mk 23 16 s.img.sect.toNat ||| bitAt 9 s.img.enign ||| bitAt 8 s.img.owner |||
      mk 3 0 (imgCode s.img.state) := rfl
  rw [hstat, fld_or, fld_or, fld_or, fld_or, fld_mk_same (by decide) (by decide), fld_mk_below (by decide) (by decide),
    fld_bitAt_below (by decide), fld_bitAt_below (by decide), fld_mk_below (by decide) (by decide)]
  simp only [Nat.or_zero]
  exact Nat.mod_eq_of_lt s.img.last.isLt

theorem leAt_bytesOf_four (w : Word) : leAt (bytesOf w 8) 4 1 = fld w 39 32 := by
  simp [leAt, bytesOf, leBytes, leNat, fld, Nat.div_div_eq_div_mul]

/-! ### Attestation, images and flash (23 Table 23.1, R564, R565) -/

section
variable {f : Frame} {s : State} (hfree : TargetFree s) (hcrc : f.crcOk = true) (hlen : f.lenOk = true)
include hfree hcrc hlen

theorem answers_attest_busy (hbusy : s.sec.busy = true) (nonce : BitVec 256) :
    Answers f.tag s (.i3cAttest f nonce) 8 (· = []) fun t => t.freeCtr = s.freeCtr :=
  answers_of_taken hfree hcrc hlen rfl (if_pos hbusy) rfl rfl

theorem answers_attest_refused (hbusy : s.sec.busy = false) (hcheck : attestCheck s ≠ 0) (nonce : BitVec 256) :
    Answers f.tag s (.i3cAttest f nonce) 7 (· = [BitVec.ofNat 8 (attestCheck s)]) fun _ => True :=
  answers_of_taken hfree hcrc hlen rfl (by rw [attestCommand, hbusy, if_neg Bool.false_ne_true, if_pos hcheck]) rfl trivial

theorem answers_attest_signs (hbusy : s.sec.busy = false) (hcheck : attestCheck s = 0) (nonce : BitVec 256) :
    Answers f.tag s (.i3cAttest f nonce) 0 (fun p => p.length = 320 ∧ p.take 256 = reportBody s (bytesOf nonce 32)) fun _ => True := by
  have hnonce : (bytesOf nonce 32).length = 32 := bytesOf_length ..
  refine answers_of_taken hfree hcrc hlen rfl (u := (signReport (bytesOf nonce 32) s).2) (p := (signReport (bytesOf nonce 32) s).1) ?_
    ⟨signReport_length s hnonce, signReport_body s hnonce⟩ trivial
  rw [attestCommand, hbusy, if_neg Bool.false_ne_true, if_neg (not_not_intro hcheck)]

theorem answers_stage {off : BitVec 64} {data : List Byte} (hruns : loaderRuns s = true) (hidle : loaderFree s = true)
    (halign : off.toNat % 256 = 0) (hfits : off.toNat + data.length ≤ 2 ^ 24) (hmin : 1 ≤ data.length) (hmax : data.length ≤ 256) :
    Answers f.tag s (.i3cStage f off data) 0 (· = []) fun t => t.img.staging = Memory.writeN s.img.staging off.toNat data := by
  refine answers_of_taken (f := { f with lenOk := f.lenOk && decide (1 ≤ data.length) && decide (data.length ≤ 256) }) hfree hcrc
    (by simp [hlen, hmin, hmax]) rfl (if_pos ?_) rfl rfl
  rw [hruns, hidle, decide_eq_true halign, decide_eq_true hfits]
  rfl

end

theorem answers_stage_badLen {f : Frame} {s : State} (hfree : TargetFree s) (hcrc : f.crcOk = true) {data : List Byte}
    (hdata : data.length = 0 ∨ 256 < data.length) (off : BitVec 64) : Answers f.tag s (.i3cStage f off data) 2 (· = []) fun _ => True :=
  TakesFrame.badLen hfree (f := { f with lenOk := f.lenOk && decide (1 ≤ data.length) && decide (data.length ≤ 256) })
    (takesFrame_whole rfl) hcrc (by simp; omega)

/-! #### Image commands (18 R468, R469, R472) -/

section
variable {f : Frame} {s : State} {cmd : BitVec 8} {serial : Word} (hfree : TargetFree s) (hcrc : f.crcOk = true) (hlen : f.lenOk = true)
include hfree hcrc hlen

theorem answers_imgcmd_noLoader (hruns : loaderRuns s = false) :
    Answers f.tag s (.i3cImgcmd f cmd serial) 4 (· = []) fun t => t.img = s.img :=
  answers_of_taken hfree hcrc hlen rfl (by rw [imgCommand, hruns]; rfl) rfl rfl

theorem answers_imgcmd_otherImage (hruns : loaderRuns s = true) (hother : serial.toNat ≠ leNat (Memory.readN s.img.staging 24 8)) :
    Answers f.tag s (.i3cImgcmd f cmd serial) 0 (fun p => p.length = 8 ∧ leAt p 4 1 = 0x20) fun t => t.img = s.img := by
  refine answers_of_taken hfree hcrc hlen rfl (by rw [imgCommand, hruns, if_neg (by decide), if_pos hother])
    ⟨bytesOf_length .., ?_⟩ rfl
  exact (leAt_bytesOf_four _).trans (fld_setFld (by decide) (by decide) ..)

/-- A command of the staged image that ends with LAST `n`. -/
theorem answers_imgcmd_last {n : Nat} {g : State → Prop} (hruns : loaderRuns s = true)
    (hserial : serial.toNat = leNat (Memory.readN s.img.staging 24 8)) (hends : loaderCommandBy cmd.toNat false true s = setLast n s)
    (hn : n < 256) (hg : g (respond 0 f.tag (bytesOf ((imgRead (setLast n s) 8).getD 0) 8) (setLast n s))) :
    Answers f.tag s (.i3cImgcmd f cmd serial) 0 (fun p => p.length = 8 ∧ leAt p 4 1 = n) g := by
  refine answers_of_taken hfree hcrc hlen rfl (u := setLast n s) (p := bytesOf ((imgRead (setLast n s) 8).getD 0) 8) ?_
    ⟨bytesOf_length .., ?_⟩ hg
  · rw [imgCommand, hruns, if_neg (by decide), if_neg (not_not_intro hserial), hends]
  · rw [leAt_bytesOf_four, last_of_imgRead]
    exact Nat.mod_eq_of_lt hn

end

theorem applyImage_early {s : State} (hstate : s.img.state ≠ .drained) : applyImage s = setLast 0x20 s := if_pos hstate

theorem undrainImage_early {s : State} (hstate : s.img.state ≠ .applied) : undrainImage s = setLast 0x20 s := if_pos hstate

section
variable {s : State} (hruns : loaderRuns s = true)
include hruns

/-- A command that finds the loader working for the manager changes nothing but LAST. -/
theorem loaderCommandBy_owned {cmd : Nat} (hbusy : loaderFree s = false) (howner : s.img.owner = true) (hmin : 1 ≤ cmd) (hmax : cmd ≤ 6)
    (staged : Bool) : loaderCommandBy cmd false staged s = setLast 0x23 s := by
  have hknown : ¬(cmd = 0 || decide (6 < cmd) || !loaderRuns s) = true := by
    simp [hruns, hmax]
    omega
  unfold loaderCommandBy
  rw [if_neg hknown, if_pos (by simp [hbusy, howner])]

variable (hours : loaderFree s = true ∨ s.img.owner = false)
include hours

/-- DRAIN and RUN want a staged image. -/
theorem loaderCommandBy_notStaged {cmd : Nat} (hstate : s.img.state ≠ .staged) (hcmd : cmd = 2 ∨ cmd = 5) (staged : Bool) :
    loaderCommandBy cmd false staged s = setLast 0x20 s := by
  have hmine : ¬(!loaderFree s && decide (s.img.owner ≠ false)) = true := by rcases hours with h | h <;> simp [h]
  rcases hcmd with rfl | rfl
  all_goals
    rw [loaderCommandBy, if_neg (by simp [hruns]), if_neg hmine]
    exact if_neg hstate

/-- APPLY and UNDRAIN want a drained and an applied image. -/
theorem loaderCommandBy_idle {cmd : Nat} (hstate : s.img.state = .idle) (hcmd : cmd = 3 ∨ cmd = 4) (staged : Bool) :
    loaderCommandBy cmd false staged s = setLast 0x20 s := by
  have hmine : ¬(!loaderFree s && decide (s.img.owner ≠ false)) = true := by rcases hours with h | h <;> simp [h]
  rcases hcmd with rfl | rfl <;> rw [loaderCommandBy, if_neg (by simp [hruns]), if_neg hmine]
  · exact applyImage_early (by simp [hstate])
  · exact undrainImage_early (by simp [hstate])

end

/-! #### Flash (20 R512; 23 Table 23.1) -/

theorem not_comp_not : ((fun b : Byte => ~~~b) ∘ fun b : Byte => ~~~b) = id := funext fun _ => BitVec.not_not

theorem flashRead_flashWrite (a : Nat) (bs : List Byte) (s : State) : flashRead (flashWrite a bs s) a bs.length = bs := by
  have hback := readN_writeN s.rst.flash a (bs.map fun b => ~~~b)
  rw [List.length_map] at hback
  simp only [flashRead, flashWrite, hback, List.map_map, not_comp_not, List.map_id]

/-- Where no byte is listed, a byte map gives its default. -/
theorem mget_of_unlisted {α : Type} {m : Map α} {k : Nat} (d : α) (h : ∀ e ∈ m, e.1 ≠ k) : mget m k d = d := by
  induction m with
  | nil => rfl
  | cons e r ih =>
    obtain ⟨hfirst, hrest⟩ := List.forall_mem_cons.mp h
    exact (if_neg hfirst).trans (ih hrest)

theorem flashRead_flashErase (a : Nat) (s : State) {i : Nat} (hi : i < 65536) : flashRead (flashErase a s) (a + i) 1 = [0xFF] := by
  have herased : Memory.read (flashErase a s).rst.flash (a + i) = 0 := by
    refine mget_of_unlisted _ fun e he heq => ?_
    have hkept := (List.mem_filter.mp he).2
    simp only [Bool.or_eq_true, decide_eq_true_eq] at hkept
    omega
  simp [flashRead, Memory.readN, herased]

section
variable {f : Frame} {s : State} {a : BitVec 32} (hfree : TargetFree s) (hcrc : f.crcOk = true) (hlen : f.lenOk = true)
include hfree hcrc hlen

theorem answers_flashrd {n : BitVec 16} (hmin : 1 ≤ n.toNat) (hmax : n.toNat ≤ 256) :
    Answers f.tag s (.i3cFlashrd f a n) 0 (· = flashRead s a.toNat n.toNat) fun _ => True :=
  answers_of_taken hfree hcrc hlen rfl (if_neg (by simp; omega)) rfl trivial

/-- A page to be written is 256 B. -/
theorem answers_flashwr {data : List Byte} {st : BitVec 8} {u : State} {g : State → Prop} (hdata : data.length = 256)
    (hends : flashCommand f.tag 256 a.toNat (flashWrite a.toNat data) s = respond st f.tag [] u) (hg : g (respond st f.tag [] u)) :
    Answers f.tag s (.i3cFlashwr f a data) st (· = []) g :=
  answers_of_taken (f := { f with lenOk := f.lenOk && decide (data.length = 256) }) hfree hcrc (by simp [hlen, hdata]) rfl hends rfl hg

theorem answers_flasherase {st : BitVec 8} {u : State} {g : State → Prop}
    (hends : flashCommand f.tag 0x10000 a.toNat (flashErase a.toNat) s = respond st f.tag [] u) (hg : g (respond st f.tag [] u)) :
    Answers f.tag s (.i3cFlasherase f a) st (· = []) g :=
  answers_of_taken hfree hcrc hlen rfl hends rfl hg

theorem answers_reset : Answers f.tag s (.i3cReset f) 0 (· = []) fun t => t.io.resetPending = true ∧ t.rst = s.rst :=
  ⟨_, [], exec_of_taken hfree rfl hcrc hlen, rfl, ⟨rfl, rfl⟩, rfl, rfl⟩

end

theorem flashCommand_closed {s : State} (hclosed : flashOpen s = false) (tag : BitVec 8) (unit a : Nat) (go : State → State) :
    flashCommand tag unit a go s = respond 4 tag [] s := by
  rw [flashCommand, hclosed]
  rfl

theorem flashCommand_open {s : State} {unit a : Nat} (hopen : flashOpen s = true) (halign : a % unit = 0) (tag : BitVec 8) (go : State → State) :
    flashCommand tag unit a go s = respond 0 tag [] (go s) := by
  rw [flashCommand, hopen, if_neg (by decide), if_neg (not_not_intro halign)]

/-! ### RESET waits until its response has been read (23 R564) -/

theorem settleIo_idle {s : State} (hrun : s.io.running = none) (hacc : s.io.accHeld = none) : settleIo s = s := by
  simp [settleIo, hrun, hacc]

theorem pendingReset_none {s : State} (hpending : s.io.resetPending = false) : pendingReset s = s := by
  rw [pendingReset, hpending]
  rfl

/-- A RESET that waits resets the device by software. -/
theorem pendingReset_holds {s : State} (hpending : s.io.resetPending = true) (hphase : s.rst.phase = .running ∨ s.rst.phase = .waiting) :
    (pendingReset s).rst.phase = .reset ∧ (pendingReset s).rst.src = 6 := by
  have hon : powered s = true := by rcases hphase with h | h <;> simp [powered, h]
  have hnot : s.rst.phase ≠ .reset := by rcases hphase with h | h <;> simp [h]
  rw [pendingReset, if_pos hpending, resetIfPowered, if_pos hon]
  exact deviceReset_holds hnot 6 0

section
variable {s : State} (hrun : s.io.running = none) (hacc : s.io.accHeld = none)
include hrun hacc

theorem responseRead_none (hresp : s.io.response = none) : responseRead s = s := by
  simp [responseRead, settleIo_idle hrun hacc, hresp]

theorem responseRead_some (hresp : s.io.response ≠ none) :
    responseRead s = pendingReset (modIo (fun i => { i with response := none, ibi := none }) s) := by
  obtain ⟨r, hr⟩ := Option.ne_none_iff_exists'.mp hresp
  simp [responseRead, settleIo_idle hrun hacc, hr]

end

/-- Settles O57: each command is handed its frame, and its answer and what it leaves are those of the command's own lemma. -/
theorem i3cActs : Obligations.I3cActs := by
  unfold Obligations.I3cActs
  intro tag crc len s first count cmd addr v serial nonce data fa fl f all answers empty any
  have htakes : ∀ i ∈ all, TakesFrame f s i := by
    simp only [all, List.forall_mem_cons]
    exact ⟨takesFrame_whole rfl, takesFrame_whole rfl, takesFrame_whole rfl, takesFrame_whole rfl, takesFrame_whole rfl,
      takesFrame_stage .., takesFrame_whole rfl, takesFrame_whole rfl, takesFrame_flashwr .., takesFrame_whole rfl, takesFrame_whole rfl,
      by simp⟩
  refine ⟨fun hnacked i hi => (htakes i hi).nacked hnacked, fun hon hunread hheld => ?taken, fun hheld hacc => ?read,
    fun hpending => congrArg _ (pendingReset_none hpending), fun hpending hphase => ⟨_, rfl, pendingReset_holds hpending hphase⟩⟩
  case read =>
    refine ⟨fun hresp => congrArg _ (responseRead_none hheld hacc hresp), fun hresp hpending => ?_, fun hresp hpending hphase => ?_⟩
    · exact congrArg Host.Outcome.next ((responseRead_some hheld hacc hresp).trans (pendingReset_none hpending))
    · exact ⟨_, congrArg Host.Outcome.next (responseRead_some hheld hacc hresp), pendingReset_holds hpending hphase⟩
  case taken =>
    have hfree : TargetFree s := ⟨hon, hunread, hheld⟩
    refine ⟨fun hcrc i hi => (htakes i hi).badCrc hfree hcrc, fun hcrc hlen i hi => (htakes i hi).badLen hfree hcrc hlen, fun hcrc hlen => ?_⟩
    refine ⟨answers_ident hfree hcrc hlen, answers_sensor hfree hcrc hlen, answers_sensor_open hfree hcrc hlen, ?recovery, ?registers,
      fun hcheck hbusy => answers_attest_refused hfree hcrc hlen hbusy hcheck nonce,
      fun hcheck hbusy => answers_attest_signs hfree hcrc hlen hbusy hcheck nonce,
      fun hbusy => answers_attest_busy hfree hcrc hlen hbusy nonce,
      answers_stage hfree hcrc hlen, fun hdata => answers_stage_badLen hfree hcrc hdata addr,
      answers_imgcmd_noLoader hfree hcrc hlen, answers_imgcmd_otherImage hfree hcrc hlen, ?image,
      answers_flashrd hfree hcrc hlen, ?closed, ?opened, answers_reset hfree hcrc hlen⟩
    case recovery =>
      intro hrec
      obtain ⟨hread, hwrite⟩ := answers_access_recovery (f := f) hfree hcrc hlen hrec addr v
      exact List.forall_mem_cons.mpr ⟨hread, List.forall_mem_singleton.mpr hwrite⟩
    case registers =>
      intro hrec
      refine ⟨answers_regrd_refused hfree hcrc hlen hrec, answers_regwr_refused hfree hcrc hlen hrec, answers_regrd_memory hfree hcrc hlen hrec,
        answers_regwr_memory hfree hcrc hlen hrec, answers_regwr_lost hfree hcrc hlen hrec, fun b off hblock hreg hown => ⟨fun r => ?_, ?_⟩⟩
      · exact answers_regrd_register hfree hcrc hlen hrec hblock hreg hown
      · exact fun hcode => answers_regwr_register hfree hcrc hlen hrec hblock hreg hown hcode ⟨rfl, rfl, rfl, rfl, rfl, rfl, rfl⟩
    case image =>
      intro hruns hserial word
      refine ⟨fun hbusy howner hmin hmax => ?_, fun hours => ⟨fun hstate hcmd => ?_, fun hstate hcmd => ?_⟩⟩
      · exact answers_imgcmd_last hfree hcrc hlen hruns hserial (loaderCommandBy_owned hruns hbusy howner hmin hmax true) (by decide) rfl
      · have hnum : cmd.toNat = 2 ∨ cmd.toNat = 5 := by rcases hcmd with rfl | rfl <;> decide
        exact answers_imgcmd_last hfree hcrc hlen hruns hserial (loaderCommandBy_notStaged hruns hours hstate hnum true) (by decide) rfl
      · have hnum : cmd.toNat = 3 ∨ cmd.toNat = 4 := by rcases hcmd with rfl | rfl <;> decide
        exact answers_imgcmd_last hfree hcrc hlen hruns hserial (loaderCommandBy_idle hruns hours hstate hnum true) (by decide) hstate
    case closed =>
      intro hclosed
      exact ⟨answers_flasherase hfree hcrc hlen (flashCommand_closed hclosed ..) rfl,
        fun hdata => answers_flashwr hfree hcrc hlen hdata (flashCommand_closed hclosed ..) rfl⟩
    case opened =>
      intro hopen
      refine ⟨fun halign hdata => ?_, fun halign => ?_⟩
      · have hback := flashRead_flashWrite fa.toNat data s
        rw [hdata] at hback
        exact answers_flashwr hfree hcrc hlen hdata (flashCommand_open hopen halign ..) hback
      · exact answers_flasherase hfree hcrc hlen (flashCommand_open hopen halign ..) fun i => flashRead_flashErase fa.toNat s i.isLt

end Sys2Proof.Proofs
